-- ==== Sys2Proof/Word.lean ====
section
/-!
DEFINITION. The words of the LZ410: the fixed-width quantities that the manual counts modulo a
power of two (spec/00_scope.md "Conventions", R1, R23, R60).
-/

namespace Sys2Proof

/-- A 16-bit word of main memory or of a port. -/
abbrev Word := BitVec 16

/-- An 8-bit sample, colour index or byte of main memory. -/
abbrev Byte := BitVec 8

/-- A position on the tick count, held modulo 2^32 (R1). -/
abbrev Tick := BitVec 32

/-- An edge time in phase units, held modulo 2^36 (R1). -/
abbrev Pu := BitVec 36

/-- An ideal line start in period units, held modulo 2^40 (R23). -/
abbrev Qu := BitVec 40

/-- A field stamp, a count modulo 2^24 (R60). -/
abbrev Stamp := BitVec 24

/-- A 24-bit byte address of main memory. -/
abbrev Addr := BitVec 24

end Sys2Proof
end

