-- ==== Sys2Proof/Syntax.lean ====
section
/-!
DEFINITION. The commands of the LZ410: one constructor of `Instr` for each row of
spec/opcode_table.json, with what the outside brings to the event as operands.
-/

namespace Sys2Proof

/-- The two reference inputs REF A and REF B. -/
inductive Input where
  | a | b
deriving DecidableEq, Repr, Inhabited

/-- The levels of the four configuration pins, as the decodes 2 x strap 1 + strap 0 of
spec/12_formats.md section 12.2. -/
structure Straps where
  /-- standard strap decode: AUTO 625, AUTO 525, FORCE_625, FORCE_525 -/
  standard : BitVec 2
  /-- test strap decode: NORMAL, INTERNAL_LOOP, BYPASS, BARS -/
  test     : BitVec 2
deriving DecidableEq, Repr, Inhabited

/-- One 16-bit word the computer writes to main memory (R80). -/
structure HostWrite where
  addr  : Addr
  value : Word
deriving DecidableEq, Repr, Inhabited

/-- What the computer writes to main memory while a request's words go over the bus: the k-th list
lands before the k-th word (R109, R155; assumption log 9). -/
abbrev BusTraffic := List (List HostWrite)

/-- Where one block's work falls among the works of a field boundary (assumption log 6). -/
inductive Place where
  | first | middle | last
deriving DecidableEq, Repr, Inhabited

/-- Where TST's lock-time comparison falls among the works of a field boundary (R165, R194; assumption
log 6). -/
inductive TstPlace where
  /-- before the cue engine's work -/
  | first
  /-- after it -/
  | middle
  /-- between the swap test and FIELDSTAT, whichever of the two comes first -/
  | between
  /-- after these, before the status copy -/
  | beforeCopy
  /-- after the status copy, before a FIELDSTAT that comes behind it -/
  | afterCopy
  /-- at the end -/
  | last
deriving DecidableEq, Repr, Inhabited

/-- The orders the spec leaves open inside one line end (R66, R139, R157, R165; assumption log 6). -/
structure WorkOrder where
  /-- FAL's miss check of R55 comes before LLL's evaluation of the line -/
  missFirst : Bool := false
  /-- FAL sets the new field's length after the cue engine's boundary work -/
  falLate   : Bool := false
  /-- WSK's fade steps: before the cues, between the cues and the swap test, after the swap test -/
  wsk       : Place := .first
  /-- FIELDSTAT: before the swap test, after it, or after the status copy -/
  stat      : Place := .first
  /-- TST's lock-time comparison -/
  tst       : TstPlace := .first
deriving DecidableEq, Repr, Inhabited

/-- What a line end finds outside: the levels of HOLD and TALLY (R118, R161), and the order of the
works that fall at the same moment. -/
structure LineInputs where
  hold  : Bool := false
  tally : Bool := false
  order : WorkOrder := {}
deriving DecidableEq, Repr, Inhabited

/-- The three ways a request fails on the bus (R95). -/
inductive BusFailure where
  /-- the bus was not granted within 1152 ticks of the asking -/
  | notGranted
  /-- the word issued at this tick was not acknowledged within 1152 ticks -/
  | noAck (issued : Tick)
  /-- the word was answered with a bus error at this tick -/
  | busError (at_ : Tick)
deriving DecidableEq, Repr, Inhabited

/-- The commands, one constructor per row of spec/opcode_table.json. -/
inductive Instr where
  /-- POWER_ON (R18): the straps as the pins show them -/
  | powerOn (straps : Straps)
  /-- STRAP_DONE (R76) -/
  | strapDone
  /-- LINK_ADDRESS_WRITE (R78): the word written to port 0 -/
  | linkAddressWrite (w : Word)
  /-- LINK_ADDRESS_READ (R79) -/
  | linkAddressRead
  /-- RUN (R100), with the START and CLEAR bits of the same write (R99) -/
  | run (start clear : Bool)
  /-- STOP (R101), with the START and CLEAR bits of the same write -/
  | stop (start clear : Bool)
  /-- CONTINUE (R102), with the START and CLEAR bits of the same write -/
  | continueRun (start clear : Bool)
  /-- SOFT_RESET (R103); the START and CLEAR bits are disregarded (R99); `issued` is how many words
  of the request in service the bus already has (R96) -/
  | softReset (start clear : Bool) (issued : Nat)
  /-- NONE_FUNCTION (R196): a port-1 write with function 0, 5, 6 or 7 and neither bit -/
  | noneFunction
  /-- START (R177): a port-1 write with no function and the START bit -/
  | start
  /-- CLEAR (R177): a port-1 write with no function and the CLEAR bit -/
  | clear
  /-- CAUSE_PORT_READ (R176) -/
  | causePortRead
  /-- IGNORED_PORT_WRITE (R196): a word written to port 2 or 3 -/
  | ignoredPortWrite (w : Word)
  /-- LEADING_EDGE (R4): sample `s0` at tick `t`, sample `s1` at tick `t + 1`; `s0` lies at or below S
  only where the slicer's update at tick `t` has raised S past it (assumption log 39) -/
  | leadingEdge (i : Input) (t : Tick) (s0 s1 : Byte)
  /-- PULSE_CLASSIFICATION (R5): trailing edge at tick `u` with sample `s1`; `least` is the least of
  the pulse's samples after its first -/
  | pulseClassification (i : Input) (u : Tick) (s1 least : Byte)
  /-- PULSE_OVERRUN (R5) -/
  | pulseOverrun (i : Input)
  /-- SLICER_UPDATE (R2): the eight samples of ticks u+16 to u+23 -/
  | slicerUpdate (i : Input) (blank : List Byte)
  /-- CAPTURE_ABANDON (R39) -/
  | captureAbandon
  /-- WINDOW_END (R9) -/
  | windowEnd
  /-- LINE_END (R23) -/
  | lineEnd (x : LineInputs)
  /-- FLYWHEEL_LIMIT (R31): the line end at which the flywheel limit is reached -/
  | flywheelLimit (x : LineInputs)
  /-- MISSED_FIELDS (R55): the line end at which the fourth miss is counted -/
  | missedFields (x : LineInputs)
  /-- SCAN_POINT (R67): the line end that raises the scan point -/
  | scanPoint (x : LineInputs)
  /-- FIELD_BOUNDARY (R66): the line end that completes the field -/
  | fieldBoundary (x : LineInputs)
  /-- HOLDOVER_EXPIRY (R41): the field boundary at which the holdover limit is reached -/
  | holdoverExpiry (x : LineInputs)
  /-- TEST_NOLOCK (R194): the field boundary at which the lock-time difference reaches 8 -/
  | testNolock (x : LineInputs)
  /-- TST_LINE_ARRIVAL (R191) -/
  | tstLineArrival
  /-- TST_BROAD_ARRIVAL (R192) -/
  | tstBroadArrival
  /-- REQUEST_GRANT (R94) -/
  | requestGrant
  /-- MEMORY_FAULT (R95): how it failed, how many words of the request were done before the failing
  one, and whether a failing written word reached memory all the same (R173) -/
  | memoryFault (why : BusFailure) (done : Nat) (reached : Bool) (bus : BusTraffic)
  /-- STARTUP_LOAD_COMPLETE (R81) -/
  | startupLoadComplete (bus : BusTraffic)
  /-- FILL_READ_COMPLETE (R104) -/
  | fillReadComplete (bus : BusTraffic)
  /-- CUE_RECORD_READ (R106) -/
  | cueRecordRead (bus : BusTraffic)
  /-- IDLE_CUE_READ (R108) -/
  | idleCueRead (bus : BusTraffic)
  /-- TAKE_WRITE_COMPLETE (R112) -/
  | takeWriteComplete (bus : BusTraffic)
  /-- KEY_SOURCE_WORD_READ (R155) -/
  | keySourceWordRead (bus : BusTraffic)
  /-- RECORD_WRITE (R167) -/
  | recordWrite
  /-- REPORT_WRITE_COMPLETE (R168) -/
  | reportWriteComplete (bus : BusTraffic)
  /-- GET_READ_COMPLETE (R86) -/
  | getReadComplete (bus : BusTraffic)
  /-- LONE_PUT_WRITE_COMPLETE (R84) -/
  | lonePutWriteComplete (bus : BusTraffic)
  /-- STATUS_WORD_WRITE_COMPLETE (R92) -/
  | statusWordWriteComplete (bus : BusTraffic)
  /-- WAITEND_EXPIRED (R117): the field boundary at which the wait count reaches the timeout -/
  | waitendExpired (x : LineInputs)
  /-- CLASSIFIER_ARMED (R4): a sample above S at tick `t` -/
  | classifierArmed (i : Input) (t : Tick) (sample : Byte)
  /-- DOT_EDGE (R71): the value of DOT DATA at the edge -/
  | dotEdge (index : Byte)
deriving DecidableEq, Repr, Inhabited

end Sys2Proof
end

