-- ==== Sys2Proof/WellFormed.lean ====
section
/-!
DEFINITION. What makes a command's operands well formed: the shapes the spec gives them.
-/

namespace Sys2Proof

/-- The computer's writes go to even addresses (spec/00_scope.md "Memory"). -/
def HostWrite.wf (w : HostWrite) : Bool := w.addr.toNat % 2 = 0

def busWf (bus : BusTraffic) : Bool := bus.flatten.all HostWrite.wf

/-- The words of the longest request: the start-up load reads 38 of them, a cue record with its image
44 (R81, R83). -/
def longestRequest : Nat := 44

/-- The operand shapes: a blank level is taken from eight samples (R2), a sampled crossing falls (R4), a
failing word is one of the request's (R95), addresses are even. -/
def Instr.wf : Instr → Bool
  | .powerOn _ => true
  | .strapDone => true
  | .linkAddressWrite _ => true
  | .linkAddressRead => true
  | .run _ _ => true
  | .stop _ _ => true
  | .continueRun _ _ => true
  | .softReset _ _ issued => decide (issued ≤ longestRequest)
  | .noneFunction => true
  | .start => true
  | .clear => true
  | .causePortRead => true
  | .ignoredPortWrite _ => true
  | .leadingEdge _ _ _ _ => true
  | .pulseClassification _ _ _ _ => true
  | .pulseOverrun _ => true
  | .slicerUpdate _ blank => decide (blank.length = 8)
  | .captureAbandon => true
  | .windowEnd => true
  | .lineEnd _ => true
  | .flywheelLimit _ => true
  | .missedFields _ => true
  | .scanPoint _ => true
  | .fieldBoundary _ => true
  | .holdoverExpiry _ => true
  | .testNolock _ => true
  | .tstLineArrival => true
  | .tstBroadArrival => true
  | .requestGrant => true
  | .memoryFault _ done _ bus => decide (done < longestRequest) && busWf bus
  | .startupLoadComplete bus => busWf bus
  | .fillReadComplete bus => busWf bus
  | .cueRecordRead bus => busWf bus
  | .idleCueRead bus => busWf bus
  | .takeWriteComplete bus => busWf bus
  | .keySourceWordRead bus => busWf bus
  | .recordWrite => true
  | .reportWriteComplete bus => busWf bus
  | .getReadComplete bus => busWf bus
  | .lonePutWriteComplete bus => busWf bus
  | .statusWordWriteComplete bus => busWf bus
  | .waitendExpired _ => true
  | .classifierArmed _ _ _ => true
  | .dotEdge _ => true

end Sys2Proof
end

