-- ==== Sys2Proof/Decode.lean ====
section
/-!
DEFINITION. The words that spell commands. The rows of spec/opcode_table.json have no bits, so no word of
the table spells one; the port accesses have the layouts of spec/12_formats.md section 12.2, decoded here.
-/

namespace Sys2Proof

/-- The command a word spells by the table's bits: the table gives none of its rows any. -/
def decodeTableWord (_nbits _w : Nat) : Option Instr := none

/-- The START and CLEAR bits of a port-1 write (spec/12_formats.md section 12.2). -/
def startBit (w : Word) : Bool := w.getLsbD 8
def clearBit (w : Word) : Bool := w.getLsbD 9

/-- A write of `w` to port 1: the function in bits 0 to 2, START and CLEAR in bits 8 and 9; codes 5, 6
and 7 act as 0, every other bit is disregarded, and a write with both bits acts as CLEAR (R177, R196).
`issued` is how many words of the request in service the bus already has, for a SOFT RESET (R96). -/
def decodePortOne (w : Word) (issued : Nat) : Instr :=
  let s := startBit w
  let c := clearBit w
  match (w.extractLsb' 0 3).toNat with
  | 1 => .run s c
  | 2 => .stop s c
  | 3 => .continueRun s c
  | 4 => .softReset s c issued
  | _ => if c then .clear else if s then .start else .noneFunction

/-- The command of a write of `w` to a port (spec/12_formats.md section 12.2, R196). -/
def decodePortWrite (port : Fin 4) (w : Word) (issued : Nat) : Instr :=
  match port with
  | 0 => .linkAddressWrite w
  | 1 => decodePortOne w issued
  | _ => .ignoredPortWrite w

/-- The command of a read of a port; reads of ports 1 and 3 change no state (R76, R178). -/
def decodePortRead (port : Fin 4) : Option Instr :=
  match port with
  | 0 => some .linkAddressRead
  | 2 => some .causePortRead
  | _ => none

end Sys2Proof
end

