-- ==== Sys2Proof/Config.lean ====
section
/-!
DEFINITION. What an implementation fixes and the spec leaves open: free values, opaque constants
that nothing can evaluate. A claim that holds, holds whatever they are.
-/

namespace Sys2Proof.Config

/-- The wait count a WAITEND report shows after 65535 fields: the spec gives the count no width and
the report one word (spec/12_formats.md section 12.7). Free value (assumption log 20). -/
opaque wideWaitCount : Nat → Word

/-- The value a WARN/BAD_CUE report carries when the bad field is the 24-bit source of a KEYLOAD,
from its low word and its high byte: the field is wider than the report's word. Free value
(assumption log 19). -/
opaque wideSourceField : Word → Byte → Word

/-- The fraction of a leading edge for which R4's formula leaves the range the rule states, or divides by 0,
by S and the two samples. Used modulo 17, within R4's 0..16. Free value (assumption log 39). -/
opaque edgeFraction : Int → Byte → Byte → Nat

/-- How many words of the request in service the bus already has at a STOP, at the n-th draw, the word in
flight the last of them and 0 when none is. Free value (assumption log 13). -/
opaque wordsIssued : Nat → Nat

/-- What the clock finds at HOLD and TALLY, and in which order the works of a line end fall, at its
n-th draw. Free value (assumption log 36). -/
opaque lineInputs : Nat → LineInputs

/-- What the clock finds on DOT DATA at its n-th draw. Free value (assumption log 36). -/
opaque dotData : Nat → Byte

/-- The k-th blank sample of a reference input that the clock finds at its n-th draw. Free value
(assumption log 36). -/
opaque blankSample : Nat → Nat → Byte

/-- Which of several events due at one tick the clock takes next, at its n-th draw. Free value
(assumption log 36). -/
opaque eventChoice : Nat → Nat

end Sys2Proof.Config
end

