-- ==== Sys2Proof/Machine/State.lean ====
section
/-!
DEFINITION. The state of the LZ410 as plain data, block by block, and the state right after power-on.
Each field's rule and reset value is listed in INVENTORY.md under "State".
-/

namespace Sys2Proof.Machine

/-! ## Shared names -/

/-- A line standard (R6). -/
inductive Standard where
  | s625 | s525
deriving DecidableEq, Repr, Inhabited

/-- The standard mode setting (R13, R14). -/
inductive StdMode where
  | auto
  | force (std : Standard)
deriving DecidableEq, Repr, Inhabited

/-- The input policy setting (R15, R16). -/
inductive Policy where
  | auto
  | named (i : Input)
deriving DecidableEq, Repr, Inhabited

/-- The parity of a field: field 1 or field 2. -/
inductive Parity where
  | one | two
deriving DecidableEq, Repr, Inhabited

/-- The mode of an OUT line (R74). -/
inductive OutMode where
  | cue | lock | keying | field
deriving DecidableEq, Repr, Inhabited

/-- The test modes (R190). -/
inductive TestMode where
  | normal | internalLoop | bypass | bars
deriving DecidableEq, Repr, Inhabited

/-- The step mode setting (R34, R35). -/
inductive StepMode where
  | snap | slew
deriving DecidableEq, Repr, Inhabited

/-- The vertical mode setting (R53). -/
inductive VertMode where
  | jump | slip
deriving DecidableEq, Repr, Inhabited

/-- The lock output mode setting (R73). -/
inductive LockMode where
  | strict | line
deriving DecidableEq, Repr, Inhabited

/-- The seven maskable faults (R179). -/
inductive FaultKind where
  | badCue | late | prot | stackOver | stackUnder | range | busy
deriving DecidableEq, Repr, Inhabited

/-- The working settings, R89's table. -/
structure Settings where
  stdMode      : StdMode
  policy       : Policy := .auto
  dots         : Nat := 640
  hTarget      : Int := 0
  vOffset      : Nat := 0
  kp           : Nat := 3
  ki           : Nat := 8
  slew         : Nat := 8
  captureTol   : Nat := 32
  flyLimit     : Nat := 16
  holdLimit    : Nat := 50
  coastFirst   : Nat := 0
  coastLast    : Nat := 0
  stepMode     : StepMode := .slew
  vertMode     : VertMode := .jump
  lockMode     : LockMode := .strict
  floor        : Nat := 40
  restart      : Bool := false
  switchWin    : Nat := 2
  scanLines    : Nat := 8
  pipeDelay    : Nat := 0
  faultMask    : BitVec 7 := 0x7f#7
  protect      : Nat := 0
  guard        : Bool := true
  lockdown     : Bool := false
  out1Mode     : OutMode := .cue
  out2Mode     : OutMode := .cue
  fieldstat    : Bool := false
  testMode     : TestMode
deriving DecidableEq, Repr, Inhabited

/-! ## RFE, the reference front end -/

/-- A slicer's tracked levels (R2). -/
structure Slicer where
  t : Int
  b : Int
  a : Int
  s : Int
deriving DecidableEq, Repr, Inhabited

/-- The pulse classifier's state, with what it records for a pulse in progress (R4). -/
inductive Classifier where
  | disarmed
  | armed
  | inPulse (edge : Pu) (tip : Byte)
deriving DecidableEq, Repr, Inhabited

/-- A slicer measurement in progress: the pulse's tip and its trailing-edge tick u (R2). -/
structure Measure where
  tip : Byte
  u   : Tick
deriving DecidableEq, Repr, Inhabited

/-- What RFE holds for one input. -/
structure RefInput where
  slicer       : Slicer := ⟨16, 96, 80, 56⟩
  classifier   : Classifier := .disarmed
  measure      : Option Measure := none
  present      : Bool := false
  lossLatch    : Bool := false
  detected     : Option Standard := none
  lineCount    : Nat := 0
  spacingCount : Nat := 0
  spacingSum   : Nat := 0
  lastEdge     : Option Pu := none
deriving DecidableEq, Repr, Inhabited

structure Rfe where
  inA      : RefInput := {}
  inB      : RefInput := {}
  tick     : Tick := 0
  windowAt : Tick := 720000
  active   : Input := .a
  working  : Standard
  differ   : Nat := 0
  warned   : Bool := false
  absence  : Nat := 0
deriving DecidableEq, Repr, Inhabited

/-! ## LLL, the line lock loop -/

/-- The loop states (R21). -/
inductive LoopState where
  | free | capture | track | coast | holdover
deriving DecidableEq, Repr, Inhabited

/-- The state a capture came from (R36). -/
inductive Origin where
  | free | holdover
deriving DecidableEq, Repr, Inhabited

/-- The capture record (R36). -/
structure CaptureRecord where
  origin   : Origin
  lastEdge : Pu
  lastTick : Tick
  first    : Option Nat
deriving DecidableEq, Repr, Inhabited

/-- The stray record when it is not empty: a count of 1 or 2 and the offset of the last stray (R33). -/
structure StrayRecord where
  count : Nat
  last  : Int
deriving DecidableEq, Repr, Inhabited

/-- Least, greatest and summed phase error of a field's accepted lines (R32). -/
structure ErrorStats where
  least    : Int
  greatest : Int
  sum      : Int
deriving DecidableEq, Repr, Inhabited

/-- The field statistics (R32). -/
structure FieldStats where
  accepted : Nat := 0
  coast    : Nat := 0
  errors   : Option ErrorStats := none
deriving DecidableEq, Repr, Inhabited

structure Lll where
  loop      : LoopState := .free
  p         : Nat
  ideal     : Qu := 0
  nextIdeal : Qu
  hTarget   : Int := 0
  hEff      : Int := 0
  c         : Int := 0
  settling  : Bool := false
  flywheel  : Nat := 0
  stray     : Option StrayRecord := none
  pullLimit : Bool := false
  holdover  : Nat := 0
  capture   : Option CaptureRecord := none
  lastE     : Int := 0
  stats     : FieldStats := {}
  /-- the line's measurement: the phase error of its first accepted arrival (R26) -/
  accepted  : Option Int := none
  /-- the line's stray: the offset of its first stray arrival (R26) -/
  lineStray : Option Int := none
deriving DecidableEq, Repr, Inhabited

/-! ## FAL, the field aligner -/

inductive FieldState where
  | seek | align | lock
deriving DecidableEq, Repr, Inhabited

inductive ShiftKind where
  | whole | slip
deriving DecidableEq, Repr, Inhabited

/-- The broad record when it is open (R46, R47): the first pulse's leading edge, its anchor position
and the parity of the start it would be, and the count of pulses. -/
structure BroadRecord where
  first  : Pu
  anchor : Int
  parity : Parity
  count  : Nat
deriving DecidableEq, Repr, Inhabited

structure Fal where
  field      : FieldState := .seek
  shift      : Int := 0
  kind       : ShiftKind := .whole
  miss       : Nat := 0
  startSeen  : Bool := false
  broad      : Option BroadRecord := none
  lockout    : Option Pu := none
  lastDelta  : Int := 0
  lastParity : Option Parity := none
deriving DecidableEq, Repr, Inhabited

/-! ## TGN, the timing generator -/

/-- A dot whose DOT DATA has not yet arrived (R71): its own coordinates, the D of its line (R148) and
the count its drive edge will bear. -/
structure Drive where
  stamp : Stamp
  line  : Nat
  dot   : Nat
  dots  : Nat
  due   : BitVec 16
deriving DecidableEq, Repr, Inhabited

structure Tgn where
  line      : Nat := 1
  parity    : Parity := .one
  length    : Nat
  stamp     : Stamp := 0
  lineStart : Tick := 0
  scanDone  : Bool := false
  delay     : Nat := 0
  edgeCount : BitVec 16 := 0
  drives    : List Drive := []
  out1      : Bool := false
  out2      : Bool := false
  straps    : Straps
  strapDone : Bool := false
  /-- D as read at the line start (R70) -/
  lineD     : Nat := 640
  /-- the standard of the line's layout, read at the line start (section 4.3) -/
  lineStd   : Standard
  /-- number of the next dot whose edge is to be issued in the line in progress -/
  nextDot   : Nat := 0
  /-- the level driven on KEY, and the end of the active span that ends it (R71) -/
  key       : Nat := 0
  keyUntil  : Tick := 0
deriving DecidableEq, Repr, Inhabited

/-! ## Cue copies, settings images and reports -/

/-- The eight words of a cue record (spec/12_formats.md section 12.5). -/
structure CueWords where
  w0 : Word
  w1 : Word
  w2 : Word
  w3 : Word
  w4 : Word
  w5 : Word
  w6 : Word
  w7 : Word
deriving DecidableEq, Repr, Inhabited

/-- One entry of the match list (R171). -/
structure MatchEntry where
  mask    : Word
  pattern : Word
deriving DecidableEq, Repr, Inhabited

/-- What a load brings in beside take and put (R81, R83). -/
structure Image where
  qBase      : Nat
  qLen       : Nat
  rBase      : Nat
  rLen       : Nat
  get        : Nat
  repTrigger : Nat
  matchList    : Vector MatchEntry 4
  /-- words 28 to 40 of the link block -/
  settings   : List Word
deriving DecidableEq, Repr, Inhabited

/-- The standing of a kept copy (R105). -/
inductive Standing where
  | due | past | immediate
deriving DecidableEq, Repr, Inhabited

/-- A fetched cue copy (R97, R106): its queue index (absent for the idle cue), standing, words and,
for a SETTINGS cue, the image read with it. -/
structure Copy where
  index    : Option Nat
  standing : Standing
  words    : CueWords
  image    : Option Image
deriving DecidableEq, Repr, Inhabited

/-- A report record (spec/12_formats.md section 12.7): w0, field stamp, extension byte, tag, w4..w7. -/
structure Report where
  w0    : Word
  stamp : Stamp := 0
  ext   : Byte := 0
  tag   : Word := 0
  w4    : Word := 0
  w5    : Word := 0
  w6    : Word := 0
  w7    : Word := 0
deriving DecidableEq, Repr, Inhabited

/-- The gap part of a FIFO record (R166). -/
structure GapPart where
  count   : Nat
  first   : Stamp
  closing : Stamp
deriving DecidableEq, Repr, Inhabited

/-- A record in the report FIFO with its optional gap part (R164). -/
structure FifoRecord where
  report : Report
  gap    : Option GapPart
deriving DecidableEq, Repr, Inhabited

/-! ## MPT, the memory port -/

/-- A request at the memory port (spec/05 section 5.7), with the byte addresses and values it was
posted with. -/
inductive Request where
  | startupLoad (link : Nat)
  | fillRead (link : Nat) (n : Stamp)
  /-- a cue record at its address, with its queue index, the N its standing is judged against and the
  link address its settings image would follow (R105, R106) -/
  | cueRecord (addr : Nat) (index : Nat) (n : Stamp) (link : Nat)
  | idleCue (link : Nat)
  | takeWrite (addr : Nat) (value : Nat)
  | keySource (addr : Nat)
  /-- a report record or, when `gap` is set, a GAP record, with the put write that follows it -/
  | reportWrite (addr : Nat) (record : Report) (gap : Bool) (putAddr : Nat) (put : Nat)
  | lonePut (addr : Nat) (put : Nat)
  /-- the get and trigger read; `forRecord`: made because a record found the ring full (R86) -/
  | getRead (addr : Nat) (forRecord : Bool)
  | statusWord (addr : Nat) (value : Word)
deriving DecidableEq, Repr, Inhabited

/-- The request in service: `discard` says that its result is discarded (R98, R107), `asked` is the
tick at which the bus was asked for (the bus-wait timer of R95), and `cut`, once a STOP has cut the
request short, the number of words it runs to, the word in flight the last (R96, R101). -/
structure Service where
  req     : Request
  discard : Bool
  asked   : Tick
  cut     : Option Nat := none
deriving DecidableEq, Repr, Inhabited

structure Mpt where
  service : Option Service := none
  /-- the cue engine's posted requests, oldest first (R97) -/
  cueQ    : List Request := []
  key     : Option Request := none
  rpw     : Option Request := none
  sta     : Option Request := none
deriving DecidableEq, Repr, Inhabited

/-! ## CUE, the cue engine -/

inductive EngineState where
  | stopped | running | waiting | held | halted
deriving DecidableEq, Repr, Inhabited

inductive HaltReason where
  | halt | link | memory
  | fault (k : FaultKind)
deriving DecidableEq, Repr, Inhabited

/-- The state HOLD interrupted (R97). -/
inductive HeldFrom where
  | running | waiting
deriving DecidableEq, Repr, Inhabited

/-- A WAITLOCK condition (R116). -/
inductive WaitCond where
  | line | field
deriving DecidableEq, Repr, Inhabited

/-- The wait record (R97, R116). -/
structure WaitRecord where
  copy    : Copy
  cond    : WaitCond
  timeout : Nat
  count   : Nat
  isIdle  : Bool
deriving DecidableEq, Repr, Inhabited

/-- The scan record of a scan in progress: N (R105) and the next queue index to read. -/
structure ScanRecord where
  n    : Stamp
  next : Nat
deriving DecidableEq, Repr, Inhabited

structure Cue where
  engine     : EngineState := .stopped
  link       : Addr := 0
  /-- the port-0 sequencer points at the second half (R78) -/
  second     : Bool := false
  linkValid  : Bool := false
  startup    : Bool := false
  qBase      : Nat := 0
  qLen       : Nat := 0
  take       : Nat := 0
  lastFill   : Nat := 0
  trigger    : Option Nat := none
  settings   : Settings
  masks      : BitVec 7 := 0x7f#7
  due        : List Copy := []
  idle       : Option Copy := none
  seenEmpty  : Bool := true
  badFill    : Bool := false
  wait       : Option WaitRecord := none
  heldFrom   : Option HeldFrom := none
  deferral   : Option Nat := none
  haltReason : Option HaltReason := none
  scan       : Option ScanRecord := none
deriving DecidableEq, Repr, Inhabited

/-! ## WSK, the window stack -/

/-- The mode of a window (R127). -/
inductive WinMode where
  | index | full | punch
deriving DecidableEq, Repr, Inhabited

/-- A window record (R127). -/
structure Window where
  top    : Nat
  bottom : Nat
  left   : Nat
  right  : Nat
  mode   : WinMode
  bank   : Fin 4
  fade   : Nat
  target : Nat
  steps  : Nat
  tag    : Word
  mark   : Stamp
deriving DecidableEq, Repr, Inhabited

/-- A slot with its tag (R127, R128): an EMPTY slot holds no window. -/
inductive Slot where
  | empty
  | parked (w : Window)
  | live (w : Window)
deriving DecidableEq, Repr, Inhabited

/-- The eight slots with TOP (R127). -/
structure Stack where
  slots : Vector Slot 8
  top   : Fin 8
deriving DecidableEq, Repr, Inhabited

structure Wsk where
  stack : Stack := ⟨Vector.replicate 8 .empty, 0⟩
  /-- the stack that was in force for the field that has ended (R140) -/
  prev  : Option Stack := none
deriving DecidableEq, Repr, Inhabited

/-! ## KBL, the key banks -/

/-- A key bank: 256 key values indexed by colour index (R150). -/
abbrev Bank := Vector Nat 256

/-- The bank with every entry 0. -/
def Bank.zero : Bank := Vector.replicate 256 0

inductive LoaderState where
  | idle | loading | ready
deriving DecidableEq, Repr, Inhabited

/-- The load record (R151). -/
structure LoadRecord where
  bank      : Fin 4
  start     : Nat
  count     : Nat
  source    : Nat
  wordsRead : Nat
  saturated : Nat
  tag       : Word
  held      : Nat
  heldRep   : Bool
deriving DecidableEq, Repr, Inhabited

/-- A bank's replaced contents, kept for the last dots of the ended field (R150). -/
structure Replaced where
  bank     : Fin 4
  contents : Bank
deriving DecidableEq, Repr, Inhabited

structure Kbl where
  banks    : Vector Bank 4 := Vector.replicate 4 Bank.zero
  shadow   : Bank := Bank.zero
  loader   : LoaderState := .idle
  load     : Option LoadRecord := none
  replaced : Option Replaced := none
deriving DecidableEq, Repr, Inhabited

/-! ## RPW, the report writer -/

structure Rpw where
  fifo       : List FifoRecord := []
  withheld   : Nat := 0
  openGap    : Nat := 0
  openStamp  : Option Stamp := none
  gapPending : Bool := false
  base       : Nat := 0
  len        : Nat := 0
  put        : Nat := 0
  lastGet    : Nat := 0
  trigger    : Option Nat := none
  matchList    : Vector MatchEntry 4 := Vector.replicate 4 ⟨0, 0⟩
  fullWait   : Bool := false
  badGet     : Bool := false
  suspended  : Bool := false
  /-- a boundary's get read waits for the write in hand (R167) -/
  getDue     : Bool := false
  /-- a lone put write waits for the write in hand (R84, R172) -/
  putDue     : Bool := false
  /-- the statistics of the field that ended last, as LLL handed them on (R32) -/
  ended      : FieldStats := {}
  /-- the words of the status copy still to be posted, with their byte addresses (R92) -/
  status     : List (Nat × Word) := []
  /-- the eight causes, bit n as in port 2 (spec/12_formats.md section 12.2), and their seen flags -/
  latched    : BitVec 8 := 0
  seen       : BitVec 8 := 0
  enabled    : Bool := false
deriving DecidableEq, Repr, Inhabited

/-! ## TST, the test unit -/

/-- The open count record (R190). -/
structure CountRecord where
  stamp : Stamp
  excess : Nat
deriving DecidableEq, Repr, Inhabited

structure Tst where
  mode     : TestMode
  count    : Option CountRecord := none
  /-- the lock-time record: its entry stamp when open (R190) -/
  lockTime : Option Stamp := none
  /-- leading edges of the LINE arrivals still to come, oldest first: that of the line in progress, and
  that of the line before it where it falls at the tick of the line end (R26, R191) -/
  lines    : List Pu := []
  /-- leading edges of the placed run of BROAD arrivals still to come (R192) -/
  run      : List Pu := []
deriving DecidableEq, Repr, Inhabited

/-! ## The whole part -/

/-- The computer's main memory: cells strictly rising in address, none equal to what an unlisted
address reads as (assumption log 7). -/
abbrev Memory := List Host.Cell

/-- The levels of the studio's lines as last sampled (R118, R161). -/
structure Pins where
  tally : Bool := false
  hold  : Bool := false
deriving DecidableEq, Repr, Inhabited

structure State where
  rfe      : Rfe
  lll      : Lll
  fal      : Fal
  tgn      : Tgn
  mpt      : Mpt
  cue      : Cue
  wsk      : Wsk
  kbl      : Kbl
  rpw      : Rpw
  tst      : Tst
  mem      : Memory
  pins     : Pins
  /-- the word the latest port read returned (assumption log 29) -/
  readData : Word
  /-- how many free values have been drawn by the clock and by STOP (assumption logs 13 and 36) -/
  draw     : Nat
  /-- the commands that are waiting, first in, first out -/
  pending  : List Instr
deriving DecidableEq, Repr, Inhabited

/-- The part stops at no command: every fault of the spec (R179 to R187) is an effect on `State`. -/
inductive Fault where
deriving DecidableEq, Repr

/-- Why a command is refused. -/
inductive Refusal where
  /-- Raised by an arm of `exec` whose command has no meaning yet; no arm raises it. Safe. -/
  | notModelled (mnemonic : String)
deriving DecidableEq, Repr

/-! ## Power-on values -/

/-- Strap tables of spec/04 section 4.6: the default standard mode. -/
def Straps.stdMode (s : Straps) : StdMode :=
  if s.standard.toNat < 2 then .auto else if s.standard.toNat = 2 then .force .s625 else .force .s525

/-- The starting working standard of the standard straps: 625 at the even codes. -/
def Straps.startStd (s : Straps) : Standard :=
  if s.standard.toNat % 2 = 0 then .s625 else .s525

/-- The default test mode of the test straps. -/
def Straps.testMode (s : Straps) : TestMode :=
  if s.test.toNat = 0 then .normal else if s.test.toNat = 1 then .internalLoop
  else if s.test.toNat = 2 then .bypass else .bars

/-- The default settings under a strap decode (R89). -/
def Settings.default (s : Straps) : Settings :=
  { stdMode := Straps.stdMode s, testMode := Straps.testMode s }

/-- The nominal line period in qu (R20). -/
def Standard.nominal : Standard → Nat
  | .s625 => 589824
  | .s525 => 585728

/-- Standard field lengths (R50). -/
def Standard.fieldLines : Standard → Parity → Nat
  | .s625, .one => 313
  | .s625, .two => 312
  | .s525, .one => 263
  | .s525, .two => 262

/-- TST at power-on and after a soft reset (R190): both records open with stamp 0 under an INTERNAL_LOOP
strap, else closed. `lines` and `run` are the arrivals still to come in that mode; that a soft reset in
INTERNAL_LOOP keeps those already placed is the model's choice (R191, R192; assumption log 23). -/
def Tst.start (s : Straps) (lines run : List Pu) : Tst :=
  if Straps.testMode s = .internalLoop then
    { mode := .internalLoop, count := some ⟨0, 0⟩, lockTime := some 0, lines := lines, run := run }
  else { mode := Straps.testMode s }

/-- Every block at its power-on values, with the straps as sampled (R18, R21, R59, R64, R96, R97, R127,
R150, R151, R164, R190). Main memory is the computer's and is given. -/
def State.powerOn (straps : Straps) (mem : Memory) : State :=
  let std := Straps.startStd straps
  { rfe := { working := std }
    lll := { p := std.nominal, nextIdeal := BitVec.ofNat 40 std.nominal }
    fal := {}
    tgn := { length := std.fieldLines .one, straps := straps, lineStd := std }
    mpt := {}
    cue := { settings := Settings.default straps }
    wsk := {}
    kbl := {}
    rpw := {}
    tst := Tst.start straps [0] []
    mem := mem
    pins := {}
    readData := 0
    draw := 0
    pending := [] }

/-- The machine right after reset: power-on with all straps low (assumption log 2) and main memory with
nothing listed (assumption log 7). -/
def State.reset : State := State.powerOn ⟨0, 0⟩ []

end Sys2Proof.Machine
end

