-- ==== Sys2Proof/Machine/Ops.lean ====
section
/-!
DEFINITION. Shared operations: arithmetic of spec/00_scope.md, main memory, the report FIFO, the
interrupt causes, and the updates of one block's part of the state.
-/

namespace Sys2Proof.Machine

/-! ## Arithmetic (spec/00_scope.md "Arithmetic") -/

/-- x divided by 2^k, rounded to nearest with ties away from zero. -/
def roundDiv (x : Int) (k : Nat) : Int :=
  if k = 0 then x
  else if 0 ≤ x then (x + 2 ^ (k - 1)) / 2 ^ k
  else -((-x + 2 ^ (k - 1)) / 2 ^ k)

/-- x arithmetic-shifted right by k: floor(x / 2^k). -/
def asr (x : Int) (k : Nat) : Int := x / 2 ^ k

/-- clamp(x, lo, hi). -/
def clampI (x lo hi : Int) : Int := if x < lo then lo else if hi < x then hi else x

/-- clamp on counts. -/
def clampN (x lo hi : Nat) : Nat := if x < lo then lo else if hi < x then hi else x

/-- Add one, saturating at `cap`. -/
def satSucc (cap n : Nat) : Nat := if n < cap then n + 1 else cap

/-- `x` moved toward `goal` by at most `step` (R25). -/
def moveToward (x goal : Int) (step : Nat) : Int :=
  if (goal - x).natAbs ≤ step then goal
  else if x < goal then x + step else x - step

/-- The tick that a time in pu lies in: floor(time / 16). -/
def Pu.tick (t : Pu) : Tick := BitVec.ofNat 32 (t.toNat / 16)

/-- The tick that a time in qu lies in: floor(time / 256) (R23). -/
def Qu.tick (t : Qu) : Tick := BitVec.ofNat 32 (t.toNat / 256)

/-- A time in qu as pu: floor(time / 16) (R26). -/
def Qu.pu (t : Qu) : Pu := BitVec.ofNat 36 (t.toNat / 16)

/-- `now` is at or after `t` on the tick count, whose spans are short (R1). -/
def Tick.reached (now t : Tick) : Bool := decide (0 ≤ (now - t).toInt)

/-- A number as a word: its low 16 bits, two's complement when negative. -/
def wordOfInt (x : Int) : Word := BitVec.ofInt 16 x

/-- A count as a word. -/
def wordOfNat (n : Nat) : Word := BitVec.ofNat 16 n

def bitOf (b : Bool) : Nat := if b then 1 else 0

/-- The field of `w` bits from bit `lo`. -/
def bits (x : Word) (lo w : Nat) : Nat := (x.toNat / 2 ^ lo) % 2 ^ w

/-! ## Main memory (spec/00_scope.md "Memory"; assumption logs 7 and 8) -/

/-- What an unlisted byte of main memory reads as. DESIGN CHOICE (assumption log 7). -/
def unlistedByte : Byte := 0

/-- The canonical form of main memory: addresses strictly rising and inside the 24-bit space, no cell
equal to what an unlisted byte reads as. -/
abbrev Memory.wf (m : Memory) : Prop :=
  m.Pairwise (fun x y => x.1 < y.1) ∧ ∀ x ∈ m, x.1 < 2 ^ 24 ∧ x.2 ≠ unlistedByte

/-- Read one byte. -/
def Memory.readByte : Memory → Nat → Byte
  | [], _ => unlistedByte
  | (k, b) :: t, a => if k = a then b else Memory.readByte t a

/-- Write one byte, keeping the canonical form. -/
def Memory.writeByte : Memory → Nat → Byte → Memory
  | [], a, b => if b = unlistedByte then [] else [(a, b)]
  | (k, c) :: t, a, b =>
    if a < k then (if b = unlistedByte then (k, c) :: t else (a, b) :: (k, c) :: t)
    else if a = k then (if b = unlistedByte then t else (a, b) :: t)
    else (k, c) :: Memory.writeByte t a b

/-- An address brought into the 24-bit space (assumption log 11). -/
def wrapAddr (a : Nat) : Nat := a % 2 ^ 24

/-- Read the word at byte address `a`: low byte at `a` (assumption log 8). -/
def Memory.readWord (m : Memory) (a : Nat) : Word :=
  (m.readByte (wrapAddr (a + 1))) ++ (m.readByte (wrapAddr a))

/-- Write the word at byte address `a`. -/
def Memory.writeWord (m : Memory) (a : Nat) (w : Word) : Memory :=
  (m.writeByte (wrapAddr a) (w.extractLsb' 0 8)).writeByte (wrapAddr (a + 1)) (w.extractLsb' 8 8)

/-- Write words at given byte addresses, in order. -/
def Memory.writeWords (m : Memory) : List (Nat × Word) → Memory
  | [] => m
  | (a, w) :: t => Memory.writeWords (m.writeWord a w) t

/-- The computer's own writes to memory (R80). -/
def Memory.hostWrites (m : Memory) (ws : List HostWrite) : Memory :=
  m.writeWords (ws.map (fun w => (w.addr.toNat, w.value)))

/-- Read words one by one over the bus; the k-th list of the computer's writes lands before the k-th
word is read, and what is left lands at the end (R109, R155; assumption log 9). -/
def Memory.readRun (m : Memory) : List Nat → BusTraffic → Memory × List Word
  | [], bus => (m.hostWrites bus.flatten, [])
  | a :: as, bus =>
    let m1 := m.hostWrites (bus.headD [])
    let r := Memory.readRun m1 as bus.tail
    (r.1, m1.readWord a :: r.2)

/-- Write words one by one over the bus, the computer's writes falling between them as in `readRun`. -/
def Memory.writeRun (m : Memory) : List (Nat × Word) → BusTraffic → Memory
  | [], bus => m.hostWrites bus.flatten
  | (a, w) :: t, bus => Memory.writeRun ((m.hostWrites (bus.headD [])).writeWord a w) t bus.tail

/-! ## Field stamps -/

/-- A report with the field stamp TGN holds at its production (R61, R165). -/
def Report.stamped (r : Report) (s : Stamp) : Report := { r with stamp := s }

/-! ## The report FIFO (R165, R166) -/

/-- The FIFO has room: fewer than 8 records (R165). -/
def Rpw.accepts (r : Rpw) : Bool := decide (r.fifo.length < 8)

/-- The gap part a record accepted now receives (R166): none when no gap is open. -/
def Rpw.closingGap (r : Rpw) (stamp : Stamp) : Option GapPart :=
  if r.openGap = 0 then none
  else some { count := r.openGap, first := r.openStamp.getD stamp, closing := stamp }

/-- Accept or withhold one stamped record (R165, R166). -/
def Rpw.produce (r : Rpw) (rec : Report) : Rpw :=
  if r.accepts then
    { r with
      fifo := r.fifo ++ [⟨rec, r.closingGap rec.stamp⟩]
      openGap := 0
      openStamp := none }
  else
    { r with
      withheld := satSucc 65535 r.withheld
      openGap := satSucc 65535 r.openGap
      openStamp := if r.openGap = 0 then some rec.stamp else r.openStamp
      gapPending := true }

/-- A block hands RPW one record, which takes the stamp TGN holds (R165). -/
def produce (rec : Report) (s : State) : State :=
  { s with rpw := s.rpw.produce (rec.stamped s.tgn.stamp) }

/-- Records of one event, handed in order (R165). -/
def produceAll : List Report → State → State
  | [], s => s
  | r :: rs, s => produceAll rs (produce r s)

/-! ## Interrupt causes (R175) -/

/-- The eight causes, in the order of port 2 (spec/12_formats.md section 12.2). -/
inductive Cause where
  | reportTrigger | cueTrigger | queueEmpty | matched | halt | memory | link | inputChange
deriving DecidableEq, Repr

/-- The bit of a cause. -/
def Cause.bit : Cause → BitVec 8
  | .reportTrigger => 0x01#8
  | .cueTrigger    => 0x02#8
  | .queueEmpty    => 0x04#8
  | .matched       => 0x08#8
  | .halt          => 0x10#8
  | .memory        => 0x20#8
  | .link          => 0x40#8
  | .inputChange   => 0x80#8

/-- Latch a cause; its seen flag clears (R175). -/
def Rpw.latch (r : Rpw) (c : Cause) : Rpw :=
  { r with latched := r.latched ||| c.bit, seen := r.seen &&& ~~~c.bit }

def latch (c : Cause) (s : State) : State := { s with rpw := s.rpw.latch c }

/-- The acknowledgment of START and CLEAR (R177). -/
def Rpw.acknowledge (r : Rpw) (enable : Bool) : Rpw :=
  { r with latched := r.latched &&& ~~~r.seen, seen := 0, enabled := enable }

/-- The START and CLEAR bits of a taken port-1 write: both act as CLEAR, neither changes nothing (R177). -/
def ackBits (start clear : Bool) (s : State) : State :=
  if clear then { s with rpw := s.rpw.acknowledge false }
  else if start then { s with rpw := s.rpw.acknowledge true }
  else s

/-! ## Updates of one block -/

def State.setInput (s : State) (i : Input) (r : RefInput) : State :=
  match i with
  | .a => { s with rfe := { s.rfe with inA := r } }
  | .b => { s with rfe := { s.rfe with inB := r } }

def State.input (s : State) : Input → RefInput
  | .a => s.rfe.inA
  | .b => s.rfe.inB

/-- The tick count takes an event's instant (assumption log 3). -/
def State.atTick (s : State) (t : Tick) : State := { s with rfe := { s.rfe with tick := t } }

def otherInput : Input → Input
  | .a => .b
  | .b => .a

def Parity.other : Parity → Parity
  | .one => .two
  | .two => .one

/-- The end of the line in progress, as a tick (R23). -/
def State.lineEndTick (s : State) : Tick := Qu.tick s.lll.nextIdeal

/-! ## TST's LINE arrivals (R191) -/

/-- The tick of TST's LINE arrival with this leading edge (R191). -/
def tstLineTick (edge : Pu) : Tick := Pu.tick edge + 170

/-- TST's LINE arrival with this leading edge is made: the line in progress does not end before it (R191). -/
def State.tstLineDue (s : State) (edge : Pu) : Bool :=
  decide (s.tst.mode = .internalLoop) && Tick.reached s.lineEndTick (tstLineTick edge)

/-- The LINE arrivals to come when INTERNAL_LOOP is entered: that of the line in progress, if its tick has
not passed (R190, R191). -/
def State.entryLines (s : State) : List Pu :=
  let edge := Qu.pu s.lll.ideal
  if Tick.reached (tstLineTick edge) s.rfe.tick then [edge] else []

/-! ## Standards (R20, R30, R50, R129) -/

/-- P_min and P_max: the nominal plus or minus one sixty-fourth (R20). -/
def Standard.pMin (d : Standard) : Nat := d.nominal - d.nominal / 64
def Standard.pMax (d : Standard) : Nat := d.nominal + d.nominal / 64

/-- The line-length clamp: the nominal plus or minus one thirty-second (R23). -/
def Standard.lenMin (d : Standard) : Nat := d.nominal - d.nominal / 32
def Standard.lenMax (d : Standard) : Nat := d.nominal + d.nominal / 32

/-- A quarter nominal line in pu (R26). -/
def Standard.quarter (d : Standard) : Nat := d.nominal / 64

/-- Half a nominal line in pu (R25). -/
def Standard.half (d : Standard) : Nat := d.nominal / 32

/-- The frame length (R50). -/
def Standard.frame : Standard → Nat
  | .s625 => 625
  | .s525 => 525

/-- Lmax: the longest generated field, field 1 plus 16 lines (R129). -/
def Standard.lMax (d : Standard) : Nat := d.fieldLines .one + 16

/-- First tick of the active span after the line start (spec/04 section 4.3). -/
def Standard.activeStart : Standard → Nat
  | .s625 => 378
  | .s525 => 340

/-- Vertically blanked lines, counted from line 1 (spec/04 section 4.3). -/
def Standard.blankedLines : Standard → Nat
  | .s625 => 23
  | .s525 => 20

/-! ## Conditions on the loop and the aligner -/

/-- TRACK and COAST are the locked states (spec/02). -/
def Lll.locked (l : Lll) : Bool := l.loop = .track || l.loop = .coast

/-- In HOLDOVER, or in CAPTURE entered from HOLDOVER (R40, R57). -/
def Lll.inHoldover (l : Lll) : Bool :=
  l.loop = .holdover || (l.loop = .capture && l.capture.any (fun c => c.origin = .holdover))

/-- Strict lock: the loop in TRACK or COAST and FAL in F_LOCK (R73, R116, R194). -/
def State.strictLock (s : State) : Bool := s.lll.locked && decide (s.fal.field = .lock)

end Sys2Proof.Machine
end

