-- ==== Sys2Proof/Machine/Reports.lean ====
section
/-!
DEFINITION. Codes and report layouts of spec/12_formats.md sections 12.1 and 12.7. A report is built
without its field stamp, which `produce` adds (R61, R165).
-/

namespace Sys2Proof.Machine

/-! ## Codes (section 12.1) -/

def LoopState.code : LoopState → Nat
  | .free => 0 | .capture => 1 | .track => 2 | .coast => 3 | .holdover => 4

def FieldState.code : FieldState → Nat
  | .seek => 0 | .align => 1 | .lock => 2

def EngineState.code : EngineState → Nat
  | .stopped => 0 | .running => 1 | .waiting => 2 | .held => 3 | .halted => 4

/-- The number of a maskable fault: its mask bit (section 12.1). -/
def FaultKind.num : FaultKind → Nat
  | .badCue => 0 | .late => 1 | .prot => 2 | .stackOver => 3 | .stackUnder => 4 | .range => 5 | .busy => 6

def HaltReason.code : HaltReason → Nat
  | .halt => 0 | .link => 1 | .memory => 2 | .fault k => 3 + k.num

def LoaderState.code : LoaderState → Nat
  | .idle => 0 | .loading => 1 | .ready => 2

def Slot.code : Slot → Nat
  | .empty => 0 | .parked _ => 1 | .live _ => 2

def inputCode : Input → Nat
  | .a => 0 | .b => 1

def Standard.code : Standard → Nat
  | .s625 => 0 | .s525 => 1

/-- A detected standard, 2 when UNKNOWN. -/
def detectedCode : Option Standard → Nat
  | some d => d.code
  | none => 2

def Parity.code : Parity → Nat
  | .one => 1 | .two => 2

def parityCode : Option Parity → Nat
  | some p => p.code
  | none => 0

/-- The low word and the high word of a number wider than a word. -/
def lowWord (n : Nat) : Word := wordOfNat n
def highWord (n : Nat) : Word := wordOfNat (n / 65536)

/-- FFFFh: IDLE or none in an index or depth field. -/
def noneWord : Word := 0xffff#16

/-- An index field: the index, or FFFFh for none. -/
def indexWord : Option Nat → Word
  | some i => wordOfNat i
  | none => noneWord

/-- Status word 58 and SNAP/A: the tag of slot k in bits 2k, 2k + 1. -/
def tagsWord (slots : Vector Slot 8) : Word :=
  wordOfNat (slots.toList.foldr (fun x acc => x.code + 4 * acc) 0)

/-! ## INPUT (R10, R11, R17) -/

/-- Bit 0 the input named, 1 and 2 the presence of A and B, 3 the active input. -/
def inputWord (r : Rfe) (i : Input) : Word :=
  wordOfNat (inputCode i + 2 * bitOf r.inA.present + 4 * bitOf r.inB.present + 8 * inputCode r.active)

def Rfe.get (r : Rfe) : Input → RefInput
  | .a => r.inA
  | .b => r.inB

def repInput (w0 : Word) (r : Rfe) (i : Input) : Report :=
  { w0 := w0, w4 := inputWord r i, w5 := wordOfNat (detectedCode (r.get i).detected) }

def repInputPresent := repInput 0x0101#16
def repInputLost := repInput 0x0102#16

/-- Why the active input changed (R15, R16). -/
inductive SwitchReason where
  | auto | select
deriving DecidableEq, Repr

def repInputSwitched (r : Rfe) (why : SwitchReason) : Report :=
  { w0 := 0x0103#16, w4 := inputWord r r.active, w5 := wordOfNat (if why = .auto then 0 else 1) }

/-! ## LOCK (R45) -/

def repAcquired (p : Nat) (o : Origin) : Report :=
  { w0 := 0x0201#16, w4 := lowWord p, w5 := highWord p, w6 := wordOfNat (if o = .free then 0 else 1) }

/-- LOCK/STEP: mode 0 SNAP or 1 SLEW, the offset, and C, which is 0 for SNAP. -/
def repStep (m : StepMode) (offset c : Int) : Report :=
  { w0 := 0x0202#16, w4 := wordOfNat (if m = .snap then 0 else 1), w5 := wordOfInt offset,
    w6 := if m = .snap then 0 else wordOfInt c }

def repPullLimit (p : Nat) (upper : Bool) (e : Int) : Report :=
  { w0 := 0x0203#16, w4 := lowWord p, w5 := highWord p, w6 := wordOfNat (bitOf upper), w7 := wordOfInt e }

/-- LOCK/HOLDOVER: reason 0 FLYWHEEL or 1 SWITCH. -/
def repHoldover (p : Nat) (switch : Bool) (lastE : Int) : Report :=
  { w0 := 0x0204#16, w4 := lowWord p, w5 := highWord p, w6 := wordOfNat (bitOf switch), w7 := wordOfInt lastE }

/-- LOCK/FREE: reason 0 EXPIRED or 1 STANDARD. -/
def repFree (p : Nat) (standard : Bool) : Report :=
  { w0 := 0x0205#16, w4 := lowWord p, w5 := highWord p, w6 := wordOfNat (bitOf standard) }

/-- LOCK/STANDARD: reason 0 DETECTED or 1 FORCED. -/
def repStandard (d : Standard) (active : Input) (forced : Bool) : Report :=
  { w0 := 0x0206#16, w4 := wordOfNat d.code, w5 := wordOfNat (inputCode active), w6 := wordOfNat (bitOf forced) }

/-! ## FIELD (R62) -/

/-- Bits 0 and 1 the field state after the event, 2 and 3 the last reference parity. -/
def fieldWord (f : Fal) : Word := wordOfNat (f.field.code + 4 * parityCode f.lastParity)

def repFieldLocked (f : Fal) (inProgress : Parity) (vOffset : Nat) : Report :=
  { w0 := 0x0301#16, w4 := fieldWord f, w5 := wordOfNat inProgress.code, w6 := wordOfNat vOffset }

/-- FIELD/ADJUST: the new length of the field in progress, or 0 when the adjustment is pending. -/
def repFieldAdjust (f : Fal) (delta : Int) (newLength : Option Nat) : Report :=
  { w0 := 0x0302#16, w4 := fieldWord f, w5 := wordOfInt delta, w6 := wordOfNat (newLength.getD 0) }

inductive RealignReason where
  | distance | parity | vOffset
deriving DecidableEq, Repr

def RealignReason.code : RealignReason → Nat
  | .distance => 0 | .parity => 1 | .vOffset => 2

def repFieldRealign (f : Fal) (why : RealignReason) : Report :=
  { w0 := 0x0303#16, w4 := fieldWord f, w5 := wordOfNat why.code, w6 := wordOfInt f.lastDelta }

inductive LostReason where
  | missed | free | switch | standard
deriving DecidableEq, Repr

def LostReason.code : LostReason → Nat
  | .missed => 0 | .free => 1 | .switch => 2 | .standard => 3

/-- FIELD/LOST: the aligner after the event, the reason, the state left and the miss count (assumption
log 15). -/
def repFieldLost (f : Fal) (why : LostReason) (left : FieldState) (miss : Nat) : Report :=
  { w0 := 0x0304#16, w4 := fieldWord f, w5 := wordOfNat why.code, w6 := wordOfNat left.code,
    w7 := wordOfNat miss }

/-! ## Cue records as reports see them -/

def CueWords.kind (c : CueWords) : Nat := bits c.w0 0 8
def CueWords.tag (c : CueWords) : Word := c.w3
def CueWords.target (c : CueWords) : Stamp := BitVec.ofNat 24 (c.w1.toNat + 65536 * bits c.w2 0 8)
def CueWords.kindWord (c : CueWords) : Word := wordOfNat c.kind
def CueWords.targetLow (c : CueWords) : Word := c.w1
def CueWords.targetHigh (c : CueWords) : Word := wordOfNat (bits c.w2 0 8)

/-! ## CUE, WAITEND, MARK, HALT (R113, R114, R117, R119, R120, R182) -/

/-- CUE/LATE 0401h, CUE/SKIPPED 0402h, CUE/DONE 0404h: kind code and target stamp. -/
def repCue (w0 : Word) (c : CueWords) : Report :=
  { w0 := w0, tag := c.tag, w4 := c.kindWord, w5 := c.targetLow, w6 := c.targetHigh }

def repLate := repCue 0x0401#16
def repSkipped := repCue 0x0402#16
def repDone := repCue 0x0404#16

def loaderBank (k : Kbl) : Nat :=
  match k.load with
  | some r => r.bank.val
  | none => 0

def repDeferred (c : CueWords) (k : Kbl) : Report :=
  { w0 := 0x0403#16, tag := c.tag, w4 := c.kindWord, w5 := wordOfNat k.loader.code,
    w6 := wordOfNat (loaderBank k) }

/-- The wait count as a word; a free value beyond 65535 (assumption log 20). -/
def waitCountWord (n : Nat) : Word := if n < 65536 then wordOfNat n else Config.wideWaitCount n

def repWaitend (met : Bool) (r : WaitRecord) : Report :=
  { w0 := if met then 0x0501#16 else 0x0502#16, tag := r.copy.words.tag,
    w4 := wordOfNat (if r.cond = .line then 0 else 1), w5 := wordOfNat r.timeout,
    w6 := waitCountWord r.count }

/-- MARK: the subcode is the low byte of the value (R120). -/
def repMark (c : CueWords) : Report :=
  { w0 := wordOfNat (0x0600 + bits c.w4 0 8), tag := c.tag, w4 := c.w4 }

def repHaltRequested (c : CueWords) (take : Nat) : Report :=
  { w0 := 0x0700#16, tag := c.tag, w7 := wordOfNat take }

/-- HALT/LINK: source 0 RUN or 1 SETTINGS, and the first test failed (R82). -/
def repHaltLink (tag : Word) (settings : Bool) (test take : Nat) : Report :=
  { w0 := 0x0701#16, tag := tag, w4 := wordOfNat (bitOf settings), w5 := wordOfNat test,
    w7 := wordOfNat take }

def repHaltMemory (tag : Word) (path addr take : Nat) : Report :=
  { w0 := 0x0702#16, tag := tag, w4 := wordOfNat path, w5 := lowWord addr, w6 := highWord addr,
    w7 := wordOfNat take }

/-- HALT/BAD_CUE to HALT/BUSY: kind code, queue index or FFFFh, target stamp. -/
def repHaltFault (k : FaultKind) (c : CueWords) (index : Option Nat) : Report :=
  { w0 := wordOfNat (0x0703 + k.num), tag := c.tag, w4 := c.kindWord, w5 := indexWord index,
    w6 := c.targetLow, w7 := c.targetHigh }

/-! ## SWAP (R162) -/

def repSwapDone (r : LoadRecord) : Report :=
  { w0 := 0x0801#16, tag := r.tag, w4 := wordOfNat (r.bank.val + 256 * r.start),
    w5 := wordOfNat r.count, w6 := wordOfNat r.saturated, w7 := wordOfNat r.held }

def repSwapHeld (r : LoadRecord) (prot : Bool) (guardDepth : Option Nat) (level : Nat) : Report :=
  { w0 := 0x0802#16, tag := r.tag,
    w4 := wordOfNat (r.bank.val + 4 * bitOf prot + 8 * bitOf guardDepth.isSome + 16 * level),
    w5 := indexWord guardDepth }

def repSwapCancelled (cancel : Word) (r : LoadRecord) (ended : LoaderState) : Report :=
  { w0 := 0x0803#16, tag := cancel, w4 := wordOfNat (r.bank.val + 4 * bitOf (ended = .ready)),
    w5 := wordOfNat r.wordsRead, w6 := r.tag }

inductive AbortReason where
  | stop | memory | link
deriving DecidableEq, Repr

def AbortReason.code : AbortReason → Nat
  | .stop => 0 | .memory => 1 | .link => 2

def repSwapAborted (r : LoadRecord) (ended : LoaderState) (why : AbortReason) : Report :=
  { w0 := 0x0804#16, tag := r.tag,
    w4 := wordOfNat (r.bank.val + 4 * bitOf (ended = .ready) + 16 * why.code),
    w5 := wordOfNat r.wordsRead }

/-! ## WARN -/

def repWarnStandard (detected forced : Standard) (active : Input) : Report :=
  { w0 := 0x0901#16, w4 := wordOfNat detected.code, w5 := wordOfNat forced.code,
    w6 := wordOfNat (inputCode active) }

/-- WARN/INDEX: 0 TAKE, 1 PUT, 2 FILL, 3 GET (R84, R85, R86). -/
def repWarnIndex (tag : Word) (which value len : Nat) : Report :=
  { w0 := 0x0902#16, tag := tag, w4 := wordOfNat which, w5 := wordOfNat value, w6 := wordOfNat len }

def repWarnSetting (tag : Word) (code : Nat) (read adopted : Word) : Report :=
  { w0 := 0x0903#16, tag := tag, w4 := wordOfNat code, w5 := read, w6 := adopted }

def repWarnRange (tag : Word) (depth clamped read adopted : Nat) : Report :=
  { w0 := 0x0904#16, tag := tag, w4 := wordOfNat depth, w5 := wordOfNat clamped,
    w6 := wordOfNat read, w7 := wordOfNat adopted }

/-- WARN/STACK_OVER 0905h, WARN/STACK_UNDER 0906h (R130). -/
def repWarnStack (isOver : Bool) (c : CueWords) (depth : Nat) (slot : Fin 8) (found : Slot) : Report :=
  { w0 := if isOver then 0x0905#16 else 0x0906#16, tag := c.tag, w4 := c.kindWord,
    w5 := wordOfNat depth, w6 := wordOfNat slot.val, w7 := wordOfNat found.code }

/-- WARN/PROTECTED for the reason BANK (R161). -/
def repWarnBank (c : CueWords) (bank level : Nat) : Report :=
  { w0 := 0x0907#16, tag := c.tag, w4 := c.kindWord, w5 := 0, w6 := wordOfNat bank,
    w7 := wordOfNat level }

/-- WARN/PROTECTED for the reason LOCKDOWN: bit 0 TALLY, bit 1 the lockdown setting (R161). -/
def repWarnLockdown (c : CueWords) (tally lockdown : Bool) : Report :=
  { w0 := 0x0907#16, tag := c.tag, w4 := c.kindWord, w5 := 1,
    w6 := wordOfNat (bitOf tally + 2 * bitOf lockdown) }

/-- WARN/BAD_CUE: kind code, queue index or FFFFh, word number and value of the first bad field. -/
def repWarnBadCue (c : CueWords) (index : Option Nat) (word : Nat) (value : Word) : Report :=
  { w0 := 0x0908#16, tag := c.tag, w4 := c.kindWord, w5 := indexWord index, w6 := wordOfNat word,
    w7 := value }

/-! ## SNAP (R188) -/

def repSnapA (tag : Word) (take fill : Nat) (slots : Vector Slot 8) (masks : BitVec 7)
    (l : LoopState) (f : FieldState) (active : Input) (std : Standard) (lockdown : Bool) : Report :=
  { w0 := 0x0A01#16, tag := tag, w4 := wordOfNat take, w5 := wordOfNat fill, w6 := tagsWord slots,
    w7 := wordOfNat (masks.toNat + 256 * l.code + 2048 * f.code + 8192 * inputCode active
      + 16384 * std.code + 32768 * bitOf lockdown) }

/-- Two slot values in one word: slot 2k in bits 0 to 6, slot 2k + 1 in bits 8 to 14, a further bit in
bit 15. -/
def pairWord (low high top : Nat) : Word := wordOfNat (low + 256 * high + 32768 * top)

def repSnapB (tag : Word) (top : Nat) (v : Vector Nat 8) : Report :=
  { w0 := 0x0A02#16, tag := tag,
    w4 := pairWord v[0] v[1] (top % 2), w5 := pairWord v[2] v[3] (top / 2 % 2),
    w6 := pairWord v[4] v[5] (top / 4 % 2), w7 := pairWord v[6] v[7] 0 }

def repSnapC (tag : Word) (v : Vector Nat 8) (loader bank : Nat) : Report :=
  { w0 := 0x0A03#16, tag := tag,
    w4 := pairWord v[0] v[1] (loader % 2), w5 := pairWord v[2] v[3] (loader / 2 % 2),
    w6 := pairWord v[4] v[5] (bank % 2), w7 := pairWord v[6] v[7] (bank / 2 % 2) }

/-! ## TEST, FIELDSTAT, GAP (R193, R194, R174, R169) -/

def repTestField (excess accepted : Nat) : Report :=
  { w0 := 0x0B01#16, w4 := wordOfNat excess, w5 := wordOfNat accepted }

def repTestLocked (lockTime : Nat) : Report :=
  { w0 := 0x0B02#16, w4 := wordOfNat lockTime }

def repTestNolock (l : LoopState) (f : FieldState) : Report :=
  { w0 := 0x0B03#16, w4 := wordOfNat l.code, w5 := wordOfNat f.code }

/-- FIELDSTAT: ORDERED with one accepted line or more, else UNORDERED with −32768 in each figure. -/
def repFieldstat (f : FieldStats) : Report :=
  let w4 := wordOfNat (f.accepted % 256 + 256 * (f.coast % 256))
  let ext : Byte := BitVec.ofNat 8 (f.accepted / 256 % 2 + 2 * (f.coast / 256 % 2))
  match f.errors with
  | some e =>
    { w0 := 0x0C01#16, ext := ext, w4 := w4, w5 := wordOfInt e.least, w6 := wordOfInt e.greatest,
      w7 := wordOfInt (e.sum.tdiv f.accepted) }
  | none =>
    { w0 := 0x0C02#16, ext := ext, w4 := w4, w5 := 0x8000#16, w6 := 0x8000#16, w7 := 0x8000#16 }

/-- The GAP record of a gap part, with its closing stamp (R169). -/
def repGap (g : GapPart) : Report :=
  { w0 := if g.count = 65535 then 0x0D02#16 else 0x0D01#16, stamp := g.closing,
    w4 := wordOfNat g.count, w5 := lowWord g.first.toNat, w6 := highWord g.first.toNat }

/-- The eight words of a report record as written to memory (section 12.7, R198). -/
def Report.toWords (r : Report) : List Word :=
  [r.w0, lowWord r.stamp.toNat, wordOfNat (r.stamp.toNat / 65536 + 256 * r.ext.toNat), r.tag,
   r.w4, r.w5, r.w6, r.w7]

end Sys2Proof.Machine
end

