-- ==== Sys2Proof/Machine/Loop.lean ====
section
/-!
DEFINITION. LLL, the line lock loop (spec/02_the_line_lock_loop.md): measuring arrivals, evaluating a
line at its end, capture, holdover, and the events from outside the loop. Each operation answers the
loop's new state and the reports it produces, in order.
-/

namespace Sys2Proof.Machine

/-! ## The expected edge and the offset (R26) -/

/-- E = floor(ideal start / 16) + H_eff + C, modulo 2^36 (R26). -/
def Lll.expected (l : Lll) : Pu := Qu.pu l.ideal + BitVec.ofInt 36 (l.hEff + l.c)

/-- The signed difference of two edge times, modulo 2^36 (R1). -/
def signedDiff (x y : Pu) : Int := (x - y).toInt

/-- The offset of smaller magnitude, the first on a tie. -/
def nearer (x y : Int) : Int := if y.natAbs < x.natAbs then y else x

/-- The offset o of an edge from the nearest of the candidates E, E − floor(P/16) and
E + floor(P/16) (R26). -/
def Lll.offset (l : Lll) (edge : Pu) : Int :=
  let q : Pu := BitVec.ofNat 36 (l.p / 16)
  nearer (nearer (signedDiff edge l.expected) (signedDiff edge (l.expected - q)))
    (signedDiff edge (l.expected + q))

/-- The acceptance window in pu (R26). -/
def acceptWindow : Nat := 1024

/-- The line lies in the coast window (R27). -/
def Settings.inCoast (st : Settings) (line : Nat) : Bool :=
  if st.coastFirst = 0 || st.coastLast = 0 then false
  else if st.coastFirst ≤ st.coastLast then decide (st.coastFirst ≤ line ∧ line ≤ st.coastLast)
  else decide (st.coastFirst ≤ line ∨ line ≤ st.coastLast)

/-- A LINE arrival in TRACK or COAST: the first accepted arrival is the line's measurement, the first
stray the line's stray; settling lines and coast-window lines are skipped (R26, R27). -/
def Lll.measure (l : Lll) (st : Settings) (std : Standard) (line : Nat) (edge : Pu) : Lll :=
  if l.settling || st.inCoast line then l
  else
    let o := l.offset edge
    if o.natAbs ≤ acceptWindow then
      { l with accepted := if l.accepted.isSome then l.accepted else some o }
    else if o.natAbs ≤ std.quarter then
      { l with lineStray := if l.lineStray.isSome then l.lineStray else some o }
    else l

/-! ## Capture (R36 to R39) -/

/-- A LINE arrival in FREE or HOLDOVER opens a capture record (R36). -/
def Lll.openCapture (l : Lll) (origin : Origin) (edge : Pu) (tick : Tick) : Lll :=
  { l with
    loop := .capture
    capture := some { origin := origin, lastEdge := edge, lastTick := tick, first := none } }

/-- The first instant 16 × (edge − H_eff) + j × P, j from 0 upward, whose tick is later than `tick`
(R38). -/
def Lll.snapInstant (l : Lll) (p : Nat) (edge : Pu) (tick : Tick) : Qu :=
  let base : Qu := BitVec.ofInt 40 (16 * ((edge.toNat : Int) - l.hEff))
  let late : Int := (BitVec.ofNat 40 (256 * (tick.toNat + 1)) - base).toInt
  if late ≤ 0 then base
  else base + BitVec.ofNat 40 (((late.toNat + p - 1) / p) * p)

/-- The snap of a capture into TRACK (R38). -/
def Lll.snap (l : Lll) (std : Standard) (r : CaptureRecord) (d2 : Nat) (edge : Pu) (tick : Tick) :
    Lll × List Report :=
  let p := clampN (16 * d2) std.pMin std.pMax
  ({ l with
     loop := .track, p := p, nextIdeal := l.snapInstant p edge tick, settling := true, c := 0
     flywheel := 0, stray := none, pullLimit := false, holdover := 0, capture := none
     accepted := none, lineStray := none },
   [repAcquired p r.origin])

/-- A LINE arrival in CAPTURE (R37). -/
def Lll.captureArrival (l : Lll) (st : Settings) (std : Standard) (r : CaptureRecord) (edge : Pu)
    (tick : Tick) : Lll × List Report :=
  let d := (edge - r.lastEdge).toNat
  let keep (first : Option Nat) : Lll × List Report :=
    ({ l with capture := some { r with lastEdge := edge, lastTick := tick, first := first } }, [])
  if d < std.pMin / 16 || std.pMax / 16 < d then keep none
  else
    match r.first with
    | none => keep (some d)
    | some d1 =>
      if ((d : Int) - d1).natAbs ≤ st.captureTol then l.snap std r d edge tick else keep (some d)

/-- LLL handles a line-sync arrival according to its state (R26, R36, R37). -/
def Lll.arrive (l : Lll) (st : Settings) (std : Standard) (line : Nat) (edge : Pu) (tick : Tick) :
    Lll × List Report :=
  match l.loop with
  | .free => (l.openCapture .free edge tick, [])
  | .holdover => (l.openCapture .holdover edge tick, [])
  | .track => (l.measure st std line edge, [])
  | .coast => (l.measure st std line edge, [])
  | .capture =>
    match l.capture with
    | some r => l.captureArrival st std r edge tick
    | none => (l, [])

/-- The tick at which a capture is abandoned: floor(P_max / 256) after the last arrival tick (R39). -/
def CaptureRecord.abandonAt (r : CaptureRecord) (std : Standard) : Tick :=
  r.lastTick + BitVec.ofNat 32 (std.pMax / 256)

/-- Abandonment closes the record and returns to the origin state (R39). -/
def Lll.abandon (l : Lll) (r : CaptureRecord) : Lll :=
  { l with
    loop := match r.origin with | .free => .free | .holdover => .holdover
    capture := none }

/-! ## The end of a line (R23, R24, R28 to R35) -/

/-- How a line end leaves the loop: the reports, the Len of the following line, the phase error
offered to the test unit (R32), and whether the loop entered HOLDOVER at this line end (R40). -/
structure LineEval where
  lll     : Lll
  reports : List Report := []
  len     : Nat
  offer   : Option Int := none
  entered : Bool := false

/-- Field statistics with one more accepted line of error `e` (R28, R32). -/
def FieldStats.addError (f : FieldStats) (e : Int) : FieldStats :=
  { f with
    accepted := f.accepted + 1
    errors := match f.errors with
      | none => some ⟨e, e, e⟩
      | some x => some ⟨min x.least e, max x.greatest e, x.sum + e⟩ }

/-- Field statistics with one more coast line. -/
def FieldStats.addCoast (f : FieldStats) : FieldStats := { f with coast := f.coast + 1 }

/-- The stray record after a line with no accepted pulse, and the step offset if a phase step is
found (R33). -/
def applyStray (tol : Nat) (r : Option StrayRecord) (stray : Option Int) :
    Option StrayRecord × Option Int :=
  match stray, r with
  | none, _ => (none, none)
  | some o, none => (some ⟨1, o⟩, none)
  | some o, some x =>
    if (o - x.last).natAbs ≤ tol then
      if x.count + 1 = 3 then (none, some o) else (some ⟨x.count + 1, o⟩, none)
    else (some ⟨1, o⟩, none)

/-- A line with an accepted pulse of error `e` (R28, R29, R30). -/
def Lll.evalAccepted (l : Lll) (st : Settings) (std : Standard) (e : Int) : LineEval :=
  let x := 16 * e
  let raw : Int := l.p + roundDiv x st.ki
  let p := (clampI raw std.pMin std.pMax).toNat
  let upper := decide ((std.pMax : Int) < raw)
  let acts := upper || decide (raw < std.pMin)
  let len := (clampI (p + roundDiv x st.kp) std.lenMin std.lenMax).toNat
  { lll := { l with
      loop := .track, p := p, lastE := e, stray := none, flywheel := 0, pullLimit := acts
      stats := l.stats.addError e }
    reports := if acts && !l.pullLimit then [repPullLimit p upper e] else []
    len := len
    offer := some e }

/-- A phase step of offset `o` (R34, R35). -/
def Lll.evalStep (l : Lll) (st : Settings) (std : Standard) (o : Int) : LineEval :=
  match st.stepMode with
  | .slew =>
    let c := clampI (l.c + o) (-(std.half : Int)) std.half
    { lll := { l with loop := .track, flywheel := 0, stray := none, c := c }
      reports := [repStep .slew o c]
      len := l.p }
  | .snap =>
    { lll := { l with loop := .track, flywheel := 0, stray := none, settling := true }
      reports := [repStep .snap o 0]
      len := ((l.p : Int) + 16 * o).toNat }

/-- A line with no accepted pulse and no step: COAST, and the flywheel count advances (R28, R31). -/
def Lll.evalCoast (l : Lll) (st : Settings) (stray : Option StrayRecord) : LineEval :=
  if st.flyLimit ≤ l.flywheel + 1 then
    { lll := { l with
        loop := .holdover, stray := none, flywheel := 0, holdover := 0, stats := l.stats.addCoast }
      reports := [repHoldover l.p false l.lastE]
      len := l.p
      entered := true }
  else
    { lll := { l with
        loop := .coast, stray := stray, flywheel := l.flywheel + 1, stats := l.stats.addCoast }
      len := l.p }

/-- LLL's evaluation of the line that has just ended (R24, R28). A settling line inside the coast window is
evaluated as a settling line, where R28 gives both: the model's choice (DESIGN CHOICE, assumption log 43). -/
def Lll.evaluate (l : Lll) (st : Settings) (std : Standard) (line : Nat) : LineEval :=
  match l.loop with
  | .free => { lll := l, len := std.nominal }
  | .capture => { lll := l, len := l.p }
  | .holdover => { lll := l, len := l.p }
  | _ =>
    if l.settling then { lll := { l with settling := false }, len := l.p }
    else if st.inCoast line then
      { lll := { l with loop := .coast, stats := l.stats.addCoast }, len := l.p }
    else
      match l.accepted with
      | some e => l.evalAccepted st std e
      | none =>
        match applyStray st.captureTol l.stray l.lineStray with
        | (_, some o) => l.evalStep st std o
        | (r, none) => l.evalCoast st r

/-- The grid moves on one line: the next ideal start becomes the ideal start, and `len` is added to
it (R23); H_eff and C take one slew step (R25); the new line has no measurement yet. -/
def Lll.advance (l : Lll) (st : Settings) (len : Nat) : Lll :=
  { l with
    ideal := l.nextIdeal
    nextIdeal := l.nextIdeal + BitVec.ofNat 40 len
    hEff := moveToward l.hEff l.hTarget st.slew
    c := moveToward l.c 0 st.slew
    accepted := none
    lineStray := none }

/-! ## Holdover and events from outside the loop (R40 to R43) -/

/-- Holdover expiry (R41). -/
def Lll.expire (l : Lll) (std : Standard) : Lll × List Report :=
  ({ l with
     p := std.nominal, holdover := 0, stray := none
     loop := if l.loop = .holdover then .free else l.loop
     capture := l.capture.map (fun c => { c with origin := .free }) },
   [repFree std.nominal false])

/-- A change of active input, or TST's source notice, reaches LLL (R42, R190). -/
def Lll.switch (l : Lll) : Lll × List Report :=
  match l.loop with
  | .free => (l, [])
  | .holdover => ({ l with holdover := 0 }, [])
  | _ =>
    ({ l with
       loop := .holdover, holdover := 0, capture := none, flywheel := 0, stray := none
       settling := false, accepted := none, lineStray := none },
     [repHoldover l.p true l.lastE])

/-- A change of the working standard to `std` reaches LLL (R43). -/
def Lll.standard (l : Lll) (std : Standard) : Lll × List Report :=
  let lim : Int := std.half
  ({ l with
     loop := .free, p := std.nominal
     hTarget := clampI l.hTarget (-lim) lim, hEff := clampI l.hEff (-lim) lim, c := clampI l.c (-lim) lim
     capture := none, flywheel := 0, stray := none, settling := false, holdover := 0
     pullLimit := false, accepted := none, lineStray := none },
   if l.loop = .free then [] else [repFree std.nominal true])

/-- LLL's soft reset, under the strap standard (R22). -/
def Lll.softReset (l : Lll) (std : Standard) : Lll :=
  { p := std.nominal, ideal := l.ideal, nextIdeal := l.nextIdeal }

/-- Set the loop and hand its reports on. -/
def State.withLoop (s : State) (r : Lll × List Report) : State :=
  produceAll r.2 { s with lll := r.1 }

end Sys2Proof.Machine
end

