-- ==== Sys2Proof/Machine/Align.lean ====
section
/-!
DEFINITION. FAL, the field aligner (spec/03_field_alignment_and_the_field_stamp.md): broad pulses and
reference field starts, misalignment, pending shifts and field lengths, the miss check, and entry to
F_SEEK.
-/

namespace Sys2Proof.Machine

/-- The generated field in progress as FAL works against it (R49, R51): standard, parity, length as
currently set, number of the line in progress, and the settings V offset and vertical mode. -/
structure FieldCtx where
  std     : Standard
  parity  : Parity
  length  : Nat
  line    : Nat
  vOffset : Nat
  vert    : VertMode

/-- The field in progress as FAL sees it at a start (R49, R51). Its standard length is that of the working
standard of the moment, at once after a change during the field, which is the model's choice (DESIGN CHOICE,
assumption log 40). -/
def State.fieldCtx (s : State) : FieldCtx :=
  { std := s.rfe.working, parity := s.tgn.parity, length := s.tgn.length, line := s.tgn.line,
    vOffset := s.cue.settings.vOffset, vert := s.cue.settings.vertMode }

/-- What a start does: the aligner, the length of the field in progress, and the reports. -/
structure AlignResult where
  fal     : Fal
  length  : Nat
  reports : List Report := []

/-! ## Placement on the generated grid (R47) -/

/-- The broad record a pulse with this leading edge opens, count 1 (R47). -/
def BroadRecord.place (l : Lll) (std : Standard) (line : Nat) (edge : Pu) : BroadRecord :=
  let r := signedDiff edge l.expected
  let q : Int := std.quarter
  let lp : Int := ((l.p / 16 : Nat) : Int)
  let n := (r + q) / lp
  let resid := r - n * lp
  { first := edge, anchor := (line : Int) + n - 1, parity := if resid ≤ q then .one else .two, count := 1 }

/-- What a BROAD arrival does to the broad record (R46): the record after it and, when the third pulse
detects a reference field start, the record of its first pulse. -/
inductive BroadStep where
  | ignored
  | opened
  | counted
  | detected (r : BroadRecord)

/-- R46's table: lockout, open, count, restart. -/
def Fal.broadStep (f : Fal) (l : Lll) (edge : Pu) : BroadStep :=
  let lp := l.p / 16
  if f.lockout.any (fun t => decide ((edge - t).toNat < 16 * lp)) then .ignored
  else
    match f.broad with
    | none => .opened
    | some r =>
      if (edge - r.first).toNat ≤ 3 * lp then
        (if r.count + 1 = 3 then .detected r else .counted)
      else .opened

/-! ## Misalignment (R49) -/

/-- x taken modulo `f` and brought to at most `hi` by subtracting `f` from a result above it. -/
def wrapTo (x : Int) (f : Nat) (hi : Int) : Int :=
  let m := x % f
  if hi < m then m - f else m

/-- The aligned position g of a start (R48). -/
def BroadRecord.aligned (r : BroadRecord) (c : FieldCtx) : Int :=
  r.anchor + c.vOffset + (if r.parity = .two then 1 else 0)

/-- Δ: the lines by which the end of the field in progress must move (R49). -/
def FieldCtx.misalignment (c : FieldCtx) (start : Parity) (g : Int) : Int :=
  let raw : Int := if start = c.parity then g + c.std.fieldLines c.parity - c.length else g - c.length
  wrapTo raw c.std.frame (((c.std.frame - 1) / 2 : Nat) : Int)

/-- The start's parity is that of the generated field that begins at the nearer boundary (R49). -/
def FieldCtx.agrees (c : FieldCtx) (start : Parity) (g : Int) : Bool :=
  if g ≤ ((c.length / 2 : Nat) : Int) then decide (start = c.parity) else decide (start ≠ c.parity)

/-! ## Applying a shift (R51) -/

/-- A length is allowed for the field in progress: from the greater of 20 and the line in progress up
to its standard length plus 16. -/
def FieldCtx.allows (c : FieldCtx) (len : Int) : Bool :=
  decide (((max 20 c.line : Nat) : Int) ≤ len ∧ len ≤ ((c.std.fieldLines c.parity + 16 : Nat) : Int))

/-- A new shift and its kind replace the pending shift and are applied at once to the field in
progress (R51). -/
def Fal.applyShift (f : Fal) (c : FieldCtx) (s : Int) (k : ShiftKind) : AlignResult :=
  let move : Int := match k with
    | .whole => s
    | .slip => if 0 < s then 1 else -1
  if c.allows (c.length + move) then
    { fal := { f with shift := s - move, kind := k }, length := ((c.length : Int) + move).toNat }
  else { fal := { f with shift := s, kind := k }, length := c.length }

/-! ## Handling a start (R52 to R54) -/

/-- A start with Δ, agreement `ag`, handled in F_ALIGN (R53). -/
def Fal.handleAlign (f : Fal) (c : FieldCtx) (d : Int) (ag : Bool) : AlignResult :=
  if d = 0 then
    let f' := { f with shift := 0, field := .lock, miss := 0 }
    { fal := f', length := c.length, reports := [repFieldLocked f' c.parity c.vOffset] }
  else if (d - f.shift) % c.std.frame = 0 then { fal := f, length := c.length }
  else if ag && decide (c.vert = .slip) then f.applyShift c d .slip
  else f.applyShift c (wrapTo d c.std.frame 16) .whole

/-- A start handled in F_LOCK (R54). -/
def Fal.handleLock (f : Fal) (c : FieldCtx) (d : Int) (ag : Bool) : AlignResult :=
  if d = 0 then { fal := { f with shift := 0 }, length := c.length }
  else if (d - f.shift) % c.std.frame = 0 then { fal := f, length := c.length }
  else if ag && decide (d.natAbs ≤ 8) then
    let r := f.applyShift c d .whole
    { r with reports := [repFieldAdjust r.fal d (if r.fal.shift = 0 then some r.length else none)] }
  else
    let f' := { f with field := .align, miss := 0 }
    let r := f'.handleAlign c d ag
    { r with reports := repFieldRealign f' (if ag then .distance else .parity) :: r.reports }

/-- A start that FAL acts on (R48, R49, R52 to R54). -/
def Fal.handleStart (f : Fal) (c : FieldCtx) (r : BroadRecord) : AlignResult :=
  let g := r.aligned c
  let d := c.misalignment r.parity g
  let ag := c.agrees r.parity g
  let f1 := { f with lastParity := some r.parity, startSeen := true, lastDelta := d }
  match f.field with
  | .seek => ({ f1 with field := .align, miss := 0 } : Fal).handleAlign c d ag
  | .align => f1.handleAlign c d ag
  | .lock => f1.handleLock c d ag

/-- A BROAD arrival reaches FAL (R46 to R48, R52 to R54). -/
def broadArrival (edge : Pu) (s : State) : State :=
  let placed := BroadRecord.place s.lll s.rfe.working s.tgn.line edge
  match s.fal.broadStep s.lll edge with
  | .ignored => s
  | .opened => { s with fal := { s.fal with broad := some placed } }
  | .counted => { s with fal := { s.fal with broad := s.fal.broad.map (fun r => { r with count := r.count + 1 }) } }
  | .detected r =>
    let f := { s.fal with broad := none, lockout := some r.first }
    if s.lll.locked then
      let a := f.handleStart s.fieldCtx r
      produceAll a.reports { s with fal := a.fal, tgn := { s.tgn with length := a.length } }
    else { s with fal := f }

/-! ## Field lengths at a boundary (R47, R50) -/

/-- The length of the field that begins, of parity `q`, and the pending shift after (R50). -/
def Fal.nextLength (f : Fal) (std : Standard) (q : Parity) (holdover : Bool) : Nat × Int :=
  let lq := std.fieldLines q
  if f.field = .seek || f.shift = 0 then (lq, 0)
  else if holdover then (lq, f.shift)
  else
    match f.kind with
    | .whole =>
      let len := (max 20 ((lq : Int) + f.shift)).toNat
      (len, f.shift - ((len : Int) - lq))
    | .slip => if 0 < f.shift then (lq + 1, f.shift - 1) else (lq - 1, f.shift + 1)

/-- FAL's boundary work: the anchor position is counted from the new field (R47), and the length of the
field that begins is set (R50). -/
def falBoundary (s : State) : State :=
  let ended := s.tgn.length
  let r := s.fal.nextLength s.rfe.working s.tgn.parity s.lll.inHoldover
  { s with
    fal := { s.fal with
      shift := r.2
      broad := s.fal.broad.map (fun b => { b with anchor := b.anchor - ended }) }
    tgn := { s.tgn with length := r.1 } }

/-! ## Entry to F_SEEK (R55, R56) and a change of V offset (R58) -/

/-- Entry to F_SEEK for a reason, with FIELD/LOST if FAL was in F_ALIGN or F_LOCK; an input switch and
a standard change also empty the broad record and end the lockout (R46, R56). -/
def Fal.enterSeek (f : Fal) (why : LostReason) : Fal × List Report :=
  let f1 := { f with field := .seek, shift := 0, miss := 0, startSeen := false }
  let f2 := if why = .switch || why = .standard then { f1 with broad := none, lockout := none } else f1
  (f2, if f.field = .seek then [] else [repFieldLost f2 why f.field f.miss])

def falSeek (why : LostReason) (s : State) : State :=
  let r := s.fal.enterSeek why
  produceAll r.2 { s with fal := r.1 }

/-- The fourth miss would be counted at this check (R55). -/
def Fal.fourthMiss (f : Fal) (holdover : Bool) : Bool :=
  decide (f.field ≠ .seek) && !holdover && !f.startSeen && decide (4 ≤ f.miss + 1)

/-- FAL's miss check at the end of line 16 (R55). -/
def missCheck (s : State) : State :=
  if s.fal.field = .seek then s
  else if s.lll.inHoldover then { s with fal := { s.fal with startSeen := false } }
  else if s.fal.startSeen then { s with fal := { s.fal with miss := 0, startSeen := false } }
  else if 4 ≤ s.fal.miss + 1 then falSeek .missed { s with fal := { s.fal with miss := s.fal.miss + 1 } }
  else { s with fal := { s.fal with miss := s.fal.miss + 1 } }

/-- The working V offset has changed from `old` (R58). -/
def vOffsetChange (old : Nat) (s : State) : State :=
  if s.cue.settings.vOffset ≠ old && decide (s.fal.field = .lock) then
    let f := { s.fal with field := .align, miss := 0 }
    produce (repFieldRealign f .vOffset) { s with fal := f }
  else s

end Sys2Proof.Machine
end

