-- ==== Sys2Proof/Machine/Front.lean ====
section
/-!
DEFINITION. RFE, the reference front end (spec/01_reference_inputs_and_sync_separation.md), and how its
events reach LLL, FAL and TST.
-/

namespace Sys2Proof.Machine

/-! ## Arrivals (R7, R191, R192, R194) -/

/-- TST watches for strict lock while the lock-time record is open: TEST/LOCKED at the event at which it
first holds (R194), behind the LOCK or FIELD report of that event: the model's choice (DESIGN CHOICE, assumption
log 54). -/
def tstWatch (s : State) : State :=
  match s.tst.lockTime with
  | some entry =>
    if s.strictLock then
      produce (repTestLocked (s.tgn.stamp - entry).toNat) { s with tst := { s.tst with lockTime := none } }
    else s
  | none => s

/-- A line-sync arrival is handed to LLL (R7, R26). -/
def lineArrival (edge : Pu) (tick : Tick) (s : State) : State :=
  tstWatch (s.withLoop (s.lll.arrive s.cue.settings s.rfe.working s.tgn.line edge tick))

/-- A broad-pulse arrival is handed to FAL (R7, R46). -/
def broadPulse (edge : Pu) (s : State) : State := tstWatch (broadArrival edge s)

/-! ## Slicer and classifier (R2 to R5) -/

/-- The levels after a measurement of tip and blank (R2). -/
def Slicer.update (x : Slicer) (tip blank : Int) : Slicer :=
  let t := x.t + asr (tip - x.t) 3
  let b := x.b + asr (blank - x.b) 3
  let a := b - t
  { t := t, b := b, a := a, s := t + asr a 1 }

/-- The blank level: the truncated mean of eight samples (R2). -/
def blankMean (xs : List Byte) : Int := (((xs.map (fun x => x.toNat)).sum / 8 : Nat) : Int)

/-- A slicer restart on one input (R3). -/
def RefInput.restart (r : RefInput) : RefInput :=
  { r with slicer := { t := 0, b := 255, a := 255, s := 127 }, classifier := .disarmed, measure := none }

/-- A slicer restart, applied to both inputs together (R3). -/
def slicerRestart (s : State) : State :=
  { s with rfe := { s.rfe with inA := s.rfe.inA.restart, inB := s.rfe.inB.restart } }

/-- A sample is above the slice level. -/
def RefInput.above (r : RefInput) (x : Byte) : Bool := decide (r.slicer.s < (x.toNat : Int))

/-- frac = floor(16 (s0 − S) / (s0 − s1)), and 16 when s1 equals S (R4). Where S has been raised so far
past `s0` that the formula leaves R4's 0..16, or divides by 0, it is a free value in that range, which is the
model's choice (DESIGN CHOICE, assumption log 39). -/
def edgeFrac (level : Int) (s0 s1 : Byte) : Nat :=
  let frac : Int := (16 * ((s0.toNat : Int) - level)).fdiv ((s0.toNat : Int) - s1.toNat)
  if level = (s1.toNat : Int) then 16
  else if s0 ≠ s1 ∧ 0 ≤ frac ∧ frac ≤ 16 then frac.toNat
  else Config.edgeFraction level s0 s1 % 17

/-- The leading-edge time 16 t + frac (R4). -/
def leadingEdgeTime (level : Int) (t : Tick) (s0 s1 : Byte) : Pu :=
  BitVec.ofNat 36 (16 * t.toNat + edgeFrac level s0 s1)

/-- The pulse classes (R5). -/
inductive PulseClass where
  | equalising | line | broad | noise
deriving DecidableEq, Repr

/-- The class of a width in ticks (R5). -/
def pulseClass (width : Nat) : PulseClass :=
  if 40 ≤ width ∧ width ≤ 127 then .equalising
  else if 128 ≤ width ∧ width ≤ 255 then .line
  else if 600 ≤ width ∧ width ≤ 1500 then .broad
  else .noise

/-- A pulse's width: its trailing-edge tick minus floor(leading edge / 16) (R5). -/
def pulseWidth (edge : Pu) (u : Tick) : Nat := (u - Pu.tick edge).toNat

/-- A LINE pulse is counted and timed for its presence window (R8). -/
def RefInput.countLine (r : RefInput) (edge : Pu) : RefInput :=
  let sp : Option Nat := r.lastEdge.map (fun last => (edge - last).toNat / 16)
  let good : Option Nat := sp.filter (fun d => decide (2200 ≤ d ∧ d ≤ 2400))
  { r with
    lineCount := satSucc 65535 r.lineCount
    spacingCount := r.spacingCount + bitOf good.isSome
    spacingSum := r.spacingSum + good.getD 0
    lastEdge := some edge }

/-! ## Changes of active input and working standard (R6, R13 to R17) -/

/-- LLL and FAL are told that the source of their arrivals has changed (R17, R42, R56, R190). -/
def sourceNotice (s : State) : State := falSeek .switch (s.withLoop s.lll.switch)

/-- A change of active input (R17). -/
def changeActive (i : Input) (why : SwitchReason) (s : State) : State :=
  let rfe := { s.rfe with active := i, differ := 0, warned := false }
  sourceNotice (latch .inputChange (produce (repInputSwitched rfe why) { s with rfe := rfe }))

/-- A change of the working standard: LOCK/STANDARD, then LLL, then FAL (R6, R43, R56). -/
def changeStandard (d : Standard) (forced : Bool) (s : State) : State :=
  let s1 := produce (repStandard d s.rfe.active forced) { s with rfe := { s.rfe with working := d } }
  falSeek .standard (s1.withLoop (s1.lll.standard d))

/-- The arrival of an input policy, `old` being the one in force (R16). -/
def policyArrival (old new : Policy) (s : State) : State :=
  if new = old then s
  else
    match new with
    | .auto => { s with rfe := { s.rfe with absence := 0 } }
    | .named i => if s.rfe.active = i then s else changeActive i .select s

/-- A load of a standard mode, `old` being the one in force (R13, R14). -/
def stdModeLoad (old new : StdMode) (s : State) : State :=
  if new = old then s
  else
    let s1 := { s with rfe := { s.rfe with differ := 0, warned := false } }
    match new with
    | .auto => s1
    | .force d => if s1.rfe.working = d then s1 else changeStandard d true s1

/-! ## The presence window (R8 to R15) -/

/-- The detected standard of an input's spacings (R12). -/
def detectStandard (count sum : Nat) : Option Standard :=
  if count < 100 then none
  else if 2298 ≤ sum / count ∧ sum / count ≤ 2310 then some .s625
  else if 2282 ≤ sum / count ∧ sum / count ≤ 2294 then some .s525
  else none

/-- The presence judgement (R10). -/
def RefInput.judge (r : RefInput) (floor : Nat) : Bool :=
  decide (200 ≤ r.lineCount ∧ (floor : Int) ≤ r.slicer.a)

/-- Step 1 of a window end for one input: presence, detected standard, counts restarted (R9). -/
def RefInput.window (r : RefInput) (floor : Nat) : RefInput :=
  { r with
    present := r.judge floor
    detected := detectStandard r.spacingCount r.spacingSum
    lineCount := 0
    spacingCount := 0
    spacingSum := 0 }

/-- INPUT/LOST for an input: the loss latch is set, and cleared if the record is accepted (R11). -/
def produceLost (i : Input) (s : State) : State :=
  let ok := s.rpw.accepts
  let s1 := produce (repInputLost s.rfe i) s
  s1.setInput i { s1.input i with lossLatch := !ok }

/-- Step 2 of a window end for one input: the loss-latch retry, then the report of a presence change
from `was` (R9, R10, R11). -/
def windowReports (i : Input) (was : Bool) (s : State) : State :=
  let s1 := if (s.input i).lossLatch then produceLost i s else s
  if (s1.input i).present = was then s1
  else if was then latch .inputChange (produceLost i s1)
  else latch .inputChange (produce (repInputPresent s1.rfe i) s1)

/-- Step 3 of a window end: the input policy (R15). -/
def windowPolicy (s : State) : State :=
  match s.cue.settings.policy with
  | .named _ => s
  | .auto =>
    if (s.input s.rfe.active).present then { s with rfe := { s.rfe with absence := 0 } }
    else
      let n := satSucc 15 s.rfe.absence
      if decide (s.cue.settings.switchWin ≤ n) && (s.input (otherInput s.rfe.active)).present then
        changeActive (otherInput s.rfe.active) .auto { s with rfe := { s.rfe with absence := 0 } }
      else { s with rfe := { s.rfe with absence := n } }

/-- Step 4 of a window end: the working standard (R13, R14). -/
def windowStandard (s : State) : State :=
  let det := (s.input s.rfe.active).detected
  match s.cue.settings.stdMode with
  | .auto =>
    match det with
    | none => { s with rfe := { s.rfe with differ := 0 } }
    | some d =>
      if d = s.rfe.working then { s with rfe := { s.rfe with differ := 0 } }
      else if 2 ≤ s.rfe.differ + 1 then
        changeStandard d false { s with rfe := { s.rfe with differ := 0 } }
      else { s with rfe := { s.rfe with differ := s.rfe.differ + 1 } }
  | .force f =>
    match det with
    | none => s
    | some d =>
      if d = f then { s with rfe := { s.rfe with warned := false } }
      else if s.rfe.warned then s
      else produce (repWarnStandard d f s.rfe.active) { s with rfe := { s.rfe with warned := true } }

/-- Steps 1 of R9 for both inputs. -/
def windowJudge (s : State) : State :=
  let fl := s.cue.settings.floor
  { s with rfe := { s.rfe with inA := s.rfe.inA.window fl, inB := s.rfe.inB.window fl } }

/-- The work of a presence window end, in R9's order. -/
def windowWork (s : State) : State :=
  let s1 := windowJudge s
  let s2 := windowReports .a s.rfe.inA.present s1
  let s3 := windowReports .b s.rfe.inB.present s2
  windowStandard (windowPolicy s3)

end Sys2Proof.Machine
end

