-- ==== Sys2Proof/Machine/Windows.lean ====
section
/-!
DEFINITION. WSK, the window stack and key generator (spec/07_the_window_stack_and_key_generation.md):
slots and depths, the eight window cues on the stack, fade steps, and the key level of a dot.
-/

namespace Sys2Proof.Machine

/-! ## Slots and depths (R127, R128) -/

/-- The window a slot holds, whatever its tag. -/
def Slot.window : Slot → Option Window
  | .empty => none
  | .parked w => some w
  | .live w => some w

/-- The slot with its window changed and its tag kept. -/
def Slot.update (f : Window → Window) : Slot → Slot
  | .empty => .empty
  | .parked w => .parked (f w)
  | .live w => .live (f w)

def Slot.isEmpty : Slot → Bool
  | .empty => true
  | _ => false

/-- The number of the slot at depth i: (TOP + i) mod 8 (R128). -/
def Stack.at (st : Stack) (i : Fin 8) : Fin 8 := st.top + i

/-- The slot at depth i. -/
def Stack.slot (st : Stack) (i : Fin 8) : Slot := st.slots[st.at i]

/-- The stack with the slot at depth i replaced. -/
def Stack.put (st : Stack) (i : Fin 8) (x : Slot) : Stack :=
  { st with slots := st.slots.set (st.at i) x }

/-! ## Fade steps (R138, R139) -/

/-- One fade step: step = (t − f) / m truncated toward zero, f + step, m − 1; nothing when m is 0
(R138). -/
def Window.fadeStep (w : Window) : Window :=
  if w.steps = 0 then w
  else
    { w with
      fade := ((w.fade : Int) + ((w.target : Int) - w.fade).tdiv w.steps).toNat
      steps := w.steps - 1 }

/-- The window after its step for the boundary that begins the field `stamp`, taken if it has not yet
been taken (R139). -/
def Window.stepFor (stamp : Stamp) (w : Window) : Window :=
  if w.mark = stamp then w else { w.fadeStep with mark := stamp }

/-- WSK's boundary work on the stack: every window not yet stepped takes its step (R139). -/
def Stack.stepAll (stamp : Stamp) (st : Stack) : Stack :=
  { st with slots := Vector.ofFn (fun i => (st.slots[i]).update (Window.stepFor stamp)) }

/-! ## The window cues on the stack (R131 to R137) -/

/-- PUSH: TOP goes down by 1 and the slot there receives the window (R131). -/
def Stack.push (st : Stack) (w : Window) (live : Bool) : Stack :=
  let at_ : Fin 8 := st.top - 1
  { slots := st.slots.set at_ (if live then .live w else .parked w), top := at_ }

/-- POP: the slot at depth 0 is emptied and TOP goes up by 1 (R132). -/
def Stack.pop (st : Stack) : Stack :=
  { slots := st.slots.set st.top .empty, top := st.top + 1 }

/-- EXCH: the slots at depth 0 and depth i exchange tags and records (R133). -/
def Stack.exch (st : Stack) (i : Fin 8) : Stack := (st.put 0 (st.slot i)).put i (st.slot 0)

/-- DROP: the slot at depth i is emptied, TOP unchanged (R134). -/
def Stack.drop (st : Stack) (i : Fin 8) : Stack := st.put i .empty

/-- SHOW: the slot at depth i is tagged LIVE (R136). -/
def Stack.show_ (st : Stack) (i : Fin 8) : Stack :=
  match (st.slot i).window with
  | some w => st.put i (.live w)
  | none => st

/-- PARK: the slot at depth i is tagged PARKED (R136). -/
def Stack.park (st : Stack) (i : Fin 8) : Stack :=
  match (st.slot i).window with
  | some w => st.put i (.parked w)
  | none => st

/-- The editable fields of a window (R135). -/
inductive EditField where
  | top | bottom | left | right | mode | bank
deriving DecidableEq, Repr

/-- The window mode of a code (spec/12_formats.md section 12.1). -/
def winMode (n : Nat) : WinMode := if n = 0 then .index else if n = 1 then .full else .punch

/-- Store a value in one field (R135). -/
def Window.store (w : Window) (f : EditField) (v : Nat) : Window :=
  match f with
  | .top => { w with top := v }
  | .bottom => { w with bottom := v }
  | .left => { w with left := v }
  | .right => { w with right := v }
  | .mode => { w with mode := winMode v }
  | .bank => { w with bank := Fin.ofNat 4 v }

/-- EDIT: this boundary's step first, then the value, then the end of any fade in progress (R135). -/
def Window.edit (stamp : Stamp) (f : EditField) (v : Nat) (w : Window) : Window :=
  let w1 := (w.stepFor stamp).store f v
  { w1 with target := w1.fade, steps := 0 }

/-- FADE: this boundary's step first, then the new target and length, marked (R137). -/
def Window.startFade (stamp : Stamp) (target steps : Nat) (w : Window) : Window :=
  { w.stepFor stamp with target := target, steps := steps, mark := stamp }

/-- The slot at depth i with its window changed and its tag kept. -/
def Stack.onWindow (st : Stack) (i : Fin 8) (f : Window → Window) : Stack :=
  st.put i ((st.slot i).update f)

/-! ## Geometry (R129) -/

/-- A line number brought to the nearest line of the picture. -/
def clampLine (lMax v : Nat) : Nat := clampN v 1 lMax

/-- A dot number brought to the nearest dot of the picture. -/
def clampDot (dots v : Nat) : Nat := if dots - 1 < v then dots - 1 else v

/-! ## The key level of a dot (R141 to R148) -/

/-- The window covers the dot x of line L (R142). -/
def Window.covers (w : Window) (line x : Nat) : Bool :=
  decide (w.top ≤ line ∧ line ≤ w.bottom ∧ w.left ≤ x ∧ x ≤ w.right)

/-- The window that keys at depth i for the dot, if the search does not pass over it (R142). -/
def Stack.keyedAt (st : Stack) (line x : Nat) (i : Fin 8) : Option Window :=
  match st.slot i with
  | .live w => if decide (0 < w.fade) && w.covers line x then some w else none
  | _ => none

/-- The depths from the top down. -/
def depths : List (Fin 8) := [0, 1, 2, 3, 4, 5, 6, 7]

/-- The window search: the first slot not passed over, from depth 0 down to 7 (R142). -/
def Stack.search (st : Stack) (line x : Nat) : Option Window :=
  depths.findSome? (st.keyedAt line x)

/-- (k × f + 32) arithmetic-shifted right by 6 (R143). -/
def keyScale (k f : Nat) : Nat := (k * f + 32) / 64

/-- The level a window gives at a colour index (R143, R144). -/
def Window.level (w : Window) (banks : Vector Bank 4) (index : Byte) : Nat :=
  match w.mode with
  | .index => keyScale ((banks[w.bank])[index.toFin]) w.fade
  | .full => keyScale 64 w.fade
  | .punch => 0

/-- The level of a dot by the window search; 0 when every depth is passed over (R142). -/
def Stack.level (st : Stack) (banks : Vector Bank 4) (line x : Nat) (index : Byte) : Nat :=
  match st.search line x with
  | some w => w.level banks index
  | none => 0

/-- The level of a band (R148). -/
def bandLevel (band : Nat) : Nat := [0, 9, 18, 27, 37, 46, 55, 64].getD band 64

/-- The level of dot x in BARS: its band is floor(8 x / D) (R148). -/
def barsLevel (dots x : Nat) : Nat := bandLevel (8 * x / dots)

/-- A window on air: LIVE with fade above 0 (R146). -/
def Slot.onAir : Slot → Bool
  | .live w => decide (0 < w.fade)
  | _ => false

/-- The KEYING indication of a stack (R146). -/
def Stack.keying (st : Stack) : Bool := st.slots.toList.any Slot.onAir

end Sys2Proof.Machine
end

