-- ==== Sys2Proof/Machine/Port.lean ====
section
/-!
DEFINITION. MPT, the memory port (spec/05 section 5.7): the words of each request, posting, granting,
and what breaks requests off.
-/

namespace Sys2Proof.Machine

/-! ## Addresses in the link block (spec/12_formats.md section 12.3) -/

/-- Byte address of word w of the link block at `link` (spec/05 section 5.2). -/
def linkWord (link w : Nat) : Nat := link + 2 * w

/-- The eight byte addresses of a record. -/
def recordAddrs (addr : Nat) : List Nat := (List.range 8).map (fun k => addr + 2 * k)

/-- The words the start-up load reads: both descriptors with take, put and the get and report trigger
words, the match list and the settings area (R81; order: assumption log 12). -/
def startupWords : List Nat := [0, 1, 2, 4, 14, 15, 16, 17, 18, 19] ++ (List.range 28).map (· + 20)

/-- The words a SETTINGS image holds: the same without take and put (R83). -/
def imageWords : List Nat := [0, 1, 2, 14, 15, 16, 18, 19] ++ (List.range 28).map (· + 20)

def linkAddrs (link : Nat) (ws : List Nat) : List Nat := ws.map (linkWord link)

/-! ## Requesters and ranks (R94) -/

/-- The four requesters, in their ranking (R94). -/
inductive Requester where
  | cue | key | report | status
deriving DecidableEq, Repr

def Request.requester : Request → Requester
  | .startupLoad _ => .cue
  | .fillRead _ _ => .cue
  | .cueRecord _ _ _ _ => .cue
  | .idleCue _ => .cue
  | .takeWrite _ _ => .cue
  | .keySource _ => .key
  | .reportWrite _ _ _ _ _ => .report
  | .lonePut _ _ => .report
  | .getRead _ _ => .report
  | .statusWord _ _ => .status

/-- The path code of HALT/MEMORY (spec/12_formats.md section 12.7). -/
def Request.path : Request → Nat
  | .startupLoad _ => 0
  | .fillRead _ _ => 1
  | .cueRecord _ _ _ _ => 2
  | .idleCue _ => 3
  | .takeWrite _ _ => 4
  | .keySource _ => 5
  | .reportWrite _ _ _ _ _ => 6
  | .getRead _ _ => 7
  | .statusWord _ _ => 8
  | .lonePut _ _ => 9

/-- The words a request writes, in bus order; none for a read. -/
def Request.writes : Request → List (Nat × Word)
  | .takeWrite a v => [(a, wordOfNat v)]
  | .reportWrite a rec _ pa p => (recordAddrs a).zip rec.toWords ++ [(pa, wordOfNat p)]
  | .lonePut a p => [(a, wordOfNat p)]
  | .statusWord a w => [(a, w)]
  | _ => []

/-- The byte addresses of a request's words, in bus order, a settings image behind its record. -/
def Request.addrs : Request → List Nat
  | .startupLoad l => linkAddrs l startupWords
  | .fillRead l _ => [linkWord l 3, linkWord l 5]
  | .cueRecord a _ _ l => recordAddrs a ++ linkAddrs l imageWords
  | .idleCue l => recordAddrs (linkWord l 6) ++ linkAddrs l imageWords
  | .takeWrite a _ => [a]
  | .keySource a => [a]
  | .reportWrite a _ _ pa _ => recordAddrs a ++ [pa]
  | .lonePut a _ => [a]
  | .getRead a _ => [a, a + 2]
  | .statusWord a _ => [a]

/-! ## Posting -/

def Mpt.serviceIs (m : Mpt) (r : Requester) : Bool := m.service.any (fun x => x.req.requester = r)

/-- The engine posts a request behind those it has posted (R97). -/
def postCue (r : Request) (s : State) : State :=
  { s with mpt := { s.mpt with cueQ := s.mpt.cueQ ++ [r] } }

def Request.isTakeWrite : Request → Bool
  | .takeWrite _ _ => true
  | _ => false

/-- The engine posts a take write; one that is waiting and not granted is given the new value (R112). -/
def postTake (s : State) : State :=
  let r := Request.takeWrite (linkWord s.cue.link.toNat 4) s.cue.take
  if s.mpt.cueQ.any Request.isTakeWrite then
    { s with mpt := { s.mpt with cueQ := s.mpt.cueQ.map (fun q => if q.isTakeWrite then r else q) } }
  else postCue r s

def postKey (addr : Nat) (s : State) : State :=
  { s with mpt := { s.mpt with key := some (.keySource addr) } }

def postReport (r : Request) (s : State) : State := { s with mpt := { s.mpt with rpw := some r } }

/-- The report writer has a write, lone put write or get read in hand (R164). -/
def State.writeInHand (s : State) : Bool := s.mpt.rpw.isSome || s.mpt.serviceIs .report

/-- The report writer's request in hand is a get read (R167). -/
def State.getInHand (s : State) : Bool :=
  let isGet : Request → Bool := fun r => match r with | .getRead _ _ => true | _ => false
  s.mpt.rpw.any isGet || s.mpt.service.any (fun x => isGet x.req)

/-- The status writer posts the next word of its copy when it has no request (R92). -/
def postStatus (s : State) : State :=
  match s.rpw.status with
  | (a, w) :: rest =>
    if s.mpt.sta.isSome || s.mpt.serviceIs .status then s
    else
      { s with
        mpt := { s.mpt with sta := some (.statusWord a w) }
        rpw := { s.rpw with status := rest } }
  | [] => s

/-! ## Granting (R94) -/

/-- The waiting request ranked highest, with the port after taking it. -/
def Mpt.choose (m : Mpt) : Option (Request × Mpt) :=
  match m.cueQ with
  | r :: rest => some (r, { m with cueQ := rest })
  | [] =>
    match m.key with
    | some r => some (r, { m with key := none })
    | none =>
      match m.rpw with
      | some r => some (r, { m with rpw := none })
      | none =>
        match m.sta with
        | some r => some (r, { m with sta := none })
        | none => none

/-- The idle port grants the waiting request ranked highest and asks for the bus (R94, R95). -/
def grant (s : State) : State :=
  match s.mpt.service with
  | some _ => s
  | none =>
    match s.mpt.choose with
    | some (r, m) => { s with mpt := { m with service := some { req := r, discard := false, asked := s.rfe.tick } } }
    | none => s

/-- The port is idle again: the request in service has ended. -/
def freePort (s : State) : State := { s with mpt := { s.mpt with service := none } }

/-! ## Breaking requests off -/

/-- A cue-engine read in service runs on with its result discarded (R98, R107); a take write in service
completes. -/
def Mpt.discard (m : Mpt) (r : Requester) : Mpt :=
  { m with service := m.service.map (fun x => if x.req.requester = r then { x with discard := true } else x) }

/-- STOP at the port: the waiting requests of the cue engine and the key loader are dropped, and one in
service is abandoned after the word in flight, the last of the `issued` words the bus has of it, and at
once where it has none; one that an earlier STOP has cut short keeps its word in flight (R96, R101). -/
def Mpt.stop (m : Mpt) (issued : Nat) : Mpt :=
  { m with
    service := m.service.bind (fun x =>
      if x.req.requester = .cue ∨ x.req.requester = .key then
        if x.cut = none ∧ issued = 0 then none
        else some { x with discard := true, cut := some (x.cut.getD issued) }
      else some x)
    cueQ := []
    key := none }

/-- A request of a scan: the fill read, a cue record, the idle cue. -/
def Request.isScan : Request → Bool
  | .fillRead _ _ => true
  | .cueRecord _ _ _ _ => true
  | .idleCue _ => true
  | _ => false

/-- The end of a scan at the port: its waiting requests are not granted, one in service is discarded
(R107). -/
def Mpt.endScan (m : Mpt) : Mpt :=
  { m with
    cueQ := m.cueQ.filter (fun q => !q.isScan)
    service := m.service.map (fun x => if x.req.isScan then { x with discard := true } else x) }

end Sys2Proof.Machine
end

