-- ==== Sys2Proof/Machine/Banks.lean ====
section
/-!
DEFINITION. KBL, the key banks and loader (spec/08_key_banks_loading_and_protection.md): opening a load,
reading source words, the swap test, cancels and aborts.
-/

namespace Sys2Proof.Machine

/-- Source words of a load: ceil(count / 2) (R155). -/
def sourceWords (count : Nat) : Nat := (count + 1) / 2

/-- Banks numbered 4 − p or above are protected at level p (R153). -/
def isProtected (level : Nat) (bank : Nat) : Bool := decide (4 ≤ bank + level)

/-- The shadow with one entry written; an entry above 64 is stored as 64 (R155). -/
def storeEntry (shadow : Bank) (start j v : Nat) : Bank :=
  shadow.set (Fin.ofNat 256 (start + j)) (min v 64)

/-- An entry above 64 counts as saturated (R155). -/
def saturates (v : Nat) : Nat := if 64 < v then 1 else 0

/-- A source word has been read: its entries go into the shadow, low byte first; the high byte of the
last word of an odd count is disregarded (R155). -/
def Kbl.takeWord (k : Kbl) (r : LoadRecord) (w : Word) : Kbl :=
  let i := r.wordsRead
  let low := bits w 0 8
  let high := bits w 8 8
  let s1 := storeEntry k.shadow r.start (2 * i) low
  let both := decide (2 * i + 1 < r.count)
  { k with
    shadow := if both then storeEntry s1 r.start (2 * i + 1) high else s1
    loader := if i + 1 < sourceWords r.count then .loading else .ready
    load := some { r with
      wordsRead := i + 1
      saturated := r.saturated + saturates low + (if both then saturates high else 0) } }

/-- A KEYLOAD of count 1 or more is performed: the shadow is a copy of the visible bank, and the first
source word is asked for (R154). -/
def openLoad (bank : Fin 4) (start count source : Nat) (tag : Word) (s : State) : State :=
  postKey source
    { s with kbl := { s.kbl with
        shadow := s.kbl.banks[bank]
        loader := .loading
        load := some { bank := bank, start := start, count := count, source := source, wordsRead := 0,
                       saturated := 0, tag := tag, held := 0, heldRep := false } } }

/-- The loader closes its record and enters IDLE; the shadow is discarded and the loader's request
withdrawn, or discarded when in service (R159, R160). -/
def closeLoad (s : State) : State :=
  { s with
    kbl := { s.kbl with loader := .idle, load := none, shadow := Bank.zero }
    mpt := { s.mpt.discard .key with key := none } }

/-- A load in hand is aborted with SWAP/ABORTED (R160). -/
def abortLoad (why : AbortReason) (s : State) : State :=
  match s.kbl.load with
  | some r => produce (repSwapAborted r s.kbl.loader why) (closeLoad s)
  | none => s

/-- MEMORY and LINK abort a load only while LOADING (R160). -/
def abortLoading (why : AbortReason) (s : State) : State :=
  if s.kbl.loader = .loading then abortLoad why s else s

/-! ## The swap test (R157, R158) -/

/-- The slot guards the bank: LIVE, fade above 0, INDEX mode, naming the bank (R158). -/
def Slot.guards (bank : Fin 4) : Slot → Bool
  | .live w => decide (0 < w.fade ∧ w.mode = .index ∧ w.bank = bank)
  | _ => false

/-- The depth of the shallowest window that guards the bank (R158, R162). -/
def Stack.guardDepth (st : Stack) (bank : Fin 4) : Option Nat :=
  (depths.find? (fun i => (st.slot i).guards bank)).map (fun i => i.val)

/-- The swap test of a field boundary (R157, R158). The stack is the one in force for the new field:
steps not yet taken are looked through, so that either order with WSK's work gives the same. -/
def swapTest (s : State) : State :=
  match s.kbl.loader, s.kbl.load with
  | .ready, some r =>
    let st := s.wsk.stack.stepAll s.tgn.stamp
    let prot := isProtected s.cue.settings.protect r.bank.val
    let guard := if s.cue.settings.guard then st.guardDepth r.bank else none
    if prot || guard.isSome then
      let r' := { r with held := satSucc 65535 r.held, heldRep := true }
      let s1 := { s with kbl := { s.kbl with load := some r' } }
      if r.heldRep then s1 else produce (repSwapHeld r prot guard s.cue.settings.protect) s1
    else
      produce (repSwapDone r)
        { s with kbl := { s.kbl with
            banks := s.kbl.banks.set r.bank s.kbl.shadow
            shadow := Bank.zero
            loader := .idle
            load := none
            replaced := if s.tgn.drives.isEmpty then none
              else some { bank := r.bank, contents := s.kbl.banks[r.bank] } } }
  | _, _ => s

/-- The banks as they were visible in the field that has ended (R150). -/
def Kbl.endedBanks (k : Kbl) : Vector Bank 4 :=
  match k.replaced with
  | some r => k.banks.set r.bank r.contents
  | none => k.banks

end Sys2Proof.Machine
end

