-- ==== Sys2Proof/Machine/Writer.lean ====
section
/-!
DEFINITION. RPW, the report writer and the status writer (spec/09_reports_status_and_the_interrupt_line.md,
R86, R92, R93).
-/

namespace Sys2Proof.Machine

/-! ## When the writer may write (R167) -/

/-- The writer may write (R167). -/
def State.mayWrite (s : State) : Bool :=
  decide (s.cue.engine ≠ .stopped) && !s.cue.startup && s.cue.linkValid && !s.rpw.suspended

/-- The ring has room by the last get (R167). -/
def Rpw.room (r : Rpw) : Bool :=
  decide (r.lastGet < r.len) && decide ((r.put + 1) % r.len ≠ r.lastGet)

/-- An idle report writer posts what it owes: a lone put write (R84) or a boundary's get read (R167). Where
a write's completion leaves both owed the put write goes first: the model's choice (DESIGN CHOICE, assumption
log 45). -/
def rpwNext (s : State) : State :=
  if s.writeInHand || !s.mayWrite then s
  else if s.rpw.putDue then
    postReport (.lonePut (linkWord s.cue.link.toNat 17) s.rpw.put) { s with rpw := { s.rpw with putDue := false } }
  else if s.rpw.getDue then
    postReport (.getRead (linkWord s.cue.link.toNat 18) false) { s with rpw := { s.rpw with getDue := false } }
  else s

/-- The boundary read of get and the report trigger; a get read already in hand serves for it
(R86, R167; its place in the boundary is assumption log 50). -/
def boundaryGet (s : State) : State :=
  if !s.mayWrite || s.getInHand then s else rpwNext { s with rpw := { s.rpw with getDue := true } }

/-- RECORD_WRITE is the writer's next act: it may write, has no write in hand, and a record waits that
the ring has room for or that has not yet found it full (R167). -/
def State.canWriteRecord (s : State) : Bool :=
  s.mayWrite && !s.writeInHand && !s.rpw.fifo.isEmpty && (s.rpw.room || !s.rpw.fullWait)

/-- An idle writer takes the oldest record: with room it posts the record's write, a GAP first where
the record carries a gap part; without room it reads get, unless it waits for a boundary's read
(R167, R169). -/
def writeRecord (s : State) : State :=
  if s.canWriteRecord then
    match s.rpw.fifo with
    | [] => s
    | x :: _ =>
      if s.rpw.room then
        let entry := s.rpw.base + 16 * s.rpw.put
        let next := (s.rpw.put + 1) % s.rpw.len
        let putAddr := linkWord s.cue.link.toNat 17
        match x.gap with
        | some g => postReport (.reportWrite entry (repGap g) true putAddr next) s
        | none => postReport (.reportWrite entry x.report false putAddr next) s
      else postReport (.getRead (linkWord s.cue.link.toNat 18) true) s
  else s

/-! ## Completions -/

/-- An entry of the match list matches the first word (R171). -/
def MatchEntry.hits (m : MatchEntry) (w0 : Word) : Bool :=
  decide (m.mask ≠ 0) && decide (w0 &&& m.mask = m.pattern)

/-- A record or a GAP leaves the FIFO (R168, R169). -/
def Rpw.retire (r : Rpw) (gap : Bool) : Rpw :=
  match r.fifo with
  | [] => r
  | x :: rest =>
    match gap, x.gap with
    | true, some g =>
      let left := ({ x with gap := none } : FifoRecord) :: rest
      if rest.all (fun y => y.gap.isNone) && decide (r.openGap = 0) then
        { r with fifo := left, withheld := 0, gapPending := false }
      else { r with fifo := left, withheld := r.withheld - g.count }
    | _, _ => { r with fifo := rest }

/-- The working put takes the value written; at or above the ring length it is set to 0, with
WARN/INDEX and a lone put write (R168, R172, R84). -/
def putWritten (put : Nat) (s : State) : State :=
  if put < s.rpw.len then { s with rpw := { s.rpw with put := put } }
  else
    produce (repWarnIndex 0 1 put s.rpw.len) { s with rpw := { s.rpw with put := 0, putDue := true } }

/-- The trigger test (R170). -/
def triggerTest (put : Nat) (s : State) : State :=
  if s.rpw.trigger = some put then latch .reportTrigger s else s

/-- The match test on the first word of the record or GAP just written (R171). -/
def matchTest (w0 : Word) (s : State) : State :=
  if s.rpw.matchList.toList.any (fun m => m.hits w0) then latch .matched s else s

/-- A report write is complete: put, the FIFO, the trigger and match tests, and what is owed next
(R168 to R171). The completion frees its place before a WARN/INDEX of its own (R172) is produced, of the two
orders that R165 allows: the model's choice (DESIGN CHOICE, assumption log 42). -/
def reportWritten (rec : Report) (gap : Bool) (put : Nat) (s : State) : State :=
  let s1 := { s with rpw := s.rpw.retire gap }
  rpwNext (matchTest rec.w0 (triggerTest put (putWritten put s1)))

/-- A report trigger at or above the length means none (R86). -/
def triggerOf (len v : Nat) : Option Nat := if v < len then some v else none

/-- The get and trigger read completes (R86). -/
def getRead (forRecord : Bool) (get trig : Nat) (s : State) : State :=
  let bad := decide (s.rpw.len ≤ get)
  let r1 := { s.rpw with lastGet := get, trigger := triggerOf s.rpw.len trig, badGet := bad }
  let r2 := if r1.room then { r1 with fullWait := false }
    else if forRecord then { r1 with fullWait := true } else r1
  let s1 := { s with rpw := r2 }
  rpwNext (if bad && !s.rpw.badGet then produce (repWarnIndex 0 3 get s.rpw.len) s1 else s1)

/-! ## The boundary's status copy and FIELDSTAT (R92, R93, R174) -/

/-- The sixteen words of the status area (R93, spec/12_formats.md section 12.6). -/
def statusWords (s : State) (dueCount : Nat) : List Word :=
  [ lowWord s.tgn.stamp.toNat
  , highWord s.tgn.stamp.toNat
  , wordOfNat (s.lll.loop.code + 16 * s.fal.field.code + 64 * inputCode s.rfe.active
      + 128 * bitOf s.rfe.inA.present + 256 * bitOf s.rfe.inB.present + 512 * s.rfe.working.code
      + 4096 * s.cue.engine.code)
  , lowWord s.lll.p
  , highWord s.lll.p
  , wordOfInt s.lll.lastE
  , wordOfNat s.rpw.ended.coast
  , wordOfNat dueCount
  , wordOfNat s.rpw.withheld
  , wordOfNat (s.wsk.stack.top.val + 16 * s.kbl.loader.code + 64 * loaderBank s.kbl
      + 256 * bitOf s.pins.tally + 512 * bitOf s.pins.hold)
  , tagsWord s.wsk.stack.slots
  , 0, 0, 0, 0, 0 ]

/-- The status copy of a boundary is taken and its first word posted; the rest of an earlier copy is
abandoned (R92). -/
def statusCopy (dueCount : Nat) (s : State) : State :=
  if decide (s.cue.engine ≠ .stopped) && s.cue.linkValid && !s.rpw.suspended then
    let addrs := (List.range 16).map (fun k => linkWord s.cue.link.toNat (48 + k))
    postStatus
      { s with
        rpw := { s.rpw with status := addrs.zip (statusWords s dueCount) }
        mpt := { s.mpt with sta := none } }
  else s

/-- FIELDSTAT, when enabled and the engine is not STOPPED (R174). -/
def fieldstat (s : State) : State :=
  if decide (s.cue.engine ≠ .stopped) && s.cue.settings.fieldstat then
    produce (repFieldstat s.rpw.ended) s
  else s

/-- What STOP, a LINK fault and a MEMORY fault do at the writers: their waiting requests are dropped
and the status copy is not continued (R92, R96, R173, R184; assumption log 13). -/
def dropWriters (s : State) : State :=
  { s with
    mpt := { s.mpt with rpw := none, sta := none }
    rpw := { s.rpw with status := [], getDue := false, putDue := false } }

end Sys2Proof.Machine
end

