-- ==== Sys2Proof/Machine/Flags.lean ====
section
/-!
DEFINITION. The part's output pins and the words its ports read as, all computed from the state
(spec/04 sections 4.3, 4.5 and 4.6, R126, R177, R178, spec/12_formats.md section 12.2).
-/

namespace Sys2Proof.Machine

/-! ## Signals to the computer's video circuit (R68, R69, R71) -/

/-- Ticks since the line in progress began. -/
def State.lineTicks (s : State) : Nat := (s.rfe.tick - s.tgn.lineStart).toNat

/-- HS: the line start tick and the 168 ticks after it (R68). -/
def State.hs (s : State) : Bool := decide (s.lineTicks < 169)

/-- VS: lines 1 to 3 (R68). -/
def State.vs (s : State) : Bool := decide (s.tgn.line ≤ 3)

/-- FIELD: low in field 1, high in field 2 (R68). -/
def State.fieldPin (s : State) : Bool := decide (s.tgn.parity = .two)

/-- The tick lies in the active span of the line in progress (spec/04 section 4.3). -/
def State.inActiveSpan (s : State) : Bool :=
  let first := s.tgn.lineStd.activeStart
  decide (first ≤ s.lineTicks ∧ s.lineTicks < first + 1800)

/-- BLANK: low only in the active span of a line that is not vertically blanked (R69). -/
def State.blank (s : State) : Bool :=
  !(s.inActiveSpan && decide (s.tgn.lineStd.blankedLines < s.tgn.line))

/-- KEY: the level being driven, until the end of the active span it was driven in (R71, R145). -/
def State.keyPin (s : State) : Nat :=
  if Tick.reached s.rfe.tick s.tgn.keyUntil then 0 else s.tgn.key

/-! ## LOCK and the OUT lines (R73, R74) -/

/-- LOCK (R73). -/
def State.lockPin (s : State) : Bool :=
  match s.cue.settings.lockMode with
  | .strict => s.strictLock
  | .line => s.lll.locked

/-- The level of an OUT line in a mode, with its cue level (R74). -/
def State.outPin (s : State) (mode : OutMode) (level : Bool) : Bool :=
  match mode with
  | .cue => level
  | .lock => s.lockPin
  | .keying => s.wsk.stack.keying
  | .field => decide (s.tgn.line = 1 ∧ s.tgn.parity = .one)

def State.out1Pin (s : State) : Bool := s.outPin s.cue.settings.out1Mode s.tgn.out1
def State.out2Pin (s : State) : Bool := s.outPin s.cue.settings.out2Mode s.tgn.out2

/-! ## IRQ and the ports -/

/-- IRQ: enabled with at least one cause latched (R177). -/
def State.irq (s : State) : Bool := s.rpw.enabled && decide (s.rpw.latched ≠ 0)

/-- What a read of port 0 returns (R79). -/
def State.linkHalf (s : State) : Word :=
  if s.cue.second then (s.cue.link.extractLsb' 16 8).zeroExtend 16 else s.cue.link.extractLsb' 0 16

/-- What a read of port 2 returns (R176, R196). -/
def State.causeWord (s : State) : Word := s.rpw.latched.zeroExtend 16

/-- The engine code of the state summary (spec/12_formats.md section 12.2). -/
def Cue.code (c : Cue) : Nat :=
  match c.engine with
  | .stopped => 0
  | .running => if c.startup then 1 else 2
  | .waiting => 3
  | .held => 4
  | .halted => 5 + (c.haltReason.map HaltReason.code).getD 0

/-- What a read of port 1 returns: the state summary (R126, R178). -/
def State.summary (s : State) : Word :=
  wordOfNat (Cue.code s.cue + 16 * bitOf s.cue.linkValid + 32 * bitOf s.cue.wait.isSome
    + 64 * bitOf s.cue.deferral.isSome + 128 * bitOf s.rpw.enabled + 256 * bitOf s.irq
    + 512 * bitOf s.rpw.gapPending + 1024 * bitOf s.rpw.suspended + 2048 * bitOf s.rpw.fullWait
    + 4096 * s.rpw.fifo.length)

/-- What a read of port 3 returns: revision 1, the strap decodes and strap-done (R76). -/
def State.identity (s : State) : Word :=
  wordOfNat (1 + 16 * s.tgn.straps.standard.toNat + 64 * s.tgn.straps.test.toNat
    + 32768 * bitOf s.tgn.strapDone)

end Sys2Proof.Machine
end

