-- ==== Sys2Proof/Machine/Operands.lean ====
section
/-!
DEFINITION. Operand forms: the fields of a cue record (spec/12_formats.md section 12.5) with the check of
each against its encoding (R180 stage 1), and the words of a load (sections 12.3 and 12.4) with the
descriptor validation of R82 and the clamps of R90.
-/

namespace Sys2Proof.Machine

/-! ## Cue records -/

/-- The kinds of cue, by kind code (section 12.5). -/
inductive CueKind where
  | none | mark | push | pop | exch | drop | edit | show_ | park | fade | keyload | phase | select
  | settings | output | waitlock | snapshot | halt
deriving DecidableEq, Repr

/-- The kind of a kind code; any other code is BAD_CUE. -/
def cueKind (code : Nat) : Option CueKind :=
  [.none, .mark, .push, .pop, .exch, .drop, .edit, .show_, .park, .fade, .keyload, .phase, .select,
    .settings, .output, .waitlock, .snapshot, .halt][code]?

def CueWords.immediate (c : CueWords) : Bool := c.w0.getLsbD 8
def CueWords.lateRun (c : CueWords) : Bool := c.w0.getLsbD 9
def CueWords.reportDone (c : CueWords) : Bool := c.w0.getLsbD 10

/-- The eight words of a record read from memory, in order. -/
def CueWords.ofList (ws : List Word) : CueWords :=
  { w0 := ws.getD 0 0, w1 := ws.getD 1 0, w2 := ws.getD 2 0, w3 := ws.getD 3 0,
    w4 := ws.getD 4 0, w5 := ws.getD 5 0, w6 := ws.getD 6 0, w7 := ws.getD 7 0 }

/-- One operand field as the BAD_CUE check sees it: word number, value and whether the value lies
within its encoding. -/
structure OperandField where
  word  : Nat
  value : Word
  ok    : Bool

def opField (word value : Nat) (ok : Bool) : OperandField := ⟨word, wordOfNat value, ok⟩

/-- Bits 0 to 3 of w4: a depth. -/
def CueWords.depth (c : CueWords) : Nat := bits c.w4 0 4

/-- KEYLOAD operands (section 12.5). -/
def CueWords.loadBank (c : CueWords) : Nat := bits c.w4 0 4
def CueWords.loadCount (c : CueWords) : Nat := bits c.w4 4 12
def CueWords.loadStart (c : CueWords) : Nat := c.w5.toNat
def CueWords.loadSource (c : CueWords) : Nat := c.w6.toNat + 65536 * bits c.w7 0 8

/-- The editable field of an EDIT's field code (section 12.5). -/
def editField (code : Nat) : Option EditField :=
  [.top, .bottom, .left, .right, .mode, .bank][code]?

/-- The operand fields of a kind with their encodings, in the order of the record's words (R116, R121,
R122, R124, R130, R152, R188; assumption log 19). -/
def CueWords.fields (c : CueWords) : CueKind → List OperandField
  | .none => []
  | .mark => []
  | .pop => []
  | .settings => []
  | .halt => []
  | .push =>
    [opField 4 (bits c.w4 9 2) (bits c.w4 9 2 ≤ 2), opField 5 (bits c.w5 9 7) (bits c.w5 9 7 ≤ 64)]
  | .exch => [opField 4 c.depth (decide (1 ≤ c.depth ∧ c.depth ≤ 7))]
  | .drop => [opField 4 c.depth (c.depth ≤ 7)]
  | .show_ => [opField 4 c.depth (c.depth ≤ 7)]
  | .park => [opField 4 c.depth (c.depth ≤ 7)]
  | .edit =>
    let code := bits c.w4 8 4
    [opField 4 c.depth (c.depth ≤ 7), opField 4 code (code ≤ 5),
     opField 5 c.w5.toNat (!(decide (code = 4 ∧ 2 < c.w5.toNat) || decide (code = 5 ∧ 3 < c.w5.toNat)))]
  | .fade =>
    [opField 4 c.depth (c.depth ≤ 7), opField 5 c.w5.toNat (c.w5.toNat ≤ 64),
     opField 6 c.w6.toNat (decide (1 ≤ c.w6.toNat ∧ c.w6.toNat ≤ 1023))]
  | .keyload =>
    let badSource := decide (c.loadCount ≠ 0 ∧ c.loadSource % 2 = 1)
      || decide (c.loadCount ≠ 0 ∧ 2 ^ 24 < c.loadSource + 2 * sourceWords c.loadCount)
    [opField 4 c.loadBank (c.loadBank ≤ 3), opField 4 c.loadCount (c.loadCount ≤ 1024),
     opField 5 c.loadStart (c.loadStart ≤ 255),
     ⟨6, Config.wideSourceField c.w6 (c.w7.extractLsb' 0 8), !badSource⟩]
  | .phase =>
    [opField 5 c.w5.toNat (c.w5.toNat ≤ 15),
     opField 6 c.w6.toNat (decide (1 ≤ c.w6.toNat ∧ c.w6.toNat ≤ 64))]
  | .select => [opField 4 c.w4.toNat (c.w4.toNat ≤ 2)]
  | .output => [opField 4 c.w4.toNat (c.w4.toNat ≤ 2), opField 5 c.w5.toNat (c.w5.toNat ≤ 2)]
  | .waitlock => [opField 4 c.w4.toNat (c.w4.toNat ≤ 1), opField 5 c.w5.toNat (c.w5.toNat ≤ 4095)]
  | .snapshot => [opField 4 c.w4.toNat (c.w4.toNat ≤ 1)]

/-- The first bad field of a cue, by word number and value: word 0 for a bad kind code (R180, R181). -/
def CueWords.badField (c : CueWords) : Option (Nat × Word) :=
  match cueKind c.kind with
  | none => some (0, c.kindWord)
  | some k => ((c.fields k).find? (fun f => !f.ok)).map (fun f => (f.word, f.value))

/-- The standing of a cue read at a scan for N; a deferred cue's index takes DUE for PAST (R105). -/
def CueWords.standing (c : CueWords) (n : Stamp) (isDeferred : Bool) : Option Standing :=
  if c.immediate then some .immediate
  else
    let d := (c.target - n).toNat
    if d = 0 then some .due
    else if d < 2 ^ 23 then none
    else if isDeferred then some .due else some .past

/-! ## Settings (section 12.4, R90) -/

/-- A setting read from memory: its code, the value read and the value adopted, as words. -/
structure ClampedSetting where
  code    : Nat
  read    : Word
  adopted : Word

/-- A numeric setting clamped to its legal values. -/
def numSetting (code value lo hi : Nat) : ClampedSetting :=
  ⟨code, wordOfNat value, wordOfNat (clampN value lo hi)⟩

/-- Word k of the settings area (k from 0 for word 28). -/
def settingWord (ws : List Word) (k : Nat) : Word := ws.getD k 0

/-- The standard mode of a code; a code above the highest takes the highest (R90). -/
def stdModeOf (n : Nat) : StdMode :=
  if n = 0 then .auto else if n = 1 then .force .s625 else .force .s525

def policyOf (n : Nat) : Policy :=
  if n = 0 then .auto else if n = 1 then .named .a else .named .b

def testModeOf (n : Nat) : TestMode :=
  if n = 0 then .normal else if n = 1 then .internalLoop else if n = 2 then .bypass else .bars

def outModeOf (n : Nat) : OutMode :=
  if n = 0 then .cue else if n = 1 then .lock else if n = 2 then .keying else .field

/-- The standard that a load's standard mode leaves: the forced one, or the working one under AUTO
(R90). -/
def StdMode.leaves (m : StdMode) (working : Standard) : Standard :=
  match m with
  | .auto => working
  | .force d => d

/-- The settings of the settings area, clamped; `working` is the working standard before the load. -/
def settingsOf (ws : List Word) (working : Standard) : Settings :=
  let w (k : Nat) := settingWord ws k
  let lo (k : Nat) := bits (w k) 0 8
  let hi (k : Nat) := bits (w k) 8 8
  let mode := stdModeOf (bits (w 10) 0 2)
  let lim : Int := (mode.leaves working).half
  { stdMode := mode
    policy := policyOf (bits (w 10) 2 2)
    dots := clampN (w 0).toNat 256 2047
    hTarget := clampI (w 1).toInt (-lim) lim
    vOffset := clampN (lo 9) 0 15
    kp := clampN (lo 2) 0 8
    ki := clampN (hi 2) 4 14
    slew := clampN (lo 3) 1 64
    captureTol := clampN (hi 3) 1 255
    flyLimit := clampN (lo 4) 12 63
    holdLimit := clampN (hi 4) 1 255
    coastFirst := clampN (w 5).toNat 0 329
    coastLast := clampN (w 6).toNat 0 329
    stepMode := if (w 10).getLsbD 4 then .slew else .snap
    vertMode := if (w 10).getLsbD 5 then .slip else .jump
    lockMode := if (w 10).getLsbD 6 then .line else .strict
    floor := clampN (lo 7) 8 128
    restart := (w 11).getLsbD 0
    switchWin := clampN (hi 7) 1 15
    scanLines := clampN (lo 8) 4 32
    pipeDelay := clampN (hi 8) 0 63
    faultMask := (w 12).extractLsb' 0 7
    protect := clampN (hi 9) 0 4
    guard := (w 11).getLsbD 1
    lockdown := (w 11).getLsbD 2
    out1Mode := outModeOf (bits (w 10) 10 2)
    out2Mode := outModeOf (bits (w 10) 12 2)
    fieldstat := (w 11).getLsbD 3
    testMode := testModeOf (bits (w 10) 8 2) }

/-- Every setting that can be out of range, in the order of the settings area, with the value read and
the value adopted (R90, section 12.4). -/
def clampsOf (ws : List Word) (working : Standard) : List ClampedSetting :=
  let w (k : Nat) := settingWord ws k
  let lo (k : Nat) := bits (w k) 0 8
  let hi (k : Nat) := bits (w k) 8 8
  let lim : Int := ((stdModeOf (bits (w 10) 0 2)).leaves working).half
  [ numSetting 0 (w 0).toNat 256 2047
  , ⟨1, w 1, wordOfInt (clampI (w 1).toInt (-lim) lim)⟩
  , numSetting 2 (lo 2) 0 8
  , numSetting 3 (hi 2) 4 14
  , numSetting 4 (lo 3) 1 64
  , numSetting 5 (hi 3) 1 255
  , numSetting 6 (lo 4) 12 63
  , numSetting 7 (hi 4) 1 255
  , numSetting 8 (w 5).toNat 0 329
  , numSetting 9 (w 6).toNat 0 329
  , numSetting 10 (lo 7) 8 128
  , numSetting 11 (hi 7) 1 15
  , numSetting 12 (lo 8) 4 32
  , numSetting 13 (hi 8) 0 63
  , numSetting 14 (lo 9) 0 15
  , numSetting 15 (hi 9) 0 4
  , numSetting 16 (bits (w 10) 0 2) 0 2
  , numSetting 17 (bits (w 10) 2 2) 0 2 ]

/-- One WARN/SETTING for each clamped setting (R90). -/
def settingWarnings (tag : Word) (ws : List Word) (working : Standard) : List Report :=
  ((clampsOf ws working).filter (fun c => decide (c.read ≠ c.adopted))).map
    (fun c => repWarnSetting tag c.code c.read c.adopted)

/-! ## Descriptors (section 12.3, R82) -/

/-- A 24-bit base from its two words; bits 8 to 15 of the high word are disregarded (R197). -/
def baseOf (lo hi : Word) : Nat := lo.toNat + 65536 * bits hi 0 8

def matchListOf (ws : List Word) : Vector MatchEntry 4 :=
  #v[⟨ws.getD 0 0, ws.getD 1 0⟩, ⟨ws.getD 2 0, ws.getD 3 0⟩, ⟨ws.getD 4 0, ws.getD 5 0⟩,
     ⟨ws.getD 6 0, ws.getD 7 0⟩]

/-- The image in the words read by `imageWords`. -/
def Image.ofWords (ws : List Word) : Image :=
  { qBase := baseOf (ws.getD 0 0) (ws.getD 1 0)
    qLen := (ws.getD 2 0).toNat
    rBase := baseOf (ws.getD 3 0) (ws.getD 4 0)
    rLen := (ws.getD 5 0).toNat
    get := (ws.getD 6 0).toNat
    repTrigger := (ws.getD 7 0).toNat
    matchList := matchListOf (ws.drop 8)
    settings := (ws.drop 16).take 13 }

/-- The image, take and put in the words read by `startupWords`. -/
def startupImage (ws : List Word) : Image × Nat × Nat :=
  (Image.ofWords (ws.take 3 ++ (ws.drop 4).take 3 ++ ws.drop 8),
   (ws.getD 3 0).toNat, (ws.getD 7 0).toNat)

def lenOk (n : Nat) : Bool := decide (2 ≤ n ∧ n ≤ 1024)

/-- The first test of R82 that fails, by the code HALT/LINK carries (section 12.7); the link address is
tested at RUN only. -/
def Image.firstFailure (x : Image) (link : Option Nat) : Option Nat :=
  if link.any (fun a => decide (a % 2 = 1 ∨ 2 ^ 24 < a + 128)) then some 0
  else if x.qBase % 2 = 1 then some 1
  else if x.rBase % 2 = 1 then some 2
  else if !lenOk x.qLen then some 3
  else if !lenOk x.rLen then some 4
  else if 2 ^ 24 < x.qBase + 16 * x.qLen then some 5
  else if 2 ^ 24 < x.rBase + 16 * x.rLen then some 6
  else none

end Sys2Proof.Machine
end

