-- ==== Sys2Proof/Machine/Engine.lean ====
section
/-!
DEFINITION. CUE, the cue engine (spec/06_the_cue_engine.md) with faults and halts (spec/10): loads, the
scan, taking and skipping copies, halting. The kinds' own effects are in Cues.lean.
-/

namespace Sys2Proof.Machine

/-! ## Halting (R98, R182) -/

/-- Entry to HALTED, whatever its reason (R98). -/
def enterHalted (why : HaltReason) (s : State) : State :=
  { s with
    cue := { s.cue with
      engine := .halted, haltReason := some why, scan := none, due := [], idle := none, wait := none
      heldFrom := none }
    mpt := s.mpt.endScan }

/-- The cue engine's waiting requests are dropped, take write included (R182). -/
def dropCueRequests (s : State) : State := { s with mpt := { s.mpt with cueQ := [] } }

/-- The engine halts on a copy for an unmasked fault: take stays, HALT is latched, and a HALT report
names the fault and the queue index at which take stands, or IDLE (R182). -/
def faultHalt (k : FaultKind) (c : Copy) (s : State) : State :=
  produce (repHaltFault k c.words (c.index.map (fun _ => s.cue.take)))
    (latch .halt (enterHalted (.fault k) (dropCueRequests s)))

/-- A LINK fault: nothing adopted, link-valid cleared, HALTED, LINK latched, HALT/LINK produced, and a
LOADING load aborted (R82, R160, R187; assumption log 13). -/
def linkFault (tag : Word) (settings : Bool) (test : Nat) (s : State) : State :=
  let s1 := enterHalted .link (dropCueRequests (dropWriters s))
  let s2 := { s1 with cue := { s1.cue with linkValid := false, startup := false } }
  abortLoading .link (produce (repHaltLink tag settings test s2.cue.take) (latch .link s2))

/-- The working masks mask a fault (R179). -/
def State.masked (s : State) (k : FaultKind) : Bool := s.cue.masks.getLsbD k.num

/-! ## Adopting a load (R81, R83, R84, R90, R91) -/

/-- The descriptors, triggers and match list of a load become the working ones; a report write still
waiting is posted afresh under them (R81, R83, R172; assumption log 13). The bad-get flag stays as it is
whatever get value the load holds: the model's choice (DESIGN CHOICE, R86, assumption log 44). -/
def adoptDescriptors (x : Image) (take put : Nat) (s : State) : State :=
  let keep : Request → Bool := fun r => match r with | .reportWrite _ _ _ _ _ => false | _ => true
  { s with
    cue := { s.cue with qBase := x.qBase, qLen := x.qLen, take := take }
    rpw := { s.rpw with
      base := x.rBase, len := x.rLen, put := put, lastGet := x.get
      trigger := triggerOf x.rLen x.repTrigger, matchList := x.matchList, fullWait := false }
    mpt := { s.mpt with rpw := s.mpt.rpw.filter keep } }

/-- Take and put are checked against their lengths: an index at or above its length becomes 0, with
WARN/INDEX, and is written (R84). -/
def checkIndices (tag : Word) (s : State) : State :=
  let s1 :=
    if s.cue.qLen ≤ s.cue.take then
      postTake (produce (repWarnIndex tag 0 s.cue.take s.cue.qLen)
        { s with cue := { s.cue with take := 0 } })
    else s
  if s1.rpw.len ≤ s1.rpw.put then
    produce (repWarnIndex tag 1 s1.rpw.put s1.rpw.len)
      { s1 with rpw := { s1.rpw with put := 0, putDue := true } }
  else s1

/-- TST acts on the test mode of a load (R190). -/
def testModeLoad (new : TestMode) (s : State) : State :=
  if new = s.tst.mode then s
  else if new = .internalLoop then
    sourceNotice { s with tst :=
      { mode := new, count := some ⟨s.tgn.stamp, 0⟩, lockTime := some s.tgn.stamp
        lines := s.entryLines } }
  else if s.tst.mode = .internalLoop then sourceNotice { s with tst := { mode := new } }
  else { s with tst := { s.tst with mode := new } }

/-- The effects of a load are handed to the blocks in R91's order; `old` are the settings before it. -/
def loadEffects (old : Settings) (s : State) : State :=
  let st := s.cue.settings
  let s1 := if st.restart then slicerRestart s else s
  let s2 := stdModeLoad old.stdMode st.stdMode s1
  let s3 := policyArrival old.policy st.policy s2
  let s4 := { s3 with lll := { s3.lll with hTarget := st.hTarget } }
  let s5 := vOffsetChange old.vOffset s4
  testModeLoad st.testMode s5

/-- A validated load is adopted: descriptors and index checks, settings and their warnings, the effects,
then the link-valid flag and the masks (R81, R83, R84, R90, R91, R179). -/
def adoptLoad (tag : Word) (x : Image) (take put : Nat) (s : State) : State :=
  let s1 := checkIndices tag (adoptDescriptors x take put s)
  let st := settingsOf x.settings s1.rfe.working
  let warns := settingWarnings tag x.settings s1.rfe.working
  let s2 := produceAll warns { s1 with cue := { s1.cue with settings := st } }
  let s3 := loadEffects s.cue.settings s2
  rpwNext { s3 with cue := { s3.cue with linkValid := true, startup := false, masks := st.faultMask } }

/-- The words of the start-up load have been read: validate, then adopt or make the LINK fault (R81,
R82). -/
def startupLoaded (link : Nat) (ws : List Word) (s : State) : State :=
  let r := startupImage ws
  match r.1.firstFailure (some link) with
  | some t => linkFault 0 false t s
  | none => adoptLoad 0 r.1 r.2.1 r.2.2 s

/-! ## The scan (R104 to R109) -/

/-- The scan point reaches the engine: it begins a scan if it is RUNNING with the link valid and no
start-up load in flight (R104). -/
def scanBegin (s : State) : State :=
  if decide (s.cue.engine = .running) && s.cue.linkValid && !s.cue.startup then
    let n := s.tgn.stamp + 1
    postCue (.fillRead s.cue.link.toNat n)
      { s with cue := { s.cue with scan := some { n := n, next := s.cue.take } } }
  else s

/-- Post the request for the cue record at an index, its standing to be judged against `n` (R106). -/
def postRecord (n : Stamp) (index : Nat) (s : State) : State :=
  postCue (.cueRecord (s.cue.qBase + 16 * index) index n s.cue.link.toNat) s

/-- The fetch goes on at `next`, or stops: at the last fill, or with 16 copies in the due list (R106). -/
def fetchNext (n : Stamp) (next : Nat) (s : State) : State :=
  if next = s.cue.lastFill ∨ 16 ≤ s.cue.due.length then { s with cue := { s.cue with scan := none } }
  else postRecord n next { s with cue := { s.cue with scan := some { n := n, next := next } } }

/-- The fill and cue trigger read completes (R85, R104, R106, R108). A trigger at or above the queue length of
this moment is none until the next scan, whatever length a SETTINGS cue adopts before it: the model's choice
(DESIGN CHOICE, R112, assumption log 47). -/
def fillRead (n : Stamp) (fill trig : Nat) (s : State) : State :=
  let bad := decide (s.cue.qLen ≤ fill)
  let s1 := { s with cue := { s.cue with
    lastFill := if bad then s.cue.take else fill
    trigger := triggerOf s.cue.qLen trig
    badFill := bad } }
  let s2 := if bad && !s.cue.badFill then produce (repWarnIndex 0 2 fill s.cue.qLen) s1 else s1
  if s2.cue.lastFill = s2.cue.take then
    let s3 := { s2 with cue := { s2.cue with scan := none } }
    if s3.cue.seenEmpty then s3
    else
      postCue (.idleCue s3.cue.link.toNat)
        (latch .queueEmpty { s3 with cue := { s3.cue with seenEmpty := true } })
  else
    fetchNext n s2.cue.take { s2 with cue := { s2.cue with seenEmpty := false } }

/-- The kind code says SETTINGS. -/
def CueWords.isSettings (c : CueWords) : Bool := decide (cueKind c.kind = some .settings)

/-- A cue record has been read, with its image words behind it: it joins the due list with its
standing, or, a future cue, stops the fetch; the list never holds more than 16 (R105, R106). -/
def recordRead (n : Stamp) (index : Nat) (ws : List Word) (s : State) : State :=
  let c := CueWords.ofList ws
  match c.standing n (s.cue.deferral = some index) with
  | none => { s with cue := { s.cue with scan := none } }
  | some st =>
    let copy : Copy :=
      { index := some index, standing := st, words := c
        image := if c.isSettings then some (Image.ofWords (ws.drop 8)) else none }
    if 16 ≤ s.cue.due.length then { s with cue := { s.cue with scan := none } }
    else
      fetchNext n ((index + 1) % s.cue.qLen) { s with cue := { s.cue with due := s.cue.due ++ [copy] } }

/-- The idle cue has been read: kept as an IMMEDIATE idle copy unless its kind is NONE (R108). -/
def idleRead (ws : List Word) (s : State) : State :=
  let c := CueWords.ofList ws
  if c.kind = 0 then s
  else
    let copy : Copy :=
      { index := none, standing := .immediate, words := c
        image := if c.isSettings then some (Image.ofWords (ws.drop 8)) else none }
    { s with cue := { s.cue with idle := some copy } }

/-! ## Retiring copies (R112, R114) -/

/-- The comparison of take with the working cue trigger after an advance (R112). -/
def cueTriggerTest (s : State) : State :=
  if s.cue.trigger = some s.cue.take then latch .cueTrigger s else s

/-- Take advances by 1 modulo the queue length; the deferral record is cleared and the trigger compared
(R112, R119). The take write is posted apart. -/
def advanceTake (s : State) : State :=
  cueTriggerTest
    { s with cue := { s.cue with take := (s.cue.take + 1) % s.cue.qLen, deferral := none } }

/-- The engine posts a take write, which an idle port grants at once, ahead of anything posted at the
same moment (R94, R112). -/
def writeTake (s : State) : State := grant (postTake s)

/-- Take advances past a copy and the take write is posted; for the idle copy take does not move
(R112, R115). -/
def retire (isIdle : Bool) (s : State) : State := if isIdle then s else writeTake (advanceTake s)

/-- CUE/DONE of a performed copy whose REPORT_DONE flag is set (R114). -/
def reportDone (c : CueWords) (s : State) : State := if c.reportDone then produce (repDone c) s else s

end Sys2Proof.Machine
end

