-- ==== Sys2Proof/Machine/Cues.lean ====
section
/-!
DEFINITION. The cues (spec/06 section 6.8, spec/07 section 7.2, spec/08 sections 8.2 and 8.6, spec/10):
the three stages of checks, the effect of each kind, and the execution of the due list and the idle copy
at a field boundary.
-/

namespace Sys2Proof.Machine

/-- What becomes of a copy (R111): `performed` and `skipped` retire it; `retired` has already moved take
(SETTINGS, R83); `halting` is the performed HALT cue (R125). -/
inductive CopyOutcome where
  | performed | retired | halting | skipped | deferred | waiting | halted
deriving DecidableEq, Repr

abbrev CopyResult := State × CopyOutcome

/-- A fault met at a check: its masked response, or the halt (R179 to R182). -/
def onFault (k : FaultKind) (c : Copy) (s : State) (response : State → CopyResult) : CopyResult :=
  if s.masked k then response s else (faultHalt k c s, .halted)

/-- A skip with one report (R181). -/
def skipWith (r : Report) (s : State) : CopyResult := (produce r s, .skipped)

/-! ## Window cues (R129 to R137) -/

/-- A depth operand as a slot depth. -/
def CueWords.slotDepth (c : CueWords) : Fin 8 := Fin.ofNat 8 c.depth

/-- The slot at a depth is EMPTY: STACK_UNDER (R132 to R137). -/
def stackUnder (c : Copy) (i : Fin 8) (s : State) (ok : State → CopyResult) : CopyResult :=
  let st := s.wsk.stack
  if (st.slot i).isEmpty then
    onFault .stackUnder c s (skipWith (repWarnStack false c.words i.val (st.at i) (st.slot i)))
  else ok s

def withStack (s : State) (st : Stack) : State := { s with wsk := { s.wsk with stack := st } }

/-- One geometry field as read and as clamped to the picture (R129). -/
structure GeoField where
  bit     : Nat
  read    : Nat
  adopted : Nat

/-- The first clamped field and the bits of all of them, for WARN/RANGE (R129). -/
def clampReport (tag : Word) (depth : Nat) (fs : List GeoField) : Option Report :=
  let bad := fs.filter (fun f => decide (f.read ≠ f.adopted))
  match bad with
  | [] => none
  | f :: _ => some (repWarnRange tag depth ((bad.map (fun x => 2 ^ x.bit)).sum) f.read f.adopted)

/-- The geometry check: RANGE for a field outside the picture; masked, the cue goes on with the clamped
values after WARN/RANGE (R129). -/
def rangeCheck (c : Copy) (depth : Nat) (fs : List GeoField) (s : State) (ok : State → CopyResult) :
    CopyResult :=
  match clampReport c.words.tag depth fs with
  | none => ok s
  | some r => onFault .range c s (fun s => ok (produce r s))

/-- PUSH (R131). -/
def cuePush (c : Copy) (s : State) : CopyResult :=
  let w := c.words
  let st := s.wsk.stack
  let slot7 : Fin 8 := st.at 7
  if !(st.slot 7).isEmpty then
    onFault .stackOver c s (skipWith (repWarnStack true w 7 slot7 (st.slot 7)))
  else
    let lMax := s.rfe.working.lMax
    let d := s.cue.settings.dots
    let top := bits w.w4 0 9
    let bottom := bits w.w5 0 9
    let left := bits w.w6 0 11
    let right := bits w.w7 0 11
    let fade := bits w.w5 9 7
    rangeCheck c 0
      [⟨0, top, clampLine lMax top⟩, ⟨1, bottom, clampLine lMax bottom⟩,
       ⟨2, left, clampDot d left⟩, ⟨3, right, clampDot d right⟩] s
      (fun s =>
        let win : Window :=
          { top := clampLine lMax top, bottom := clampLine lMax bottom
            left := clampDot d left, right := clampDot d right
            mode := winMode (bits w.w4 9 2), bank := Fin.ofNat 4 (bits w.w4 11 2)
            fade := fade, target := fade, steps := 0, tag := w.tag, mark := s.tgn.stamp }
        (withStack s (s.wsk.stack.push win (w.w4.getLsbD 13)), .performed))

/-- POP (R132). -/
def cuePop (c : Copy) (s : State) : CopyResult :=
  stackUnder c 0 s (fun s => (withStack s s.wsk.stack.pop, .performed))

/-- EXCH (R133): STACK_UNDER when both slots are EMPTY. -/
def cueExch (c : Copy) (s : State) : CopyResult :=
  let i := c.words.slotDepth
  let go : State → CopyResult := fun s => (withStack s (s.wsk.stack.exch i), .performed)
  if (s.wsk.stack.slot 0).isEmpty then stackUnder c i s go else go s

/-- DROP (R134). -/
def cueDrop (c : Copy) (s : State) : CopyResult :=
  let i := c.words.slotDepth
  stackUnder c i s (fun s => (withStack s (s.wsk.stack.drop i), .performed))

/-- SHOW (R136). -/
def cueShow (c : Copy) (s : State) : CopyResult :=
  let i := c.words.slotDepth
  stackUnder c i s (fun s => (withStack s (s.wsk.stack.show_ i), .performed))

/-- PARK (R136). -/
def cuePark (c : Copy) (s : State) : CopyResult :=
  let i := c.words.slotDepth
  stackUnder c i s (fun s => (withStack s (s.wsk.stack.park i), .performed))

/-- The geometry fields an EDIT of a field must pass (R135). -/
def editGeo (lMax dots : Nat) (f : EditField) (v : Nat) : List GeoField :=
  match f with
  | .top => [⟨0, v, clampLine lMax v⟩]
  | .bottom => [⟨1, v, clampLine lMax v⟩]
  | .left => [⟨2, v, clampDot dots v⟩]
  | .right => [⟨3, v, clampDot dots v⟩]
  | _ => []

/-- The value an EDIT stores: clamped for a geometry field (R129, R135). -/
def editValue (lMax dots : Nat) (f : EditField) (v : Nat) : Nat :=
  match f with
  | .top => clampLine lMax v
  | .bottom => clampLine lMax v
  | .left => clampDot dots v
  | .right => clampDot dots v
  | _ => v

/-- EDIT (R135). -/
def cueEdit (c : Copy) (s : State) : CopyResult :=
  let i := c.words.slotDepth
  let v := c.words.w5.toNat
  match editField (bits c.words.w4 8 4) with
  | none => (s, .performed)
  | some f =>
    let lMax := s.rfe.working.lMax
    let d := s.cue.settings.dots
    stackUnder c i s (fun s =>
      rangeCheck c i.val (editGeo lMax d f v) s (fun s =>
        (withStack s (s.wsk.stack.onWindow i (Window.edit s.tgn.stamp f (editValue lMax d f v))),
         .performed)))

/-- FADE (R137). -/
def cueFade (c : Copy) (s : State) : CopyResult :=
  let i := c.words.slotDepth
  stackUnder c i s (fun s =>
    (withStack s (s.wsk.stack.onWindow i
       (Window.startFade s.tgn.stamp c.words.w5.toNat c.words.w6.toNat)), .performed))

/-! ## KEYLOAD (R152 to R154, R159, R119) -/

/-- The deferral of a KEYLOAD that meets a masked BUSY; the idle copy is skipped instead (R115, R119). -/
def deferLoad (isIdle : Bool) (c : Copy) (s : State) : CopyResult :=
  if isIdle then skipWith (repSkipped c.words) s
  else if s.cue.deferral = c.index then (s, .deferred)
  else
    (produce (repDeferred c.words s.kbl) { s with cue := { s.cue with deferral := c.index } }, .deferred)

/-- KEYLOAD: a cancel for count 0, else the protect check, the busy check and the load (R153, R154,
R159). -/
def cueKeyload (isIdle : Bool) (c : Copy) (s : State) : CopyResult :=
  let w := c.words
  let bank : Fin 4 := Fin.ofNat 4 w.loadBank
  if w.loadCount = 0 then
    match s.kbl.load with
    | none => (s, .performed)
    | some r =>
      if r.bank = bank then
        (produce (repSwapCancelled w.tag r s.kbl.loader) (closeLoad s), .performed)
      else onFault .busy c s (deferLoad isIdle c)
  else if isProtected s.cue.settings.protect w.loadBank then
    onFault .prot c s (skipWith (repWarnBank w w.loadBank s.cue.settings.protect))
  else if s.kbl.loader ≠ .idle then onFault .busy c s (deferLoad isIdle c)
  else (openLoad bank w.loadStart w.loadCount w.loadSource w.tag s, .performed)

/-! ## The other kinds (R116, R120 to R125, R188) -/

/-- Lockdown is active (R161). -/
def State.lockdownActive (s : State) : Bool := s.cue.settings.lockdown && s.pins.tally

/-- The lockdown check of SETTINGS, PHASE and SELECT (R161). -/
def lockdownCheck (c : Copy) (s : State) (ok : State → CopyResult) : CopyResult :=
  if s.lockdownActive then
    onFault .prot c s (skipWith (repWarnLockdown c.words s.pins.tally s.cue.settings.lockdown))
  else ok s

/-- The response of a masked BAD_CUE (R181). -/
def badCue (c : Copy) (word : Nat) (value : Word) (s : State) : CopyResult :=
  onFault .badCue c s (skipWith (repWarnBadCue c.words c.index word value))

/-- PHASE (R121). -/
def cuePhase (c : Copy) (s : State) : CopyResult :=
  lockdownCheck c s (fun s =>
    let h := c.words.w4.toInt
    if s.rfe.working.half < h.natAbs then badCue c 4 c.words.w4 s
    else
      let old := s.cue.settings.vOffset
      let st := { s.cue.settings with slew := c.words.w6.toNat, vOffset := c.words.w5.toNat }
      (vOffsetChange old
        { s with cue := { s.cue with settings := st }, lll := { s.lll with hTarget := h } },
       .performed))

/-- SELECT (R122): the policy reaches RFE behind the cue's own take advance and CUE/DONE, so that the
reports of a switch follow those of the cue. -/
def cueSelect (isIdle : Bool) (c : Copy) (s : State) : CopyResult :=
  lockdownCheck c s (fun s =>
    let new := policyOf c.words.w4.toNat
    let old := s.cue.settings.policy
    let s1 := { s with cue := { s.cue with settings := { s.cue.settings with policy := new } } }
    (policyArrival old new (reportDone c.words (retire isIdle s1)), .retired))

/-- SETTINGS: lockdown, validation, then take past the cue and the load adopted, take written once
(R83, R123). As the idle copy it neither moves take nor writes it (R115), but for R84's correction of a take at or
above the new length, which is written: the model's choice (DESIGN CHOICE, assumption log 46). -/
def cueSettings (isIdle : Bool) (c : Copy) (s : State) : CopyResult :=
  lockdownCheck c s (fun s =>
    match c.image with
    | none => (s, .performed)
    | some im =>
      match im.firstFailure none with
      | some t => (linkFault c.words.tag true t s, .halted)
      | none =>
        let s1 := if isIdle then s else advanceTake s
        let s2 := adoptLoad c.words.tag im s1.cue.take s1.rpw.put s1
        (reportDone c.words (if isIdle then s2 else writeTake s2), .retired))

/-- A cue level: 0 KEEP, 1 LOW, 2 HIGH (R124). -/
def cueLevel (code : Nat) (old : Bool) : Bool :=
  if code = 1 then false else if code = 2 then true else old

/-- OUTPUT (R124). -/
def cueOutput (c : Copy) (s : State) : CopyResult :=
  ({ s with tgn := { s.tgn with
      out1 := cueLevel c.words.w4.toNat s.tgn.out1
      out2 := cueLevel c.words.w5.toNat s.tgn.out2 } }, .performed)

/-- A WAITLOCK condition holds (R116). -/
def State.condMet (s : State) : WaitCond → Bool
  | .line => s.lll.locked
  | .field => s.strictLock

/-- WAITLOCK: performed when its condition is met, else the engine waits (R116). -/
def cueWaitlock (isIdle : Bool) (c : Copy) (s : State) : CopyResult :=
  let cond : WaitCond := if c.words.w4.toNat = 0 then .line else .field
  if s.condMet cond then (s, .performed)
  else
    let r : WaitRecord :=
      { copy := c, cond := cond, timeout := c.words.w5.toNat, count := 0, isIdle := isIdle }
    ({ s with cue := { s.cue with engine := .waiting, wait := some r } }, .waiting)

/-- A figure of each slot's window, 0 for an EMPTY slot (R188). -/
def Stack.figures (st : Stack) (f : Window → Nat) : Vector Nat 8 :=
  Vector.ofFn (fun i => match (st.slots[i]).window with | some w => f w | none => 0)

/-- SNAPSHOT: three records, then the masks if MASK_ALL is set (R188, R189). -/
def cueSnapshot (c : Copy) (s : State) : CopyResult :=
  let st := s.wsk.stack.stepAll s.tgn.stamp
  let tag := c.words.tag
  let s1 := produceAll
    [ repSnapA tag s.cue.take s.cue.lastFill st.slots s.cue.masks s.lll.loop s.fal.field s.rfe.active
        s.rfe.working s.lockdownActive
    , repSnapB tag st.top.val (st.figures Window.fade)
    , repSnapC tag (st.figures Window.target) s.kbl.loader.code (loaderBank s.kbl) ] s
  (if c.words.w4.toNat = 1 then { s1 with cue := { s1.cue with masks := 0x7f#7 } } else s1, .performed)

/-! ## One copy (R111, R113, R114, R180) -/

/-- Stage 3 and the effect, by kind (R180). -/
def kindEffect (isIdle : Bool) (k : CueKind) (c : Copy) (s : State) : CopyResult :=
  match k with
  | .none => (s, .performed)
  | .mark => (produce (repMark c.words) s, .performed)
  | .push => cuePush c s
  | .pop => cuePop c s
  | .exch => cueExch c s
  | .drop => cueDrop c s
  | .edit => cueEdit c s
  | .show_ => cueShow c s
  | .park => cuePark c s
  | .fade => cueFade c s
  | .keyload => cueKeyload isIdle c s
  | .phase => cuePhase c s
  | .select => cueSelect isIdle c s
  | .settings => cueSettings isIdle c s
  | .output => cueOutput c s
  | .waitlock => cueWaitlock isIdle c s
  | .snapshot => cueSnapshot c s
  | .halt => (s, .halting)

/-- The three stages of checks and the effect of one copy (R113, R180). -/
def judgeCopy (isIdle : Bool) (c : Copy) (s : State) : CopyResult :=
  match c.words.badField, cueKind c.words.kind with
  | some (w, v), _ => badCue c w v s
  | none, none => badCue c 0 c.words.kindWord s
  | none, some k =>
    if c.standing = .past then
      onFault .late c s (fun s =>
        if c.words.lateRun then kindEffect isIdle k c (produce (repLate c.words) s)
        else skipWith (repSkipped c.words) s)
    else kindEffect isIdle k c s

/-- A copy is executed: its outcome retires it or stops the engine (R111, R112, R114, R125). The second
part says whether it was executed or skipped, the third whether the next copy follows. -/
def execCopy (isIdle : Bool) (c : Copy) (s : State) : State × Bool × Bool :=
  match judgeCopy isIdle c s with
  | (s1, .performed) => (reportDone c.words (retire isIdle s1), true, true)
  | (s1, .retired) => (s1, true, true)
  | (s1, .skipped) => (retire isIdle s1, true, true)
  | (s1, .halting) =>
    let s2 := reportDone c.words (retire isIdle s1)
    (produce (repHaltRequested c.words s2.cue.take) (latch .halt (enterHalted .halt s2)), true, false)
  | (s1, .deferred) => (s1, false, false)
  | (s1, .waiting) => (s1, false, false)
  | (s1, .halted) => (s1, false, false)

/-- The due list, in order, up to a copy that stops it; the number executed or skipped (R110, R111). -/
def execDue : List Copy → State → State × Nat
  | [], s => (s, 0)
  | c :: cs, s =>
    match execCopy false c s with
    | (s1, n, true) => let r := execDue cs s1; (r.1, bitOf n + r.2)
    | (s1, n, false) => (s1, bitOf n)

/-- The idle copy, executed after the due list (R115). -/
def execIdle (c : Option Copy) (s : State) : State × Nat :=
  match c with
  | some c => let r := execCopy true c s; (r.1, bitOf r.2.1)
  | none => (s, 0)

/-! ## The engine's boundary work (R107, R110, R117, R118) -/

/-- The end of a scan in progress (R107). -/
def endScan (s : State) : State :=
  { s with cue := { s.cue with scan := none }, mpt := s.mpt.endScan }

/-- The due list and the idle copy are taken out of the engine, empty after every boundary (R110). -/
def clearDue (s : State) : State := { s with cue := { s.cue with due := [], idle := none } }

/-- RUNNING at a boundary: HOLD takes it to HELD, or the due list and the idle copy are executed
(R110, R118). -/
def runningBoundary (s : State) : State × Nat :=
  let s0 := clearDue (endScan s)
  if s.pins.hold then
    ({ s0 with cue := { s0.cue with engine := .held, heldFrom := some .running } }, 0)
  else
    let r := execDue s.cue.due s0
    if s.cue.due.isEmpty then execIdle s.cue.idle r.1 else r

/-- A wait ends with its WAITEND report and the cue is completed (R117). -/
def endWait (met : Bool) (w : WaitRecord) (s : State) : State :=
  let s1 := produce (repWaitend met w)
    { s with cue := { s.cue with wait := none, engine := .running } }
  reportDone w.copy.words (retire w.isIdle s1)

/-- A wait with this record is over at its timeout when unmet (R117). -/
def WaitRecord.expired (w : WaitRecord) : Bool := decide (w.timeout ≠ 0 ∧ w.timeout ≤ w.count)

/-- The test of the wait condition at a boundary (R117). -/
def waitTest (w : WaitRecord) (s : State) : State × Nat :=
  if s.condMet w.cond then (endWait true w s, 1)
  else if w.expired then (endWait false w s, 1)
  else ({ s with cue := { s.cue with engine := .waiting, wait := some w } }, 0)

/-- The engine's boundary work, with the due count (R110). -/
def engineBoundary (s : State) : State × Nat :=
  if s.cue.startup then (s, 0)
  else
    match s.cue.engine with
    | .stopped => (s, 0)
    | .halted => (s, 0)
    | .running => runningBoundary s
    | .waiting =>
      match s.cue.wait with
      | none => (s, 0)
      | some w =>
        let w1 := { w with count := w.count + 1 }
        if s.pins.hold then
          ({ s with cue := { s.cue with engine := .held, heldFrom := some .waiting, wait := some w1 } }, 0)
        else waitTest w1 s
    | .held =>
      if s.pins.hold then (s, 0)
      else
        let s1 := { s with cue := { s.cue with heldFrom := none } }
        match s.cue.heldFrom, s.cue.wait with
        | some .waiting, some w => waitTest w s1
        | _, _ => ({ s1 with cue := { s1.cue with engine := .running } }, 0)

end Sys2Proof.Machine
end

