-- ==== Sys2Proof/Machine/Traffic.lean ====
section
/-!
DEFINITION. The words of the request in service going over the bus, and the MEMORY fault
(spec/05 section 5.7, R94 to R96, R184).
-/

namespace Sys2Proof.Machine

/-- How far a cue-record read goes: on to the settings image for a SETTINGS cue that is not future
(R106). -/
def State.recordGoesOn (s : State) (index : Nat) (n : Stamp) (ws : List Word) : Bool :=
  let c := CueWords.ofList ws
  c.isSettings && (c.standing n (s.cue.deferral = some index)).isSome

/-- The byte addresses of the words a request in service goes through, its traffic being `bus`: a record
is read on to its image when it calls for one, and an idle cue of kind NONE ends at its first word
(R106, R108). -/
def State.runAddrs (s : State) (req : Request) (bus : BusTraffic) : List Nat :=
  match req with
  | .cueRecord a index n _ =>
    if s.recordGoesOn index n (s.mem.readRun (recordAddrs a) bus).2 then req.addrs
    else recordAddrs a
  | .idleCue l =>
    let at_ := recordAddrs (linkWord l 6)
    let c := CueWords.ofList (s.mem.readRun at_ bus).2
    if c.kind = 0 then at_.take 1 else if c.isSettings then req.addrs else at_
  | _ => req.addrs

/-- A read in service is carried out: the port is idle, and the words are those memory held as each was
read. -/
def serveRead (req : Request) (bus : BusTraffic) (s : State) : State × List Word :=
  let r := s.mem.readRun (s.runAddrs req bus) bus
  ({ freePort s with mem := r.1 }, r.2)

/-- A write in service is carried out. -/
def serveWrite (req : Request) (bus : BusTraffic) (s : State) : State :=
  { freePort s with mem := s.mem.writeRun req.writes bus }

/-- The key loader takes the word read and asks for the next (R155, R156). -/
def keyWordRead (w : Word) (s : State) : State :=
  match s.kbl.load with
  | none => s
  | some r =>
    let s1 := { s with kbl := s.kbl.takeWord r w }
    if s1.kbl.loader = .loading then postKey (r.source + 2 * (r.wordsRead + 1)) s1 else s1

/-! ## The MEMORY fault (R95, R173, R184) -/

/-- The tick at which the port finds the failure (R95). -/
def failInstant (x : Service) : BusFailure → Tick
  | .notGranted => x.asked + 1152
  | .noAck issued => issued + 1152
  | .busError t => t

/-- The number of the failing word: the first when the bus was not granted (R182). -/
def failWord (done : Nat) : BusFailure → Nat
  | .notGranted => 0
  | _ => done

/-- The request in service can fail at word n: one of its words, and where a STOP has cut it short the one
in flight (R95, R96, R101). -/
def State.canFail (s : State) (x : Service) (why : BusFailure) (n : Nat) (bus : BusTraffic) : Bool :=
  match x.cut with
  | none => decide (n < (s.runAddrs x.req bus).length)
  | some k => decide (n + 1 = k ∧ n < x.req.addrs.length ∧ why ≠ .notGranted)

/-- How many words of the request in service the bus has at a STOP: a free value, at most as many as the
request goes through with memory as it stands (R96; assumption log 13). -/
def State.wordsAtStop (s : State) : Nat :=
  match s.mpt.service with
  | some x => min (Config.wordsIssued s.draw) (s.runAddrs x.req []).length
  | none => 0

/-- The tag HALT/MEMORY carries: that of the cue being fetched once its tag word has been read, else 0
(R182; assumption log 24). -/
def State.fetchTag (s : State) (req : Request) (n : Nat) (bus : BusTraffic) : Word :=
  let tag (a : Nat) : Word :=
    if 3 < n then (CueWords.ofList (s.mem.readRun (recordAddrs a) bus).2).tag else 0
  match req with
  | .cueRecord a _ _ _ => tag a
  | .idleCue l => tag (linkWord l 6)
  | _ => 0

/-- The request in service fails at word n: the words before it stand, every request is dropped, the
engine is HALTED with MEMORY, the writers are suspended, and a LOADING load is aborted
(R95, R160, R173, R184; assumption log 26). -/
def memoryFault (req : Request) (at_ : Tick) (n : Nat) (reached : Bool) (bus : BusTraffic) (s : State) :
    State :=
  let addr := wrapAddr (req.addrs.getD n 0)
  let tag := s.fetchTag req n bus
  let landed := req.writes.take (n + bitOf reached)
  let s1 := { s.atTick at_ with mem := s.mem.writeRun landed bus }
  let s2 := { enterHalted .memory (dropWriters s1) with mpt := {} }
  let s3 := { s2 with
    cue := { s2.cue with startup := false }
    rpw := { s2.rpw with suspended := true } }
  abortLoading .memory (produce (repHaltMemory tag req.path addr s.cue.take) (latch .memory s3))

end Sys2Proof.Machine
end

