-- ==== Sys2Proof/Machine/Control.lean ====
section
/-!
DEFINITION. Power-on, start-up, and the computer's port accesses (spec/04 sections 4.6 and 4.7, spec/05
section 5.1, spec/06 section 6.2, spec/09 section 9.6).
-/

namespace Sys2Proof.Machine

/-! ## Port-1 writes (R76, R79, R99) -/

/-- A port-1 write: ignored before strap-done; taken, it returns the port-0 sequencer to its first half,
applies its function, and then hands its START and CLEAR bits on (R76, R79, R99, R177). -/
def portOne (function : State → State) (start clear : Bool) (s : State) : State :=
  if s.tgn.strapDone then
    ackBits start clear (function { s with cue := { s.cue with second := false } })
  else s

/-- RUN (R100, R81). A lone put write owed by a completion after the STOP (R172) stays owed and is posted after
the load: the model's choice (DESIGN CHOICE, assumption log 48). -/
def runFunction (s : State) : State :=
  if s.cue.engine = .stopped then
    postCue (.startupLoad s.cue.link.toNat)
      { s with
        cue := { s.cue with
          engine := .running, startup := true, linkValid := false, due := [], idle := none
          wait := none, heldFrom := none, deferral := none, haltReason := none, seenEmpty := true
          badFill := false, trigger := none }
        rpw := { s.rpw with suspended := false, fullWait := false, badGet := false } }
  else s

/-- STOP (R101, R96, R160); how far the request in service has come is a free value (assumption log 13). -/
def stopFunction (s : State) : State :=
  if s.cue.engine = .stopped then s
  else
    abortLoad .stop (dropWriters
      { s with
        cue := { s.cue with
          engine := .stopped, startup := false, scan := none, due := [], idle := none, wait := none
          heldFrom := none, deferral := none, haltReason := none }
        mpt := s.mpt.stop s.wordsAtStop
        draw := s.draw + 1 })

/-- CONTINUE (R102, R183, R185). -/
def continueFunction (s : State) : State :=
  if decide (s.cue.engine = .halted) && s.cue.linkValid then
    postTake
      { s with
        cue := { s.cue with engine := .running, haltReason := none }
        rpw := { s.rpw with suspended := false } }
  else s

/-- RFE's soft reset (R19, R3). -/
def Rfe.softReset (r : Rfe) (straps : Straps) : Rfe :=
  { r with
    inA := { r.inA.restart with lossLatch := false }
    inB := { r.inB.restart with lossLatch := false }
    active := .a, absence := 0, differ := 0, warned := false
    working := Straps.startStd straps }

/-- TGN's soft reset (R60, R75, R77). KEY is 0 at once with the stack empty (R145), under BARS straps too,
where R71 and R148 would hold the level: there the model's choice (DESIGN CHOICE, assumption log 41). -/
def Tgn.softReset (t : Tgn) : Tgn :=
  { t with stamp := 0, out1 := false, out2 := false, delay := 0, drives := [], key := 0 }

/-- SOFT RESET: every block at its soft-reset values; the words of the request in service that the bus
already has stand in memory (R3, R19, R22, R59, R77, R89, R96, R103, R127, R150, R151, R164, R190;
assumption log 27). -/
def softResetFunction (issued : Nat) (s : State) : State :=
  let straps := s.tgn.straps
  let landed := match s.mpt.service with
    | some x => x.req.writes.take issued
    | none => []
  { s with
    rfe := s.rfe.softReset straps
    lll := s.lll.softReset (Straps.startStd straps)
    fal := {}
    tgn := s.tgn.softReset
    mpt := {}
    cue := { settings := Settings.default straps }
    wsk := {}
    kbl := { banks := s.kbl.banks }
    rpw := {}
    tst := if s.tst.mode = .internalLoop then Tst.start straps s.tst.lines s.tst.run
      else Tst.start straps s.entryLines []
    mem := s.mem.writeWords landed }

/-! ## The commands -/

abbrev Result := Host.Outcome State Fault Refusal

/-- POWER_ON (R18, R21, R59, R64, R76, R96, R97, R127, R150, R151, R164, R179, R190): main memory, the
studio's lines and the computer's last read word are not the part's and stay. -/
def execPowerOn (straps : Straps) (s : State) : Result :=
  .next { State.powerOn straps s.mem with
    pins := s.pins, readData := s.readData, draw := s.draw, pending := s.pending }

/-- STRAP_DONE (R76): at tick 1024. -/
def execStrapDone (s : State) : Result :=
  .next (if s.tgn.strapDone then s
    else { s.atTick 1024 with tgn := { s.tgn with strapDone := true } })

/-- The link address with one half written (R78). -/
def linkWithHalf (link : Addr) (second : Bool) (w : Word) : Addr :=
  if second then (w.extractLsb' 0 8 : BitVec 8) ++ (link.extractLsb' 0 16)
  else (link.extractLsb' 16 8) ++ w

/-- LINK_ADDRESS_WRITE (R78): taken only while STOPPED and after strap-done. -/
def execLinkAddressWrite (w : Word) (s : State) : Result :=
  .next (if s.tgn.strapDone && decide (s.cue.engine = .stopped) then
      { s with cue := { s.cue with
          link := linkWithHalf s.cue.link s.cue.second w
          second := !s.cue.second } }
    else s)

/-- LINK_ADDRESS_READ (R79): the half read is put in `readData` (assumption log 29). -/
def execLinkAddressRead (s : State) : Result :=
  .next { s with cue := { s.cue with second := !s.cue.second }, readData := s.linkHalf }

/-- RUN (R99, R100). -/
def execRun (start clear : Bool) (s : State) : Result := .next (portOne runFunction start clear s)

/-- STOP (R99, R101). -/
def execStop (start clear : Bool) (s : State) : Result := .next (portOne stopFunction start clear s)

/-- CONTINUE (R99, R102). -/
def execContinue (start clear : Bool) (s : State) : Result :=
  .next (portOne continueFunction start clear s)

/-- SOFT_RESET (R99, R103): the START and CLEAR bits are disregarded. -/
def execSoftReset (_start _clear : Bool) (issued : Nat) (s : State) : Result :=
  .next (portOne (softResetFunction issued) false false s)

/-- NONE_FUNCTION (R196, R99): neither bit. -/
def execNoneFunction (s : State) : Result := .next (portOne id false false s)

/-- START (R177). -/
def execStart (s : State) : Result := .next (portOne id true false s)

/-- CLEAR (R177). -/
def execClear (s : State) : Result := .next (portOne id false true s)

/-- CAUSE_PORT_READ (R176): the causes are put in `readData` (assumption log 29). -/
def execCausePortRead (s : State) : Result :=
  .next { s with
    readData := s.causeWord
    rpw := { s.rpw with
      seen := s.rpw.latched &&& ~~~Cause.inputChange.bit
      latched := s.rpw.latched &&& ~~~Cause.inputChange.bit } }

/-- IGNORED_PORT_WRITE (R196). -/
def execIgnoredPortWrite (_w : Word) (s : State) : Result := .next s

end Sys2Proof.Machine
end

