-- ==== Sys2Proof/Machine/Memory.lean ====
section
/-!
DEFINITION. The commands of the memory traffic (spec/05 section 5.7): grants, completions of each kind of
request, the report writer's next act, and the MEMORY fault. A completion of a request that is not in
service leaves the state as it is (assumption log 4); a discarded read frees the port and has no other
effect (R98, R107).
-/

namespace Sys2Proof.Machine

/-- REQUEST_GRANT (R94). -/
def execRequestGrant (s : State) : Result := .next (grant s)

/-- MEMORY_FAULT (R95): the request in service fails at a word it can fail at. -/
def execMemoryFault (why : BusFailure) (done : Nat) (reached : Bool) (bus : BusTraffic) (s : State) :
    Result :=
  .next (match s.mpt.service with
    | some x =>
      let n := failWord done why
      if s.canFail x why n bus then
        memoryFault x.req (failInstant x why) n (reached && decide (why ≠ .notGranted)) bus s
      else s
    | none => s)

/-- STARTUP_LOAD_COMPLETE (R81, R82). -/
def execStartupLoadComplete (bus : BusTraffic) (s : State) : Result :=
  .next (match s.mpt.service with
    | some ⟨.startupLoad l, discard, _, _⟩ =>
      let r := serveRead (.startupLoad l) bus s
      if discard then r.1 else startupLoaded l r.2 r.1
    | _ => s)

/-- FILL_READ_COMPLETE (R85, R104). -/
def execFillReadComplete (bus : BusTraffic) (s : State) : Result :=
  .next (match s.mpt.service with
    | some ⟨.fillRead l n, discard, _, _⟩ =>
      let r := serveRead (.fillRead l n) bus s
      if discard then r.1 else fillRead n (r.2.getD 0 0).toNat (r.2.getD 1 0).toNat r.1
    | _ => s)

/-- CUE_RECORD_READ (R105, R106). -/
def execCueRecordRead (bus : BusTraffic) (s : State) : Result :=
  .next (match s.mpt.service with
    | some ⟨.cueRecord a index n l, discard, _, _⟩ =>
      let r := serveRead (.cueRecord a index n l) bus s
      match s.cue.scan with
      | some sc => if discard then r.1 else recordRead sc.n index r.2 r.1
      | none => r.1
    | _ => s)

/-- IDLE_CUE_READ (R108). -/
def execIdleCueRead (bus : BusTraffic) (s : State) : Result :=
  .next (match s.mpt.service with
    | some ⟨.idleCue l, discard, _, _⟩ =>
      let r := serveRead (.idleCue l) bus s
      if discard then r.1 else idleRead r.2 r.1
    | _ => s)

/-- TAKE_WRITE_COMPLETE (R112). -/
def execTakeWriteComplete (bus : BusTraffic) (s : State) : Result :=
  .next (match s.mpt.service with
    | some ⟨.takeWrite a v, _, _, _⟩ => serveWrite (.takeWrite a v) bus s
    | _ => s)

/-- KEY_SOURCE_WORD_READ (R155, R156). -/
def execKeySourceWordRead (bus : BusTraffic) (s : State) : Result :=
  .next (match s.mpt.service with
    | some ⟨.keySource a, discard, _, _⟩ =>
      let r := serveRead (.keySource a) bus s
      if discard then r.1 else keyWordRead (r.2.getD 0 0) r.1
    | _ => s)

/-- RECORD_WRITE (R167, R169). -/
def execRecordWrite (s : State) : Result := .next (writeRecord s)

/-- REPORT_WRITE_COMPLETE (R168 to R172). -/
def execReportWriteComplete (bus : BusTraffic) (s : State) : Result :=
  .next (match s.mpt.service with
    | some ⟨.reportWrite a rec gap pa put, _, _, _⟩ =>
      reportWritten rec gap put (serveWrite (.reportWrite a rec gap pa put) bus s)
    | _ => s)

/-- GET_READ_COMPLETE (R86). -/
def execGetReadComplete (bus : BusTraffic) (s : State) : Result :=
  .next (match s.mpt.service with
    | some ⟨.getRead a forRecord, _, _, _⟩ =>
      let r := serveRead (.getRead a forRecord) bus s
      getRead forRecord (r.2.getD 0 0).toNat (r.2.getD 1 0).toNat r.1
    | _ => s)

/-- LONE_PUT_WRITE_COMPLETE (R84). -/
def execLonePutWriteComplete (bus : BusTraffic) (s : State) : Result :=
  .next (match s.mpt.service with
    | some ⟨.lonePut a put, _, _, _⟩ => rpwNext (serveWrite (.lonePut a put) bus s)
    | _ => s)

/-- STATUS_WORD_WRITE_COMPLETE (R92). -/
def execStatusWordWriteComplete (bus : BusTraffic) (s : State) : Result :=
  .next (match s.mpt.service with
    | some ⟨.statusWord a w, _, _, _⟩ => postStatus (serveWrite (.statusWord a w) bus s)
    | _ => s)

end Sys2Proof.Machine
end

