-- ==== Sys2Proof/Machine/Reference.lean ====
section
/-!
DEFINITION. The commands of the reference inputs (spec/01_reference_inputs_and_sync_separation.md): the
classifier's edges, the slicer's update and the presence window.
-/

namespace Sys2Proof.Machine

/-! ## The classifier (R4, R5) -/

/-- CLASSIFIER_ARMED (R4): a DISARMED classifier and a sample above S. -/
def execClassifierArmed (i : Input) (t : Tick) (sample : Byte) (s : State) : Result :=
  let r := s.input i
  .next (if decide (r.classifier = .disarmed) && r.above sample then
      (s.atTick t).setInput i { r with classifier := .armed }
    else s)

/-- A leading edge found at a tick abandons a measurement it falls into: one whose tick u + 23 it does
not come after (R2). -/
def measureAfterEdge (m : Option Measure) (tick : Tick) : Option Measure :=
  m.filter (fun x => !Tick.reached (x.u + 23) tick)

/-- LEADING_EDGE (R4): an ARMED classifier and `s1` at or below S at tick t+1. `s0` was above the S it was
compared with; where the update at tick u+23 has raised S past it since, the edge stands, and where R4's
formula gives no fraction in 0..16 it is a free value: the model's choice (DESIGN CHOICE, assumption log 39). -/
def execLeadingEdge (i : Input) (t : Tick) (s0 s1 : Byte) (s : State) : Result :=
  let r := s.input i
  .next (if decide (r.classifier = .armed) && !r.above s1 then
      (s.atTick (t + 1)).setInput i
        { r with
          classifier := .inPulse (leadingEdgeTime r.slicer.s t s0 s1) s1
          measure := measureAfterEdge r.measure (t + 1) }
    else s)

/-- The arrivals of LLL and FAL come from RFE's active input, and not from TST (R7, R190). -/
def State.handsOn (s : State) (i : Input) : Bool :=
  decide (s.rfe.active = i ∧ s.tst.mode ≠ .internalLoop)

/-- A LINE pulse: measured, counted, and handed to LLL if its input is active (R2, R5, R7, R8). -/
def linePulse (i : Input) (edge : Pu) (u : Tick) (tip : Byte) (s : State) : State :=
  let r := (s.input i).countLine edge
  let s1 := s.setInput i { r with measure := some ⟨tip, u⟩ }
  if s.handsOn i then lineArrival edge u s1 else s1

/-- What a classified pulse does (R5, R7). -/
def classified (k : PulseClass) (i : Input) (edge : Pu) (u : Tick) (tip : Byte) (s : State) : State :=
  match k with
  | .line => linePulse i edge u tip s
  | .broad => if s.handsOn i then broadPulse edge s else s
  | .equalising => s
  | .noise => s

/-- PULSE_CLASSIFICATION (R5): a pulse in progress and a sample above S, before the pulse overruns. A sample
above S at the very tick at which the width is 1501 ends no pulse, PULSE_OVERRUN's tick being that one, where R4's
table alone would give a trailing edge and ARMED: the model's choice (DESIGN CHOICE, assumption log 49). -/
def execPulseClassification (i : Input) (u : Tick) (s1 least : Byte) (s : State) : Result :=
  let r := s.input i
  .next (match r.classifier with
    | .inPulse edge tip =>
      let w := pulseWidth edge u
      if r.above s1 && decide (w ≤ 1500) then
        classified (pulseClass w) i edge u (if least < tip then least else tip)
          ((s.atTick u).setInput i { r with classifier := .armed })
      else s
    | _ => s)

/-- PULSE_OVERRUN (R5): the tick at which the pulse's width reaches 1501, whatever the sample there (assumption
log 49). -/
def execPulseOverrun (i : Input) (s : State) : Result :=
  let r := s.input i
  .next (match r.classifier with
    | .inPulse edge _ =>
      (s.atTick (Pu.tick edge + 1501)).setInput i { r with classifier := .disarmed }
    | _ => s)

/-- SLICER_UPDATE (R2): a measurement in progress and its eight blank samples, at tick u + 23. -/
def execSlicerUpdate (i : Input) (blank : List Byte) (s : State) : Result :=
  let r := s.input i
  .next (match r.measure with
    | some m =>
      if blank.length = 8 then
        (s.atTick (m.u + 23)).setInput i
          { r with slicer := r.slicer.update m.tip.toNat (blankMean blank), measure := none }
      else s
    | none => s)

/-! ## The presence window (R8, R9) -/

/-- WINDOW_END (R9). -/
def execWindowEnd (s : State) : Result :=
  let s1 := windowWork (s.atTick s.rfe.windowAt)
  .next { s1 with rfe := { s1.rfe with windowAt := s.rfe.windowAt + 720000 } }

end Sys2Proof.Machine
end

