-- ==== Sys2Proof/Machine/Line.lean ====
section
/-!
DEFINITION. The end of a generated line and the field boundary (spec/02 section 2.2, spec/04 section 4.2,
spec/11): the work of every block at that one event, in the orders the spec fixes and, where it leaves
them open, in the order the event's operand gives (assumption logs 5 and 6).
-/

namespace Sys2Proof.Machine

/-! ## The line that ends (R23 to R35, R55, R193) -/

/-- What LLL's evaluation of the ending line leaves: the state, the following line's Len, and whether
the loop entered HOLDOVER here. -/
structure Ended where
  s       : State
  len     : Nat
  entered : Bool

/-- TST takes a phase error offered at a line end, if it belongs to the record's field (R193). -/
def takeOffer (offer : Option Int) (s : State) : State :=
  match offer, s.tst.count with
  | some e, some r =>
    if decide (r.stamp = s.tgn.stamp) && decide (1 < e.natAbs) then
      { s with tst := { s.tst with count := some { r with excess := satSucc 1023 r.excess } } }
    else s
  | _, _ => s

/-- LLL's evaluation of the line in progress (R23 steps 1 and 2). -/
def State.evaluation (s : State) : LineEval :=
  s.lll.evaluate s.cue.settings s.rfe.working s.tgn.line

def evaluateLine (s : State) : Ended :=
  let r := s.evaluation
  { s := takeOffer r.offer (produceAll r.reports { s with lll := r.lll }), len := r.len
    entered := r.entered }

/-- FAL's miss check falls at the end of line 16 (R55). -/
def State.missLine (s : State) : Bool := decide (s.tgn.line = 16)

/-- The line's evaluation and FAL's miss check, in the order the event gives (R55; assumption log 6). -/
def endLine (missFirst : Bool) (s : State) : Ended :=
  if s.missLine then
    if missFirst then evaluateLine (missCheck s)
    else
      let r := evaluateLine s
      { r with s := missCheck r.s }
  else evaluateLine s

/-- The line end is sampled: the tick is that of the next ideal start, and HOLD and TALLY stand as
found (R23, R118, R161). A TALLY that changes at the moment of a boundary has one level for every lockdown check
of it and for its status copy: the model's choice (DESIGN CHOICE, assumption log 10). -/
def lineInstant (x : LineInputs) (s : State) : State :=
  { s.atTick s.lineEndTick with pins := { hold := x.hold, tally := x.tally } }

/-- The line end completes the field in progress (R65). -/
def State.endsField (s : State) : Bool := !decide (s.tgn.line < s.tgn.length)

/-! ## The line that begins -/

/-- Insert an edge into a run in order of time. -/
def insertEdge (e : Pu) : List Pu → List Pu
  | [] => [e]
  | x :: xs => if (e - x).toInt < 0 then e :: x :: xs else x :: insertEdge e xs

/-- The first leading edge of the run placed at the start of this line, if one is (R192). Where the length is
raised, or V changed, after a boundary's run was placed, so that a line of the table comes again, a second run
is placed for that boundary: the model's choice (DESIGN CHOICE, assumption log 53). -/
def State.runPlaced (s : State) : Option Pu :=
  let start := Qu.pu s.lll.ideal
  let v := s.cue.settings.vOffset
  let line := s.tgn.line
  let len := s.tgn.length
  match s.tgn.parity with
  | .one =>
    if line + v = len then some (start + BitVec.ofNat 36 (s.lll.p / 32))
    else if v = 0 ∧ line = 1 then some start
    else none
  | .two => if 0 < v ∧ line + v = len + 1 then some start else none

/-- TST at a line start in INTERNAL_LOOP: the line's arrival is to come, one of the line before is kept
only where its tick is that of the line end, and a run may be placed (R26, R191, R192). -/
def tstLineStart (s : State) : State :=
  if s.tst.mode = .internalLoop then
    let run := match s.runPlaced with
      | some e =>
        insertEdge (e + BitVec.ofNat 36 (s.lll.p / 16))
          (insertEdge (e + BitVec.ofNat 36 (s.lll.p / 32)) (insertEdge e s.tst.run))
      | none => s.tst.run
    let late := s.tst.lines.filter (fun e => decide (tstLineTick e = s.tgn.lineStart))
    { s with tst := { s.tst with lines := late ++ [Qu.pu s.lll.ideal], run := run } }
  else s

/-- The line that begins: its start tick, D and layout, with no dot clocked yet. KEY goes on in a line cut
short inside its active span, until the span's end (R65, R69 to R71; assumption logs 17 and 21). -/
def beginLine (s : State) : State :=
  let start := Qu.tick s.lll.ideal
  tstLineStart
    { s with tgn := { s.tgn with
        lineStart := start
        lineD := s.cue.settings.dots
        lineStd := s.rfe.working
        nextDot := 0
        key := if Tick.reached start s.tgn.keyUntil then 0 else s.tgn.key } }

/-! ## A line end inside a field (R65, R67) -/

/-- The scan point falls at the end of this line (R67). -/
def State.scanHere (s : State) : Bool :=
  decide (s.tgn.line + s.cue.settings.scanLines = s.tgn.length ∧ 1 ≤ s.tgn.line) && !s.tgn.scanDone

/-- The scan point: the flag is set and the engine told (R67, R104). -/
def scanPoint (s : State) : State :=
  if s.scanHere then scanBegin { s with tgn := { s.tgn with scanDone := true } } else s

/-- The following line is numbered one higher (R65). -/
def nextLine (s : State) : State := { s with tgn := { s.tgn with line := s.tgn.line + 1 } }

/-! ## The field boundary (R66) -/

/-- TGN's own step: the new stamp and parity, line 1, the scan-done flag clear (R60, R65). -/
def nextField (s : State) : State :=
  { s with tgn := { s.tgn with
      stamp := s.tgn.stamp + 1
      parity := s.tgn.parity.other
      line := 1
      scanDone := false } }

/-- LLL hands the field's statistics to RPW, and TST reports the record of the field that ended
(R32, R193). Of a field whose record opened partway through, TEST/FIELD carries all the accepted lines of the
statistics handed on, where R193 also speaks of the lines counted since: the model's choice (DESIGN CHOICE,
assumption log 51). -/
def handStatistics (ended : Stamp) (s : State) : State :=
  let f := s.lll.stats
  let s1 := { s with lll := { s.lll with stats := {} }, rpw := { s.rpw with ended := f } }
  match s.tst.count with
  | some r =>
    if r.stamp = ended then
      produce (repTestField r.excess f.accepted)
        { s1 with tst := { s1.tst with count := some ⟨s.tgn.stamp, 0⟩ } }
    else s1
  | none => s1

/-- The holdover count reaches its limit at this boundary (R40). -/
def State.holdoverOver (s : State) : Bool :=
  s.lll.inHoldover && decide (s.cue.settings.holdLimit ≤ s.lll.holdover + 1)

/-- LLL counts the field in holdover, and expires at the limit; a boundary at the line end that entered
HOLDOVER does not count (R40, R41, R56). -/
def countHoldover (entered : Bool) (s : State) : State :=
  if entered || !s.lll.inHoldover then s
  else if s.holdoverOver then falSeek .free (s.withLoop (s.lll.expire s.rfe.working))
  else { s with lll := { s.lll with holdover := satSucc 255 s.lll.holdover } }

/-- The stack and banks of the field that ended are kept while dots of it are still to be keyed
(R140, R150). -/
def keepEnded (s : State) : State :=
  { s with
    wsk := { s.wsk with prev := if s.tgn.drives.isEmpty then none else some s.wsk.stack }
    kbl := { s.kbl with replaced := none } }

/-- WSK's boundary work (R139). -/
def stepFades (s : State) : State :=
  { s with wsk := { s.wsk with stack := s.wsk.stack.stepAll s.tgn.stamp } }

/-- TST's comparison of the new stamp with the entry stamp would close the record unlocked (R194). -/
def State.nolockHere (s : State) : Bool :=
  match s.tst.lockTime with
  | some entry => decide (8 ≤ (s.tgn.stamp - entry).toNat) && !s.strictLock
  | none => false

/-- TST's comparison at a boundary (R194). -/
def nolockTest (s : State) : State :=
  if s.nolockHere then
    produce (repTestNolock s.lll.loop s.fal.field) { s with tst := { s.tst with lockTime := none } }
  else s

/-- Do a block's work here if here is its place. -/
def atPlace {α : Type} [DecidableEq α] (p here : α) (f : State → State) (s : State) : State :=
  if p = here then f s else s

/-- The boundary up to the cue engine's work: TGN, LLL, then FAL, WSK and TST where their work comes
first (R66). -/
def boundaryHead (o : WorkOrder) (entered : Bool) (s : State) : State :=
  let s1 := keepEnded (countHoldover entered (handStatistics s.tgn.stamp (nextField s)))
  let s2 := if o.falLate then s1 else falBoundary s1
  atPlace o.tst .first nolockTest (atPlace o.wsk .first stepFades s2)

/-- The cue engine's boundary work, with FAL, WSK and TST where their work comes after it; with the
due count (R110). -/
def boundaryCues (o : WorkOrder) (s : State) : State × Nat :=
  let r := engineBoundary s
  let s1 := if o.falLate then falBoundary r.1 else r.1
  (atPlace o.tst .middle nolockTest (atPlace o.wsk .middle stepFades s1), r.2)

/-- The swap test, WSK's late fade steps, and FIELDSTAT where it comes before the status copy, with TST's
comparison between them where that is its place (R139, R157, R174, R194; assumption log 6). -/
def swapAndStat (o : WorkOrder) (s : State) : State :=
  let tst := atPlace o.tst .between nolockTest
  let swap := fun s => atPlace o.wsk .last stepFades (swapTest s)
  if o.stat = .first then swap (tst (fieldstat s))
  else atPlace o.stat .middle fieldstat (tst (swap s))

/-- The boundary after the cue engine: the swap test and FIELDSTAT, the get read, the status copy and the
delay in use, with TST's comparison at its place among them (R72, R86, R92, R157, R167, R174; assumption
log 6). That the boundary's get read is asked for behind the cues and the swap test is the model's choice (DESIGN
CHOICE, assumption log 50). -/
def boundaryTail (o : WorkOrder) (due : Nat) (s : State) : State :=
  let tstAt := fun here => atPlace o.tst here nolockTest
  let s2 := tstAt .beforeCopy (swapAndStat o s)
  let s3 := tstAt .afterCopy (statusCopy due (boundaryGet s2))
  let s4 := tstAt .last (atPlace o.stat .last fieldstat s3)
  { s4 with tgn := { s4.tgn with delay := s4.cue.settings.pipeDelay } }

/-- The field boundary (R66). -/
def fieldBoundary (o : WorkOrder) (entered : Bool) (s : State) : State :=
  let r := boundaryCues o (boundaryHead o entered s)
  boundaryTail o r.2 r.1

/-! ## The whole line end -/

/-- The state at a line end once the line has been evaluated and the grid moved on (R23 steps 1 to 3). -/
def gridStep (x : LineInputs) (s : State) : Ended :=
  let r := endLine x.order.missFirst (lineInstant x s)
  { r with s := { r.s with lll := r.s.lll.advance r.s.cue.settings r.len } }

/-- A generated line end, with all that falls at it (R23, R65, R66). The line's evaluation comes before the
boundary, so an entry to HOLDOVER at the flywheel limit is always seen by the wait test of that boundary, where
R117 lets either come first: the model's choice (DESIGN CHOICE, assumption log 52). -/
def lineEndWork (x : LineInputs) (s : State) : State :=
  let r := gridStep x s
  beginLine (if r.s.endsField then fieldBoundary x.order r.entered r.s else nextLine (scanPoint r.s))

/-! ## What falls at this line end (assumption log 5) -/

/-- The flywheel limit is reached at this line end (R31). -/
def State.flywheelHere (x : LineInputs) (s : State) : Bool := (gridStep x s).entered

/-- The miss check of this line end counts the fourth miss (R55). -/
def State.missedHere (x : LineInputs) (s : State) : Bool :=
  let t := if x.order.missFirst then s else (evaluateLine (lineInstant x s)).s
  s.missLine && t.fal.fourthMiss t.lll.inHoldover

/-- This line end raises the scan point (R67). -/
def State.scanNow (x : LineInputs) (s : State) : Bool :=
  let t := (gridStep x s).s
  !t.endsField && t.scanHere

/-- The holdover limit is reached at this line end's boundary (R40, R41). -/
def State.expiresHere (x : LineInputs) (s : State) : Bool :=
  let r := gridStep x s
  r.s.endsField && !r.entered && r.s.holdoverOver

/-- The state the cue engine finds at this line end's boundary. -/
def State.atCues (x : LineInputs) (s : State) : State :=
  let r := gridStep x s
  boundaryHead x.order r.entered r.s

/-- This line end's boundary produces TEST/NOLOCK (R194). -/
def State.nolockNow (x : LineInputs) (s : State) : Bool :=
  let r := gridStep x s
  r.s.endsField &&
    match x.order.tst with
    | .first => (boundaryHead { x.order with tst := .last } r.entered r.s).nolockHere
    | _ => (boundaryCues { x.order with tst := .last } (s.atCues x)).1.nolockHere

/-- The engine's boundary work ends its wait at the timeout (R117). -/
def State.waitExpires (s : State) : Bool :=
  match s.cue.wait with
  | none => false
  | some w =>
    !s.cue.startup && !s.pins.hold && !s.condMet w.cond &&
      match s.cue.engine, s.cue.heldFrom with
      | .waiting, _ => ({ w with count := w.count + 1 } : WaitRecord).expired
      | .held, some .waiting => w.expired
      | _, _ => false

/-- This line end's boundary ends the wait with WAITEND/EXPIRED (R117). -/
def State.waitendHere (x : LineInputs) (s : State) : Bool :=
  (gridStep x s).s.endsField && (s.atCues x).waitExpires

end Sys2Proof.Machine
end

