-- ==== Sys2Proof/Machine/Dots.lean ====
section
/-!
DEFINITION. Dot edges and the pipeline delay (R70 to R72), with the level WSK forms for a dot arrival
(R141 to R150).
-/

namespace Sys2Proof.Machine

/-- The instant of dot x of the line in progress, in pu (R70). -/
def State.dotInstant (s : State) (x : Nat) : Pu :=
  Qu.pu s.lll.ideal
    + BitVec.ofNat 36 (16 * s.tgn.lineStd.activeStart + 28800 * x / s.tgn.lineD)

/-- The next dot's edge is issued: the line has the dot, and its instant lies before the line end (R70). -/
def State.dotIssued (s : State) : Bool :=
  decide (s.tgn.nextDot < s.tgn.lineD
    ∧ 0 < (BitVec.ofNat 36 (16 * s.lineEndTick.toNat) - s.dotInstant s.tgn.nextDot).toInt)

/-- The dot that begins at this edge, with the count its drive edge will bear (R71). -/
def State.newDrive (s : State) : Drive :=
  { stamp := s.tgn.stamp, line := s.tgn.line, dot := s.tgn.nextDot, dots := s.tgn.lineD
    due := s.tgn.edgeCount + 1 + BitVec.ofNat 16 s.tgn.delay }

/-- The level of a dot arrival, by the test mode as it stands at the arrival (R141, R143, R150). In BARS it
is the band's also while a soft reset has left the stack empty, where R145 and R148 differ: the model's
choice (DESIGN CHOICE, assumption log 41). -/
def State.dotLevel (s : State) (d : Drive) (index : Byte) : Nat :=
  match s.cue.settings.testMode with
  | .bypass => 0
  | .bars => barsLevel d.dots d.dot
  | _ =>
    if d.stamp = s.tgn.stamp then s.wsk.stack.level s.kbl.banks d.line d.dot index
    else
      match s.wsk.prev with
      | some st => st.level s.kbl.endedBanks d.line d.dot index
      | none => 0

/-- The ended field's stack and replaced bank are gone once its last dot has been keyed or dropped
(R140, R150). -/
def dropEnded (s : State) : State :=
  if s.tgn.drives.all (fun d => d.stamp = s.tgn.stamp) then
    { s with wsk := { s.wsk with prev := none }, kbl := { s.kbl with replaced := none } }
  else s

/-- One issued dot edge, with DOT DATA as sampled at it: the edge count, the new drive, the newest dot
whose drive edge this is, and KEY (R70 to R72). -/
def dotEdge (index : Byte) (s : State) : State :=
  let t := Pu.tick (s.dotInstant s.tgn.nextDot)
  let count := s.tgn.edgeCount + 1
  let drives := s.tgn.drives ++ [s.newDrive]
  let hit := (drives.filter (fun d => decide (d.due = count))).getLast?
  let level := (hit.map (fun d => s.dotLevel d index)).getD 0
  let s1 := s.atTick t
  dropEnded
    { s1 with tgn := { s1.tgn with
        edgeCount := count
        nextDot := s.tgn.nextDot + 1
        drives := drives.filter (fun d => decide (d.due ≠ count))
        key := level
        keyUntil := s.tgn.lineStart + BitVec.ofNat 32 (s.tgn.lineStd.activeStart + 1800) } }

end Sys2Proof.Machine
end

