-- ==== Sys2Proof/Machine/Timing.lean ====
section
/-!
DEFINITION. The commands of the generated timing: captures abandoned, line ends of every kind, dot edges,
and the test unit's arrivals (spec/02, spec/04, spec/11).
-/

namespace Sys2Proof.Machine

/-- CAPTURE_ABANDON (R39). -/
def execCaptureAbandon (s : State) : Result :=
  .next (match s.lll.loop, s.lll.capture with
    | .capture, some r =>
      { s.atTick (r.abandonAt s.rfe.working) with lll := s.lll.abandon r }
    | _, _ => s)

/-- LINE_END (R23). -/
def execLineEnd (x : LineInputs) (s : State) : Result := .next (lineEndWork x s)

/-- FLYWHEEL_LIMIT (R31): the line end at which the flywheel limit is reached. -/
def execFlywheelLimit (x : LineInputs) (s : State) : Result :=
  .next (if s.flywheelHere x then lineEndWork x s else s)

/-- MISSED_FIELDS (R55): the line end whose miss check counts the fourth miss. -/
def execMissedFields (x : LineInputs) (s : State) : Result :=
  .next (if s.missedHere x then lineEndWork x s else s)

/-- SCAN_POINT (R67): the line end that raises the scan point. -/
def execScanPoint (x : LineInputs) (s : State) : Result :=
  .next (if s.scanNow x then lineEndWork x s else s)

/-- FIELD_BOUNDARY (R66): the line end that completes the field. -/
def execFieldBoundary (x : LineInputs) (s : State) : Result :=
  .next (if (gridStep x s).s.endsField then lineEndWork x s else s)

/-- HOLDOVER_EXPIRY (R41): the field boundary at which the holdover limit is reached. -/
def execHoldoverExpiry (x : LineInputs) (s : State) : Result :=
  .next (if s.expiresHere x then lineEndWork x s else s)

/-- TEST_NOLOCK (R194): the field boundary at which the record closes unlocked. -/
def execTestNolock (x : LineInputs) (s : State) : Result :=
  .next (if s.nolockNow x then lineEndWork x s else s)

/-- WAITEND_EXPIRED (R117): the field boundary at which the wait ends at its timeout. -/
def execWaitendExpired (x : LineInputs) (s : State) : Result :=
  .next (if s.waitendHere x then lineEndWork x s else s)

/-- DOT_EDGE (R71): the next dot of the line, if its edge is issued. -/
def execDotEdge (index : Byte) (s : State) : Result :=
  .next (if s.dotIssued then dotEdge index s else s)

/-- TST_LINE_ARRIVAL (R191): the next LINE arrival to come, if the line in progress does not end before
it. -/
def execTstLineArrival (s : State) : Result :=
  .next (match s.tst.lines with
    | [] => s
    | e :: rest =>
      if s.tstLineDue e then
        lineArrival e (tstLineTick e)
          { s.atTick (tstLineTick e) with tst := { s.tst with lines := rest } }
      else s)

/-- The tick of a synthesised BROAD arrival (R192). -/
def tstBroadTick (edge : Pu) : Tick := Pu.tick edge + 1000

/-- TST_BROAD_ARRIVAL (R192): the next arrival of the run placed. -/
def execTstBroadArrival (s : State) : Result :=
  .next (match s.tst.run with
    | [] => s
    | e :: rest =>
      if s.tst.mode = .internalLoop then
        broadPulse e { s.atTick (tstBroadTick e) with tst := { s.tst with run := rest } }
      else s)

end Sys2Proof.Machine
end

