-- ==== Sys2Proof/Machine/Clock.lean ====
section
/-!
DEFINITION. The clock of a part to which no command comes: the events whose instants the state itself
determines, and the tick (R1; assumption logs 1 and 36).
-/

namespace Sys2Proof.Machine

/-- An event that takes place at tick `t`, if it can and the tick has come. -/
def dueAt (now t : Tick) (can : Bool) (e : Instr) : List Instr :=
  if can && Tick.reached now t then [e] else []

/-- The classifier's and the slicer's own events on one input (R2, R5). -/
def State.inputEvents (s : State) (i : Input) : List Instr :=
  let r := s.input i
  let overrun := match r.classifier with
    | .inPulse edge _ => dueAt s.rfe.tick (Pu.tick edge + 1501) true (.pulseOverrun i)
    | _ => []
  let update := match r.measure with
    | some m => dueAt s.rfe.tick (m.u + 23) true
        (.slicerUpdate i ((List.range 8).map (Config.blankSample s.draw)))
    | none => []
  overrun ++ update

/-- The capture in hand is abandoned (R39). -/
def State.abandonEvents (s : State) : List Instr :=
  match s.lll.loop, s.lll.capture with
  | .capture, some r => dueAt s.rfe.tick (r.abandonAt s.rfe.working) true .captureAbandon
  | _, _ => []

/-- TST's arrivals (R191, R192). -/
def State.tstEvents (s : State) : List Instr :=
  let broad := match s.tst.run with
    | e :: _ => dueAt s.rfe.tick (tstBroadTick e) (s.tst.mode = .internalLoop) .tstBroadArrival
    | [] => []
  let line := match s.tst.lines with
    | e :: _ => dueAt s.rfe.tick (tstLineTick e) (s.tstLineDue e) .tstLineArrival
    | [] => []
  line ++ broad

/-- Every event that is due at the tick in progress. -/
def State.dueEvents (s : State) : List Instr :=
  let now := s.rfe.tick
  dueAt now 1024 (!s.tgn.strapDone) .strapDone
    ++ s.inputEvents .a ++ s.inputEvents .b
    ++ dueAt now s.rfe.windowAt true .windowEnd
    ++ s.abandonEvents ++ s.tstEvents
    ++ dueAt now (Pu.tick (s.dotInstant s.tgn.nextDot)) s.dotIssued (.dotEdge (Config.dotData s.draw))
    ++ dueAt now s.lineEndTick true (.lineEnd (Config.lineInputs s.draw))
    ++ dueAt now now s.canWriteRecord .recordWrite
    ++ dueAt now now (s.mpt.service.isNone && s.mpt.choose.isSome) .requestGrant

/-- Which of the due events is taken: the only one, or one of several by a free value. -/
def State.pickEvent (s : State) : List Instr → Option Instr
  | [] => none
  | [e] => some e
  | e :: es => some ((e :: es).getD (Config.eventChoice s.draw % (es.length + 1)) e)

/-- The part with no command waiting: an event that is due joins the queue, and when none is, a tick
passes (R1; assumption log 1). -/
def clock (s : State) : State :=
  match s.pickEvent s.dueEvents with
  | some e => { s with pending := [e], draw := s.draw + 1 }
  | none => s.atTick (s.rfe.tick + 1)

end Sys2Proof.Machine
end

