-- ==== Sys2Proof/Machine/Dispatch.lean ====
section
/-!
DEFINITION. The dispatch: every command's meaning, one arm each.
-/

namespace Sys2Proof.Machine

def exec (i : Instr) (s : State) : Host.Outcome State Fault Refusal :=
  match i with
  | .powerOn straps => Sys2Proof.Machine.execPowerOn straps s
  | .strapDone => Sys2Proof.Machine.execStrapDone s
  | .linkAddressWrite w => Sys2Proof.Machine.execLinkAddressWrite w s
  | .linkAddressRead => Sys2Proof.Machine.execLinkAddressRead s
  | .run start clear => Sys2Proof.Machine.execRun start clear s
  | .stop start clear => Sys2Proof.Machine.execStop start clear s
  | .continueRun start clear => Sys2Proof.Machine.execContinue start clear s
  | .softReset start clear issued => Sys2Proof.Machine.execSoftReset start clear issued s
  | .noneFunction => Sys2Proof.Machine.execNoneFunction s
  | .start => Sys2Proof.Machine.execStart s
  | .clear => Sys2Proof.Machine.execClear s
  | .causePortRead => Sys2Proof.Machine.execCausePortRead s
  | .ignoredPortWrite w => Sys2Proof.Machine.execIgnoredPortWrite w s
  | .leadingEdge inp t s0 s1 => Sys2Proof.Machine.execLeadingEdge inp t s0 s1 s
  | .pulseClassification inp u s1 least => Sys2Proof.Machine.execPulseClassification inp u s1 least s
  | .pulseOverrun inp => Sys2Proof.Machine.execPulseOverrun inp s
  | .slicerUpdate inp blank => Sys2Proof.Machine.execSlicerUpdate inp blank s
  | .captureAbandon => Sys2Proof.Machine.execCaptureAbandon s
  | .windowEnd => Sys2Proof.Machine.execWindowEnd s
  | .lineEnd x => Sys2Proof.Machine.execLineEnd x s
  | .flywheelLimit x => Sys2Proof.Machine.execFlywheelLimit x s
  | .missedFields x => Sys2Proof.Machine.execMissedFields x s
  | .scanPoint x => Sys2Proof.Machine.execScanPoint x s
  | .fieldBoundary x => Sys2Proof.Machine.execFieldBoundary x s
  | .holdoverExpiry x => Sys2Proof.Machine.execHoldoverExpiry x s
  | .testNolock x => Sys2Proof.Machine.execTestNolock x s
  | .tstLineArrival => Sys2Proof.Machine.execTstLineArrival s
  | .tstBroadArrival => Sys2Proof.Machine.execTstBroadArrival s
  | .requestGrant => Sys2Proof.Machine.execRequestGrant s
  | .memoryFault why done reached bus => Sys2Proof.Machine.execMemoryFault why done reached bus s
  | .startupLoadComplete bus => Sys2Proof.Machine.execStartupLoadComplete bus s
  | .fillReadComplete bus => Sys2Proof.Machine.execFillReadComplete bus s
  | .cueRecordRead bus => Sys2Proof.Machine.execCueRecordRead bus s
  | .idleCueRead bus => Sys2Proof.Machine.execIdleCueRead bus s
  | .takeWriteComplete bus => Sys2Proof.Machine.execTakeWriteComplete bus s
  | .keySourceWordRead bus => Sys2Proof.Machine.execKeySourceWordRead bus s
  | .recordWrite => Sys2Proof.Machine.execRecordWrite s
  | .reportWriteComplete bus => Sys2Proof.Machine.execReportWriteComplete bus s
  | .getReadComplete bus => Sys2Proof.Machine.execGetReadComplete bus s
  | .lonePutWriteComplete bus => Sys2Proof.Machine.execLonePutWriteComplete bus s
  | .statusWordWriteComplete bus => Sys2Proof.Machine.execStatusWordWriteComplete bus s
  | .waitendExpired x => Sys2Proof.Machine.execWaitendExpired x s
  | .classifierArmed inp t sample => Sys2Proof.Machine.execClassifierArmed inp t sample s
  | .dotEdge index => Sys2Proof.Machine.execDotEdge index s

end Sys2Proof.Machine
end

