-- ==== Sys2Proof/Safety.lean ====
section
/-!
DEFINITION. What counts as a safe run: the ranges the spec says every piece of state always keeps. Each
part is an invariant of the step; `State.Inv` is all of them together.
-/

namespace Sys2Proof.Machine

/-! ## Key levels, fades and banks (R127, R138, R145, R150) -/

/-- A window's fade and target lie in 0..64, its steps in 0..1023, and with no step remaining its fade
is its target (R127, R138). -/
def Window.Ok (w : Window) : Prop :=
  w.fade ≤ 64 ∧ w.target ≤ 64 ∧ w.steps ≤ 1023 ∧ (w.steps = 0 → w.fade = w.target)

def Stack.Ok (st : Stack) : Prop := ∀ i : Fin 8, ∀ w, (st.slots[i]).window = some w → w.Ok

/-- Every entry of a bank is a key value from 0 to 64 (R150). -/
def Bank.Ok (b : Bank) : Prop := ∀ i : Fin 256, b[i] ≤ 64

/-- Everything a key level is formed from, and the level on KEY (R127, R138, R145, R150). -/
structure State.KeyOk (s : State) : Prop where
  stack    : s.wsk.stack.Ok
  prev     : ∀ st, s.wsk.prev = some st → st.Ok
  banks    : ∀ b : Fin 4, Bank.Ok (s.kbl.banks[b])
  shadow   : Bank.Ok s.kbl.shadow
  replaced : ∀ r, s.kbl.replaced = some r → Bank.Ok r.contents
  key      : s.tgn.key ≤ 64

/-! ## Working settings (R89, R90) -/

/-- The working settings lie within R89's table, the H target within the wider standard's range, for a
detected standard may have changed since the load (R13, R90), and a forced standard mode has its
standard at work (R14, R89). -/
structure State.SettingsOk (s : State) : Prop where
  dots     : 256 ≤ s.cue.settings.dots ∧ s.cue.settings.dots ≤ 2047
  vOffset  : s.cue.settings.vOffset ≤ 15
  kp       : s.cue.settings.kp ≤ 8
  ki       : 4 ≤ s.cue.settings.ki ∧ s.cue.settings.ki ≤ 14
  slew     : 1 ≤ s.cue.settings.slew ∧ s.cue.settings.slew ≤ 64
  tol      : 1 ≤ s.cue.settings.captureTol ∧ s.cue.settings.captureTol ≤ 255
  fly      : 12 ≤ s.cue.settings.flyLimit ∧ s.cue.settings.flyLimit ≤ 63
  hold     : 1 ≤ s.cue.settings.holdLimit ∧ s.cue.settings.holdLimit ≤ 255
  hTarget  : s.cue.settings.hTarget.natAbs ≤ Standard.s625.half
  coast    : s.cue.settings.coastFirst ≤ 329 ∧ s.cue.settings.coastLast ≤ 329
  floor    : 8 ≤ s.cue.settings.floor ∧ s.cue.settings.floor ≤ 128
  window   : 1 ≤ s.cue.settings.switchWin ∧ s.cue.settings.switchWin ≤ 15
  scan     : 4 ≤ s.cue.settings.scanLines ∧ s.cue.settings.scanLines ≤ 32
  pipe     : s.cue.settings.pipeDelay ≤ 63
  prot     : s.cue.settings.protect ≤ 4
  forced   : ∀ d, s.cue.settings.stdMode = .force d → s.rfe.working = d

/-! ## The loop (R20, R21, R25) -/

/-- P lies in the pull range, and in FREE, as in a capture begun there, is the nominal period; H_target,
H_eff and C lie within half a nominal line; the counts lie in their ranges; a capture record is open in
CAPTURE alone (R20, R21, R25, R34, R36). -/
structure State.LoopOk (s : State) : Prop where
  pull     : s.rfe.working.pMin ≤ s.lll.p ∧ s.lll.p ≤ s.rfe.working.pMax
  free     : s.lll.loop = .free → s.lll.p = s.rfe.working.nominal
  hTarget  : s.lll.hTarget.natAbs ≤ s.rfe.working.half
  hEff     : s.lll.hEff.natAbs ≤ s.rfe.working.half
  c        : s.lll.c.natAbs ≤ s.rfe.working.half
  flywheel : s.lll.flywheel ≤ 63
  holdover : s.lll.holdover ≤ 255
  capture  : s.lll.loop = .capture ↔ s.lll.capture.isSome
  origin   : ∀ r, s.lll.capture = some r → r.origin = .free → s.lll.p = s.rfe.working.nominal

/-! ## Generated fields (R50, R51, R65) -/

/-- The line in progress is one of the field's, and the field has 20 to 329 lines (R50, R51); a WHOLE
shift is at most 16 lines later (R53, R54). -/
structure State.FieldOk (s : State) : Prop where
  line   : 1 ≤ s.tgn.line ∧ s.tgn.line ≤ s.tgn.length
  length : 20 ≤ s.tgn.length ∧ s.tgn.length ≤ 329
  shift  : s.fal.kind = .whole → s.fal.shift ≤ 16

/-! ## Dots to come (R64, R71) -/

/-- The delay in use is at most 63, and at most 63 drives are pending: the drive edge of the i-th newest
of them is still to come, within 63 − i edges (R64, R71). -/
structure State.DriveOk (s : State) : Prop where
  delay : s.tgn.delay ≤ 63
  count : s.tgn.drives.length ≤ 63
  due   : ∀ i d, s.tgn.drives.reverse[i]? = some d →
    1 ≤ (d.due - s.tgn.edgeCount).toNat ∧ (d.due - s.tgn.edgeCount).toNat + i ≤ 63

/-! ## Lists and counts (R13, R15, R33, R46, R55, R106, R164 to R166, R190) -/

/-- The FIFO holds at most 8 records and the due list at most 16 copies; every count stays within its
range; an open gap, and only one, has a first stamp (R13, R15, R33, R46, R55, R106, R164, R166, R190). -/
structure State.CountOk (s : State) : Prop where
  fifo     : s.rpw.fifo.length ≤ 8
  withheld : s.rpw.withheld ≤ 65535
  gap      : s.rpw.openGap ≤ 65535
  stamp    : s.rpw.openStamp.isSome ↔ s.rpw.openGap ≠ 0
  absence  : s.rfe.absence ≤ 15
  excess   : ∀ r, s.tst.count = some r → r.excess ≤ 1023
  due      : s.cue.due.length ≤ 16
  differ   : s.rfe.differ ≤ 2
  miss     : s.fal.miss ≤ 3
  stray    : ∀ r, s.lll.stray = some r → 1 ≤ r.count ∧ r.count ≤ 2
  broad    : ∀ r, s.fal.broad = some r → 1 ≤ r.count ∧ r.count ≤ 2

/-- All the parts. Main memory is in canonical form as well. -/
structure State.Inv (s : State) : Prop where
  mem      : s.mem.wf
  key      : s.KeyOk
  settings : s.SettingsOk
  loop     : s.LoopOk
  field    : s.FieldOk
  drive    : s.DriveOk
  count    : s.CountOk

end Sys2Proof.Machine
end

