-- ==== Sys2Proof/Certificates/Slice0/Obligations.lean ====
section
/-!
DEFINITION. The statements for the provers, drawn from the spec's numbered rules.
-/

open Sys2Proof Sys2Proof.Machine

/-! ## The queue and the table -/

/-- A step runs the command at the front of the queue, with the queue's rest. With no command waiting the
clock runs (the model's choice, assumption log 1): an event that is due joins the queue, and when none is
due one tick passes (R1). -/
def Obligations.StepRunsTheQueue : Prop :=
  (∀ (c : Instr) (rest : List Instr) (s : State), s.pending = c :: rest →
    step s = exec c { s with pending := rest }) ∧
  (∀ s : State, s.pending = [] →
    (s.dueEvents = [] →
      step s = .next { s with rfe := { s.rfe with tick := s.rfe.tick + 1 } }) ∧
    (s.dueEvents ≠ [] →
      ∃ e ∈ s.dueEvents, step s = .next { s with pending := [e], draw := s.draw + 1 }))

/-- No command stops the machine: every fault of the spec is an effect on the state. That a command whose
event cannot take place answers a next state as well is assumption log 4 (DEDUCED). What any command does
is for the other statements. -/
def Obligations.EveryCommandCompletes : Prop :=
  ∀ (c : Instr) (s : State), ∃ t, exec c s = .next t

/-- R196: a write to port 2 or 3 changes nothing; the disregarded bits of a port-1 write; function codes
5, 6 and 7 act as 0; the unassigned bits of the port reads are 0. -/
def Obligations.PortBitsWithoutMeaning : Prop :=
  ∀ (w : Word) (issued : Nat) (s : State),
    (decodePortWrite 2 w issued = .ignoredPortWrite w ∧ decodePortWrite 3 w issued = .ignoredPortWrite w
      ∧ exec (.ignoredPortWrite w) s = .next s) ∧
    decodePortOne w issued = decodePortOne (w &&& 0x0307#16) issued ∧
    (5 ≤ (w &&& 7#16).toNat →
      decodePortOne w issued = decodePortOne (w &&& 0x0300#16) issued ∧
      decodePortOne w issued =
        (if w.getLsbD 9 then .clear else if w.getLsbD 8 then .start else .noneFunction) ∧
      (s.tgn.strapDone = true → ∃ t, exec (decodePortOne w issued) s = .next t ∧
        t.cue = { s.cue with second := false } ∧
        t.rpw = (if w.getLsbD 9 then
            { s.rpw with latched := s.rpw.latched &&& ~~~s.rpw.seen, seen := 0, enabled := false }
          else if w.getLsbD 8 then
            { s.rpw with latched := s.rpw.latched &&& ~~~s.rpw.seen, seen := 0, enabled := true }
          else s.rpw))) ∧
    s.causeWord &&& 0xff00#16 = 0#16 ∧ s.identity &&& 0x7f00#16 = 0#16 ∧
    (s.cue.second = true → s.linkHalf &&& 0xff00#16 = 0#16)

/-! ## Power-on and start-up -/

/-- R18: RFE at power-on. -/
def Obligations.PowerOnFrontEnd : Prop :=
  ∀ (straps : Straps) (s : State), ∃ t, exec (.powerOn straps) s = .next t ∧
    (∀ i : Input,
      t.input i =
        { slicer := { t := 16, b := 96, a := 80, s := 56 }, classifier := .disarmed, measure := none
          present := false, lossLatch := false, detected := none, lineCount := 0, spacingCount := 0
          spacingSum := 0, lastEdge := none }) ∧
    t.rfe.active = .a ∧ t.rfe.absence = 0 ∧ t.rfe.differ = 0 ∧ t.rfe.warned = false ∧
    t.rfe.working = (if straps.standard.toNat % 2 = 0 then .s625 else .s525) ∧
    t.identity.extractLsb' 4 2 = straps.standard ∧
    (∀ d, t.cue.settings.stdMode = .force d → t.rfe.working = d) ∧
    t.rfe.tick = 0 ∧ t.rfe.windowAt = 720000 ∧ t.pending = s.pending

/-- LLL, TGN and the other blocks at power-on (R21, R59, R64, R96, R97, R127, R150, R151, R164, R190), main
memory being the computer's; the settings are R89's defaults, with the standard mode and the test mode of R76's
strap tables. The match patterns, the owed reads and writes and the status copy are clear by
assumption log 30 (DESIGN CHOICE), and the test unit's first LINE arrival is assumption log 23. -/
def Obligations.PowerOnOtherBlocks : Prop :=
  ∀ (straps : Straps) (s : State),
    let testMode : TestMode := match straps.test.toNat with
      | 0 => .normal | 1 => .internalLoop | 2 => .bypass | _ => .bars
    let defaults : Settings :=
         { stdMode := match straps.standard.toNat with
             | 0 => .auto | 1 => .auto | 2 => .force .s625 | _ => .force .s525
           policy := .auto, dots := 640, hTarget := 0, vOffset := 0, kp := 3, ki := 8, slew := 8
           captureTol := 32, flyLimit := 16, holdLimit := 50, coastFirst := 0, coastLast := 0
           stepMode := .slew, vertMode := .jump, lockMode := .strict, floor := 40, restart := false
           switchWin := 2, scanLines := 8, pipeDelay := 0, faultMask := 0x7f#7, protect := 0
           guard := true, lockdown := false, out1Mode := .cue, out2Mode := .cue, fieldstat := false
           testMode := testMode }
    ∃ t, exec (.powerOn straps) s = .next t ∧
    (let p : Nat := if straps.standard.toNat % 2 = 0 then 589824 else 585728
     t.lll =
      { loop := .free, p := p, ideal := 0, nextIdeal := BitVec.ofNat 40 p, hTarget := 0, hEff := 0, c := 0
        settling := false, flywheel := 0, stray := none, pullLimit := false, holdover := 0
        capture := none, lastE := 0, stats := { accepted := 0, coast := 0, errors := none }
        accepted := none, lineStray := none } ∧
     t.lineEndTick = BitVec.ofNat 32 (p / 256)) ∧
    t.tgn.line = 1 ∧ t.tgn.parity = .one ∧
    t.tgn.length = (if straps.standard.toNat % 2 = 0 then 313 else 263) ∧ t.tgn.stamp = 0 ∧
    t.tgn.lineStart = 0 ∧ t.tgn.scanDone = false ∧ t.tgn.delay = 0 ∧ t.tgn.edgeCount = 0 ∧
    t.tgn.drives = [] ∧ t.tgn.out1 = false ∧ t.tgn.out2 = false ∧ t.tgn.straps = straps ∧
    t.tgn.strapDone = false ∧
    t.hs = true ∧ t.vs = true ∧ t.blank = true ∧ t.fieldPin = false ∧ t.lockPin = false ∧
    t.out1Pin = false ∧ t.out2Pin = false ∧
    t.fal = { field := .seek, shift := 0, kind := .whole, miss := 0, startSeen := false, broad := none
              lockout := none, lastDelta := 0, lastParity := none } ∧
    t.mpt = { service := none, cueQ := [], key := none, rpw := none, sta := none } ∧
    t.cue.engine = .stopped ∧ t.cue.link = 0 ∧ t.cue.second = false ∧ t.cue.linkValid = false ∧
    t.cue.startup = false ∧ t.cue.qBase = 0 ∧ t.cue.qLen = 0 ∧ t.cue.take = 0 ∧ t.cue.lastFill = 0 ∧
    t.cue.trigger = none ∧ t.cue.settings = defaults ∧ t.cue.masks = 0x7f#7 ∧
    t.cue.due = [] ∧ t.cue.idle = none ∧ t.cue.seenEmpty = true ∧ t.cue.badFill = false ∧
    t.cue.wait = none ∧ t.cue.heldFrom = none ∧ t.cue.deferral = none ∧ t.cue.haltReason = none ∧
    t.cue.scan = none ∧
    (∀ i : Fin 8, t.wsk.stack.slots[i] = .empty) ∧ t.wsk.stack.top = 0 ∧
    (∀ (b : Fin 4) (i : Fin 256), (t.kbl.banks[b])[i] = 0) ∧ t.kbl.loader = .idle ∧
    t.kbl.load = none ∧
    t.rpw.fifo = [] ∧ t.rpw.withheld = 0 ∧ t.rpw.openGap = 0 ∧ t.rpw.gapPending = false ∧
    t.rpw.base = 0 ∧ t.rpw.len = 0 ∧ t.rpw.put = 0 ∧ t.rpw.lastGet = 0 ∧ t.rpw.trigger = none ∧
    (∀ k : Fin 4, t.rpw.matchList[k] = ⟨0, 0⟩) ∧ t.rpw.latched = 0 ∧ t.rpw.seen = 0 ∧
    t.rpw.enabled = false ∧ t.rpw.openStamp = none ∧ t.rpw.fullWait = false ∧ t.rpw.badGet = false ∧
    t.rpw.suspended = false ∧ t.rpw.getDue = false ∧ t.rpw.putDue = false ∧ t.rpw.status = [] ∧
    t.rpw.ended = { accepted := 0, coast := 0, errors := none } ∧
    t.wsk.prev = none ∧ t.kbl.replaced = none ∧ t.tgn.key = 0 ∧ t.tst.run = [] ∧
    (testMode = .internalLoop →
      t.tst.count = some { stamp := 0, excess := 0 } ∧ t.tst.lockTime = some 0 ∧ t.tst.lines = [0]) ∧
    (testMode ≠ .internalLoop →
      t.tst.count = none ∧ t.tst.lockTime = none ∧ t.tst.lines = []) ∧
    t.tst.mode = testMode ∧ t.mem = s.mem

/-- STRAP_DONE sets the flag at tick 1024, once, and nothing else; until then every write to port 0 and
port 1 is ignored (R76). That STRAP_DONE does nothing once the flag is set is assumption log 4 (DEDUCED). -/
def Obligations.StrapDoneGatesThePorts : Prop :=
  ∀ s : State,
    (s.tgn.strapDone = false →
      exec .strapDone s =
        .next { s with rfe := { s.rfe with tick := 1024 }, tgn := { s.tgn with strapDone := true } } ∧
      (∀ w, exec (.linkAddressWrite w) s = .next s) ∧
      (∀ a b, exec (.run a b) s = .next s ∧ exec (.stop a b) s = .next s ∧
        exec (.continueRun a b) s = .next s ∧ ∀ n, exec (.softReset a b n) s = .next s) ∧
      exec .noneFunction s = .next s ∧ exec .start s = .next s ∧ exec .clear s = .next s) ∧
    (s.tgn.strapDone = true → exec .strapDone s = .next s)

/-! ## Port 0 and port 1 -/

/-- R78, R79: a port-0 write while STOPPED and after strap-done loads the half the sequencer points at and
moves it; any other is ignored; two writes from the first half load the whole link address.
A read returns the half pointed at (in the model's readData, assumption log 29) and moves the sequencer in
every state. -/
def Obligations.LinkAddressAccesses : Prop :=
  ∀ (w v : Word) (s : State),
    (s.tgn.strapDone = true → s.cue.engine = .stopped →
      (∃ t, exec (.linkAddressWrite w) s = .next t ∧
        t.cue.second = !s.cue.second ∧
        (s.cue.second = false →
          t.cue.link.extractLsb' 0 16 = w ∧ t.cue.link.extractLsb' 16 8 = s.cue.link.extractLsb' 16 8) ∧
        (s.cue.second = true →
          t.cue.link.extractLsb' 0 16 = s.cue.link.extractLsb' 0 16 ∧
          t.cue.link.extractLsb' 16 8 = w.extractLsb' 0 8) ∧
        t = { s with cue := { s.cue with link := t.cue.link, second := t.cue.second } }) ∧
      (s.cue.second = false →
        ∃ t u, exec (.linkAddressWrite w) s = .next t ∧ exec (.linkAddressWrite v) t = .next u ∧
          u.cue.link.toNat = w.toNat + 65536 * (v.toNat % 256) ∧ u.cue.second = false)) ∧
    (s.tgn.strapDone = false ∨ s.cue.engine ≠ .stopped →
      exec (.linkAddressWrite w) s = .next s) ∧
    (∃ t, exec .linkAddressRead s = .next t ∧
      t.readData.toNat =
        (if s.cue.second then s.cue.link.toNat / 65536 else s.cue.link.toNat % 65536) ∧
      t = { s with cue := { s.cue with second := !s.cue.second }, readData := t.readData })

/-- R100: RUN while STOPPED; in every other state it acts only through its bits and the sequencer.
That a lone put write owed since a STOP stays owed over RUN is assumption log 48 (DESIGN CHOICE).
R102: CONTINUE while HALTED with the link valid; ignored otherwise. -/
def Obligations.RunStartsAndContinueResumes : Prop :=
  (∀ (a b : Bool) (s : State), s.tgn.strapDone = true →
    (s.cue.engine = .stopped →
      ∃ t, exec (.run a b) s = .next t ∧
        t.cue = { s.cue with
          second := false, engine := .running, startup := true, linkValid := false, due := []
          idle := none, wait := none, heldFrom := none, deferral := none, haltReason := none
          seenEmpty := true, badFill := false, trigger := none } ∧
        t.mpt = { s.mpt with cueQ := s.mpt.cueQ ++ [.startupLoad s.cue.link.toNat] } ∧
        t.rpw = (ackBits a b
          { s with rpw := { s.rpw with suspended := false, fullWait := false, badGet := false } }).rpw ∧
        t = { s with cue := t.cue, mpt := t.mpt, rpw := t.rpw }) ∧
    (s.cue.engine ≠ .stopped →
      exec (.run a b) s = .next (ackBits a b { s with cue := { s.cue with second := false } }))) ∧
  (∀ (a b : Bool) (s : State), s.tgn.strapDone = true →
    (s.cue.engine = .halted → s.cue.linkValid = true →
      ∃ t, exec (.continueRun a b) s = .next t ∧
        t.cue = { s.cue with second := false, engine := .running, haltReason := none } ∧
        Request.takeWrite (s.cue.link.toNat + 8) s.cue.take ∈ t.mpt.cueQ ∧
        t.rpw = (ackBits a b { s with rpw := { s.rpw with suspended := false } }).rpw ∧
        t = { s with cue := t.cue, mpt := { s.mpt with cueQ := t.mpt.cueQ }, rpw := t.rpw }) ∧
    (s.cue.engine ≠ .halted ∨ s.cue.linkValid = false →
      exec (.continueRun a b) s = .next (ackBits a b { s with cue := { s.cue with second := false } })))

/-- R101: STOP in every state but STOPPED, with R96 and R160 at the memory port and the loader: a request of the
cue engine or the key loader in service ends with the word in flight, at once where none is, and one of the
writers goes on. How many of the request's words the bus has by then is a free value, an earlier STOP's cut
stands, and the waiting requests of the writers are dropped, by assumption log 13 (DEDUCED); the shadow not in
use is all 0 by assumption log 30 (DESIGN CHOICE). R99, R177: the START and CLEAR bits of the write act after
its function, in every state. -/
def Obligations.StopStops : Prop :=
  ∀ (a b : Bool) (s : State), s.tgn.strapDone = true →
    (s.cue.engine ≠ .stopped →
      ∃ t, exec (.stop a b) s = .next t ∧
        t.cue = { s.cue with
          second := false, engine := .stopped, startup := false, scan := none, due := [], idle := none
          wait := none, heldFrom := none, deferral := none, haltReason := none } ∧
        t.mpt.cueQ = [] ∧ t.mpt.key = none ∧ t.mpt.rpw = none ∧ t.mpt.sta = none ∧
        (s.mpt.service = none → t.mpt.service = none) ∧
        (∀ x, s.mpt.service = some x →
          let words := min (Config.wordsIssued s.draw) (s.runAddrs x.req []).length
          (x.req.requester = .cue ∨ x.req.requester = .key →
            (x.cut = none → t.mpt.service =
              if words = 0 then none else some { x with discard := true, cut := some words }) ∧
            (x.cut ≠ none → t.mpt.service = some { x with discard := true })) ∧
          (x.req.requester = .report ∨ x.req.requester = .status → t.mpt.service = some x)) ∧
        (∀ r, s.kbl.load = some r →
          t.kbl = { s.kbl with loader := .idle, load := none, shadow := Bank.zero } ∧
          (s.rpw.fifo.length < 8 → ∃ g, t.rpw.fifo = s.rpw.fifo ++
            [⟨(repSwapAborted r s.kbl.loader .stop).stamped s.tgn.stamp, g⟩])) ∧
        (s.kbl.load = none → t.kbl = s.kbl ∧ t.rpw.fifo = s.rpw.fifo ∧
          t.rpw.withheld = s.rpw.withheld ∧ t.rpw.openGap = s.rpw.openGap) ∧
        t.rpw.latched = (if a = true ∨ b = true then s.rpw.latched &&& ~~~s.rpw.seen else s.rpw.latched) ∧
        t.rpw.seen = (if a = true ∨ b = true then 0 else s.rpw.seen) ∧
        t.rpw.enabled = (if b = true then false else if a = true then true else s.rpw.enabled) ∧
        t.rpw.status = [] ∧ t.rpw.getDue = false ∧ t.rpw.putDue = false ∧
        t.rpw = { s.rpw with
          fifo := t.rpw.fifo, withheld := t.rpw.withheld, openGap := t.rpw.openGap
          openStamp := t.rpw.openStamp, gapPending := t.rpw.gapPending, latched := t.rpw.latched
          seen := t.rpw.seen, enabled := t.rpw.enabled, status := [], getDue := false, putDue := false } ∧
        t = { s with cue := t.cue, mpt := t.mpt, kbl := t.kbl, rpw := t.rpw, draw := s.draw + 1 }) ∧
    (s.cue.engine = .stopped →
      exec (.stop a b) s = .next (ackBits a b { s with cue := { s.cue with second := false } }))

/-- R103: SOFT RESET, taken in any state, puts every block at its soft-reset values (R3, R19, R22, R59, R77,
R96, R127, R150, R151, R164, R190), the settings at R89's defaults under R76's strap tables, with no report, no
cause, and no memory write but the words of the request in service that the bus already has (an operand by
assumption log 27, DEDUCED). The match patterns are 0 by assumption log 30 (DESIGN CHOICE); KEY drops to 0 at
once under BARS straps too by log 41 (DESIGN CHOICE); and which of the test unit's arrivals are still to come is
log 23. -/
def Obligations.SoftResetResets : Prop :=
  ∀ (a b : Bool) (issued : Nat) (s : State), s.tgn.strapDone = true →
    let working : Standard := if s.tgn.straps.standard.toNat % 2 = 0 then .s625 else .s525
    let testMode : TestMode := match s.tgn.straps.test.toNat with
      | 0 => .normal | 1 => .internalLoop | 2 => .bypass | _ => .bars
    let defaults : Settings :=
         { stdMode := match s.tgn.straps.standard.toNat with
             | 0 => .auto | 1 => .auto | 2 => .force .s625 | _ => .force .s525
           policy := .auto, dots := 640, hTarget := 0, vOffset := 0, kp := 3, ki := 8, slew := 8
           captureTol := 32, flyLimit := 16, holdLimit := 50, coastFirst := 0, coastLast := 0
           stepMode := .slew, vertMode := .jump, lockMode := .strict, floor := 40, restart := false
           switchWin := 2, scanLines := 8, pipeDelay := 0, faultMask := 0x7f#7, protect := 0
           guard := true, lockdown := false, out1Mode := .cue, out2Mode := .cue, fieldstat := false
           testMode := testMode }
    ∃ t, exec (.softReset a b issued) s = .next t ∧
      (∀ i : Input, t.input i = { s.input i with
        slicer := { t := 0, b := 255, a := 255, s := 127 }, classifier := .disarmed, measure := none
        lossLatch := false }) ∧
      t.rfe.active = .a ∧ t.rfe.absence = 0 ∧ t.rfe.differ = 0 ∧ t.rfe.warned = false ∧
      t.rfe.working = working ∧ t.rfe.tick = s.rfe.tick ∧
      t.rfe.windowAt = s.rfe.windowAt ∧
      t.lll = { loop := .free, p := if working = .s625 then 589824 else 585728, ideal := s.lll.ideal
                nextIdeal := s.lll.nextIdeal } ∧
      t.fal = {} ∧
      t.tgn = { s.tgn with stamp := 0, out1 := false, out2 := false, delay := 0, drives := [], key := 0 } ∧
      t.mpt = {} ∧
      t.cue = { settings := defaults } ∧
      (∀ i : Fin 8, t.wsk.stack.slots[i] = .empty) ∧ t.wsk.stack.top = 0 ∧ t.wsk.prev = none ∧
      t.kbl.banks = s.kbl.banks ∧ t.kbl.loader = .idle ∧ t.kbl.load = none ∧ t.kbl.replaced = none ∧
      t.rpw = {} ∧ t.irq = false ∧
      t.tst.mode = testMode ∧
      (t.tst.mode ≠ .internalLoop →
        t.tst.count = none ∧ t.tst.lockTime = none ∧ t.tst.lines = [] ∧ t.tst.run = []) ∧
      (t.tst.mode = .internalLoop →
        t.tst.count = some { stamp := 0, excess := 0 } ∧ t.tst.lockTime = some 0 ∧
        (s.tst.mode = .internalLoop → t.tst.lines = s.tst.lines ∧ t.tst.run = s.tst.run) ∧
        (s.tst.mode ≠ .internalLoop → t.tst.run = [] ∧
          let edge : Pu := BitVec.ofNat 36 (s.lll.ideal.toNat / 16)
          let ahead := (BitVec.ofNat 32 (edge.toNat / 16) + 170 - s.rfe.tick).toInt
          (0 ≤ ahead → t.tst.lines = [edge]) ∧ (ahead < 0 → t.tst.lines = []))) ∧
      (s.mpt.service = none ∨ issued = 0 → t.mem = s.mem) ∧
      (∀ x, s.mpt.service = some x → t.mem = s.mem.writeWords (x.req.writes.take issued)) ∧
      t.pins = s.pins ∧ t.pending = s.pending

/-- R177: START and CLEAR clear the causes seen and every seen flag, and enable or inhibit the interrupt;
both bits act as CLEAR, neither changes a cause, and SOFT RESET disregards both. A cause latched just
before the acknowledgment or just after it survives, with the same outcome. IRQ is asserted just while
the interrupt is enabled and a cause is latched. -/
def Obligations.StartAndClearAcknowledge : Prop :=
  ∀ s : State, s.tgn.strapDone = true →
    exec .start s = .next { s with
      cue := { s.cue with second := false }
      rpw := { s.rpw with latched := s.rpw.latched &&& ~~~s.rpw.seen, seen := 0, enabled := true } } ∧
    exec .clear s = .next { s with
      cue := { s.cue with second := false }
      rpw := { s.rpw with latched := s.rpw.latched &&& ~~~s.rpw.seen, seen := 0, enabled := false } } ∧
    exec .noneFunction s = .next { s with cue := { s.cue with second := false } } ∧
    (∀ issued, decodePortOne 0x0300#16 issued = .clear) ∧
    exec (.run true true) s = exec (.run false true) s ∧
    exec (.stop true true) s = exec (.stop false true) s ∧
    exec (.continueRun true true) s = exec (.continueRun false true) s ∧
    (∀ a b n, exec (.softReset a b n) s = exec (.softReset false false n) s ∧
      ∃ t, exec (.softReset a b n) s = .next t ∧ t.rpw.latched = 0 ∧ t.rpw.enabled = false) ∧
    (∀ c : Cause, ∃ u v, exec .start s = .next u ∧ exec .start (latch c s) = .next (latch c u) ∧
      exec .clear s = .next v ∧ exec .clear (latch c s) = .next (latch c v) ∧
      (latch c u).irq = true ∧ (latch c v).irq = false) ∧
    s.irq = (s.rpw.enabled && decide (s.rpw.latched ≠ 0))

/-- R175 to R177: the cause-port read, and that a cause latched between it and the acknowledgment survives
the acknowledgment alone. The word read stands in readData, the model's own field (assumption log 29, DESIGN
CHOICE). -/
def Obligations.CausePortReads : Prop :=
  ∀ s : State, ∃ t, exec .causePortRead s = .next t ∧
    t.readData.toNat = s.rpw.latched.toNat ∧
    (∀ c : Cause, c ≠ .inputChange →
      t.rpw.latched &&& c.bit = s.rpw.latched &&& c.bit ∧
      t.rpw.seen &&& c.bit = s.rpw.latched &&& c.bit) ∧
    t.rpw.latched &&& Cause.inputChange.bit = 0 ∧ t.rpw.seen &&& Cause.inputChange.bit = 0 ∧
    t = { s with readData := t.readData
                 rpw := { s.rpw with latched := t.rpw.latched, seen := t.rpw.seen } } ∧
    (s.irq = true → (t.irq = false ↔ s.rpw.latched = Cause.inputChange.bit)) ∧
    (∀ c : Cause, s.tgn.strapDone = true → ∃ u, exec .start (latch c t) = .next u ∧
      u.rpw.latched = c.bit ∧ u.rpw.seen = 0 ∧ u.irq = true)

/-! ## Main memory -/

/-- Words written over the bus: a byte that no word of the request and no write of the computer covers
reads as before, and with the computer silent each of the request's words reads back unless a later
word of it covers one of its bytes. The canonical form is assumption log 7 (DESIGN CHOICE), the computer's
writes between the words log 9 (DESIGN CHOICE), and the wrap of addresses log 11 (DEDUCED). -/
def Obligations.BusWritesTouchTheirBytes : Prop :=
  ∀ (m : Memory) (ws : List (Nat × Word)) (bus : BusTraffic), m.wf →
    (m.writeRun ws bus).wf ∧
    (∀ a : Nat,
      (∀ w ∈ ws, a ≠ wrapAddr w.1 ∧ a ≠ wrapAddr (w.1 + 1)) →
      (∀ h ∈ bus.flatten, a ≠ wrapAddr h.addr.toNat ∧ a ≠ wrapAddr (h.addr.toNat + 1)) →
      (m.writeRun ws bus).readByte a = m.readByte a) ∧
    (∀ (pre post : List (Nat × Word)) (w : Nat × Word), ws = pre ++ w :: post →
      (∀ v ∈ post, ∀ i j : Nat, i < 2 → j < 2 → wrapAddr (w.1 + i) ≠ wrapAddr (v.1 + j)) →
      (m.writeRun ws []).readWord w.1 = w.2)

/-! ## The reference inputs -/

/-- R4: a DISARMED classifier arms on a sample above S; an ARMED one finds a leading edge on the first
sample at or below S, at 16 t + frac: frac is 16 when that sample equals S, and else R4's formula where that
lies in 0..16, as it does whenever the sample before was above S. Elsewhere, S having been raised past that
sample, the fraction is a free value in 0..16 (assumption log 39, DESIGN CHOICE). -/
def Obligations.ClassifierFollowsTheSlice : Prop :=
  ∀ (i : Input) (t : Tick) (s0 s1 : Byte) (s : State),
    ((s.input i).classifier = .disarmed → (s.input i).slicer.s < (s0.toNat : Int) →
      ∃ u, exec (.classifierArmed i t s0) s = .next u ∧
        u.input i = { s.input i with classifier := .armed } ∧
        u.input (otherInput i) = s.input (otherInput i) ∧
        u = { s with rfe := { s.rfe with inA := u.rfe.inA, inB := u.rfe.inB, tick := t } }) ∧
    ((s.input i).classifier ≠ .disarmed ∨ (s0.toNat : Int) ≤ (s.input i).slicer.s →
      exec (.classifierArmed i t s0) s = .next s) ∧
    ((s.input i).classifier = .armed → (s1.toNat : Int) ≤ (s.input i).slicer.s →
      ∃ u, exec (.leadingEdge i t s0 s1) s = .next u ∧ ∃ frac : Nat,
        (let slice := (s.input i).slicer.s
         let formula : Int := (16 * ((s0.toNat : Int) - slice)).fdiv ((s0.toNat : Int) - s1.toNat)
         frac ≤ 16 ∧ ((s1.toNat : Int) = slice → frac = 16) ∧
         ((s1.toNat : Int) ≠ slice → s0 ≠ s1 → 0 ≤ formula → formula ≤ 16 → (frac : Int) = formula) ∧
         (slice < (s0.toNat : Int) →
           (frac : Int) = formula ∧ (frac = 16 ↔ (s1.toNat : Int) = slice))) ∧
        (u.input i).classifier = .inPulse (BitVec.ofNat 36 (16 * t.toNat + frac)) s1 ∧
        (∀ m, (s.input i).measure = some m →
          ((0 ≤ (m.u + 23 - (t + 1)).toInt → (u.input i).measure = none) ∧
           ((m.u + 23 - (t + 1)).toInt < 0 → (u.input i).measure = some m))) ∧
        u.input i = { s.input i with
          classifier := (u.input i).classifier, measure := (u.input i).measure } ∧
        u.input (otherInput i) = s.input (otherInput i) ∧
        u = { s with rfe := { s.rfe with inA := u.rfe.inA, inB := u.rfe.inB, tick := t + 1 } }) ∧
    ((s.input i).classifier ≠ .armed ∨ (s.input i).slicer.s < (s1.toNat : Int) →
      exec (.leadingEdge i t s0 s1) s = .next s)

/-- R5 and R7: an EQUALISING or NOISE pulse, and a BROAD one on an input that is not handed on, is dropped;
past the overrun, and at its tick, there is no pulse to end; an overrun disarms the classifier. That a sample
above S at that very tick is the overrun alone is assumption log 49 (DESIGN CHOICE).
R2, R5, R7, R8: a LINE pulse starts a measurement with the pulse's least sample, counts for its presence
window, is timed against the last LINE edge, and reaches LLL from the active input alone, as the arrival
that CapturesOpenSnapAndEnd and ArrivalsAreMeasured speak of. -/
def Obligations.PulsesAreClassified : Prop :=
  (∀ (i : Input) (u : Tick) (s1 least tip : Byte) (edge : Pu) (s : State),
    (s.input i).classifier = .inPulse edge tip →
    let w := (u - BitVec.ofNat 32 (edge.toNat / 16)).toNat
    ((s.input i).slicer.s < (s1.toNat : Int) →
      w < 128 ∨ (256 ≤ w ∧ w < 600) ∨
        (600 ≤ w ∧ w ≤ 1500 ∧ (s.rfe.active ≠ i ∨ s.tst.mode = .internalLoop)) →
      ∃ t, exec (.pulseClassification i u s1 least) s = .next t ∧
        t.input i = { s.input i with classifier := .armed } ∧
        t.input (otherInput i) = s.input (otherInput i) ∧
        t = { s with rfe := { s.rfe with inA := t.rfe.inA, inB := t.rfe.inB, tick := u } }) ∧
    (1500 < w ∨ (s1.toNat : Int) ≤ (s.input i).slicer.s →
      exec (.pulseClassification i u s1 least) s = .next s) ∧
    (∃ t, exec (.pulseOverrun i) s = .next t ∧
      t.input i = { s.input i with classifier := .disarmed } ∧
      t.input (otherInput i) = s.input (otherInput i) ∧
      t.rfe.tick = BitVec.ofNat 32 (edge.toNat / 16) + 1501 ∧
      t = { s with rfe := { s.rfe with inA := t.rfe.inA, inB := t.rfe.inB, tick := t.rfe.tick } })) ∧
  (∀ (i : Input) (u : Tick) (s1 least tip : Byte) (edge : Pu) (s : State),
    (s.input i).classifier = .inPulse edge tip → (s.input i).slicer.s < (s1.toNat : Int) →
    128 ≤ (u - BitVec.ofNat 32 (edge.toNat / 16)).toNat →
    (u - BitVec.ofNat 32 (edge.toNat / 16)).toNat ≤ 255 →
    ∃ t, exec (.pulseClassification i u s1 least) s = .next t ∧
      (t.input i).classifier = .armed ∧
      (t.input i).measure = some ⟨if least.toNat < tip.toNat then least else tip, u⟩ ∧
      (t.input i).lineCount = min 65535 ((s.input i).lineCount + 1) ∧
      (t.input i).lastEdge = some edge ∧
      ((s.input i).lastEdge = none →
        (t.input i).spacingCount = (s.input i).spacingCount ∧
        (t.input i).spacingSum = (s.input i).spacingSum) ∧
      (∀ last, (s.input i).lastEdge = some last →
        let d := (edge - last).toNat / 16
        (2200 ≤ d ∧ d ≤ 2400 →
          (t.input i).spacingCount = (s.input i).spacingCount + 1 ∧
          (t.input i).spacingSum = (s.input i).spacingSum + d) ∧
        (d < 2200 ∨ 2400 < d →
          (t.input i).spacingCount = (s.input i).spacingCount ∧
          (t.input i).spacingSum = (s.input i).spacingSum)) ∧
      (t.input i).slicer = (s.input i).slicer ∧ (t.input i).present = (s.input i).present ∧
      (t.input i).lossLatch = (s.input i).lossLatch ∧ (t.input i).detected = (s.input i).detected ∧
      t.input (otherInput i) = s.input (otherInput i) ∧
      t.rfe = { s.rfe with inA := t.rfe.inA, inB := t.rfe.inB, tick := u } ∧
      (s.rfe.active ≠ i ∨ s.tst.mode = .internalLoop → t = { s with rfe := t.rfe }) ∧
      (s.rfe.active = i → s.tst.mode ≠ .internalLoop →
        let r := s.lll.arrive s.cue.settings s.rfe.working s.tgn.line edge u
        t.lll = r.1 ∧ (s.tst.lockTime = none → t.tst = s.tst ∧ t.rpw = (produceAll r.2 s).rpw)) ∧
      t = { s with rfe := t.rfe, lll := t.lll, tst := t.tst, rpw := t.rpw })

/-- R2: the slicer update, with the blank level the truncated mean of its eight samples; a signal that
reads the tracked levels leaves them as they are, and S lies between T and B. -/
def Obligations.SlicerFollowsTheSignal : Prop :=
  ∀ (i : Input) (blank : List Byte) (m : Measure) (s : State),
    (s.input i).measure = some m → blank.length = 8 →
    ∃ t, exec (.slicerUpdate i blank) s = .next t ∧
      (let x := (s.input i).slicer
       let mean : Nat := (blank.map (fun b => b.toNat)).sum / 8
       let y := (t.input i).slicer
       y.t = x.t + asr ((m.tip.toNat : Int) - x.t) 3 ∧
       y.b = x.b + asr ((mean : Int) - x.b) 3 ∧
       y.a = y.b - y.t ∧ y.s = y.t + asr y.a 1 ∧
       min y.t y.b ≤ y.s ∧ y.s ≤ max y.t y.b ∧
       (x.t = m.tip.toNat → y.t = x.t) ∧ (x.b = mean → y.b = x.b) ∧
       t.input i = { s.input i with slicer := y, measure := none }) ∧
      t.input (otherInput i) = s.input (otherInput i) ∧
      t.rfe.tick = m.u + 23 ∧
      t = { s with rfe := { s.rfe with inA := t.rfe.inA, inB := t.rfe.inB, tick := t.rfe.tick } }

/-- R8 to R12: a window end judges both inputs, takes their detected standards, restarts their counts,
latches INPUT_CHANGE at a change of presence, keeps a loss latch only while INPUT/LOST cannot be
accepted, and sets the next window end. -/
def Obligations.WindowEndJudges : Prop :=
  ∀ s : State, ∃ t, exec .windowEnd s = .next t ∧
    t.rfe.tick = s.rfe.windowAt ∧ t.rfe.windowAt = s.rfe.windowAt + 720000 ∧
    (∀ i : Input,
      let x := s.input i
      let here : Bool := decide (200 ≤ x.lineCount ∧ (s.cue.settings.floor : Int) ≤ x.slicer.a)
      let mean := x.spacingSum / x.spacingCount
      t.input i = { x with
        present := here
        lossLatch := (t.input i).lossLatch
        detected := (t.input i).detected
        lineCount := 0, spacingCount := 0, spacingSum := 0 } ∧
      ((t.input i).detected = some .s625 ↔ 100 ≤ x.spacingCount ∧ 2298 ≤ mean ∧ mean ≤ 2310) ∧
      ((t.input i).detected = some .s525 ↔ 100 ≤ x.spacingCount ∧ 2282 ≤ mean ∧ mean ≤ 2294) ∧
      (here ≠ x.present → t.rpw.latched &&& Cause.inputChange.bit = Cause.inputChange.bit) ∧
      (8 ≤ s.rpw.fifo.length →
        (t.input i).lossLatch = (x.lossLatch || (x.present && !here))) ∧
      (s.rpw.fifo.length ≤ 4 → (t.input i).lossLatch = false)) ∧
    t.mem = s.mem ∧ t.cue = s.cue ∧ t.tgn = s.tgn ∧ t.wsk = s.wsk ∧ t.kbl = s.kbl ∧ t.mpt = s.mpt

/-- R15 to R17: under AUTO the active input is given up after the switch-windows count while the other is
PRESENT. That window end keeps the working standard, puts FAL in F_SEEK (R56) and a loop out of FREE in HOLDOVER
with its count restarted, its capture closed and the line's measurement discarded (R42); under a named input,
and while the active input is PRESENT, the active input stays. That a named input leaves the absence count as it
is is assumption log 34 (DEDUCED). -/
def Obligations.WindowEndSwitchesInputs : Prop :=
  ∀ s : State, ∃ t, exec .windowEnd s = .next t ∧
    (∀ i, s.cue.settings.policy = .named i → t.rfe.active = s.rfe.active ∧ t.rfe.absence = s.rfe.absence) ∧
    (s.cue.settings.policy = .auto →
      ((t.input s.rfe.active).present = true → t.rfe.active = s.rfe.active ∧ t.rfe.absence = 0) ∧
      ((t.input s.rfe.active).present = false →
        ((t.input (otherInput s.rfe.active)).present = false ∨
            min 15 (s.rfe.absence + 1) < s.cue.settings.switchWin →
          t.rfe.active = s.rfe.active ∧ t.rfe.absence = min 15 (s.rfe.absence + 1)) ∧
        ((t.input (otherInput s.rfe.active)).present = true →
            s.cue.settings.switchWin ≤ min 15 (s.rfe.absence + 1) →
          t.rfe.active = otherInput s.rfe.active ∧ t.rfe.absence = 0 ∧
          t.rpw.latched &&& Cause.inputChange.bit = Cause.inputChange.bit ∧
          t.rfe.working = s.rfe.working ∧
          t.fal = { s.fal with
            field := .seek, shift := 0, miss := 0, startSeen := false, broad := none, lockout := none } ∧
          (s.lll.loop = .free → t.lll = s.lll) ∧
          (s.lll.loop = .holdover → t.lll = { s.lll with holdover := 0 }) ∧
          (s.lll.loop ≠ .free → s.lll.loop ≠ .holdover → t.lll = { s.lll with
            loop := .holdover, holdover := 0, capture := none, flywheel := 0, stray := none
            settling := false, accepted := none, lineStray := none }))))

/-- R13, R14, R43, R56: under AUTO the second window in a row with another detected standard changes the
working standard, which puts the loop in FREE at the new nominal period and FAL in F_SEEK; under a
forced mode no window changes it. -/
def Obligations.WindowEndSettlesTheStandard : Prop :=
  ∀ s : State, ∃ t, exec .windowEnd s = .next t ∧
    (∀ d, s.cue.settings.stdMode = .force d → t.rfe.working = s.rfe.working) ∧
    (s.cue.settings.stdMode = .auto →
      (∀ d, (t.input t.rfe.active).detected = some d → d ≠ s.rfe.working → t.rfe.active = s.rfe.active →
        (s.rfe.differ = 0 → t.rfe.working = s.rfe.working ∧ t.rfe.differ = 1) ∧
        (1 ≤ s.rfe.differ →
          t.rfe.working = d ∧ t.rfe.differ = 0 ∧ t.lll.loop = .free ∧ t.lll.p = d.nominal ∧
          t.lll.capture = none ∧ t.lll.c.natAbs ≤ d.half ∧ t.lll.hEff.natAbs ≤ d.half ∧
          t.lll.hTarget.natAbs ≤ d.half ∧ t.fal.field = .seek ∧ t.fal.broad = none)) ∧
      ((t.input t.rfe.active).detected = none ∨ (t.input t.rfe.active).detected = some s.rfe.working →
        t.rfe.working = s.rfe.working ∧ t.rfe.differ = 0))

/-- R10, R11, R14, R15, R17: the records a window end hands to a FIFO with room, in their order. For each
input INPUT/LOST again where its loss latch is set, then INPUT/PRESENT or INPUT/LOST at a change of presence;
INPUT/SWITCHED, and with it LOCK/HOLDOVER and FIELD/LOST where the loop and the aligner leave their states;
WARN/STANDARD where a forced standard mode meets another detected standard, once until it has been met; and
LOCK/STANDARD where the working standard changes. -/
def Obligations.WindowEndReports : Prop :=
  ∀ s : State, s.rpw.openGap = 0 → ∃ t, exec .windowEnd s = .next t ∧
    (let inCode : Input → Nat := fun i => if i = .a then 0 else 1
     let word (i act : Input) : Word := BitVec.ofNat 16
       (inCode i + (if t.rfe.inA.present then 2 else 0) + (if t.rfe.inB.present then 4 else 0)
         + 8 * inCode act)
     let found (i : Input) : Word :=
       match (t.input i).detected with | some .s625 => 0 | some .s525 => 1 | none => 2
     let stdCode : Standard → Word := fun d => if d = .s625 then 0 else 1
     let input (w0 : Word) (i : Input) : Report :=
       { w0 := w0, stamp := s.tgn.stamp, w4 := word i s.rfe.active, w5 := found i }
     let ofInput (i : Input) : List Report :=
       (if (s.input i).lossLatch then [input 0x0102#16 i] else []) ++
       (if (t.input i).present = (s.input i).present then []
        else if (s.input i).present then [input 0x0102#16 i] else [input 0x0101#16 i])
     let changes := ofInput .a ++ ofInput .b
     let switched : Report :=
       { w0 := 0x0103#16, stamp := s.tgn.stamp, w4 := word t.rfe.active t.rfe.active, w5 := 0 }
     let warn (before : Bool) (f : Standard) : List Report :=
       match (t.input t.rfe.active).detected with
       | some d =>
         if d ≠ f ∧ before = false then
           [{ w0 := 0x0901#16, stamp := s.tgn.stamp, w4 := stdCode d, w5 := stdCode f
              w6 := BitVec.ofNat 16 (inCode t.rfe.active) }]
         else []
       | none => []
     let records : List Report → List FifoRecord := fun rs => rs.map (fun r => ⟨r, none⟩)
     (t.rfe.active = s.rfe.active →
       (∀ f, s.cue.settings.stdMode = .force f →
         (s.rpw.fifo.length ≤ 3 →
           t.rpw.fifo = s.rpw.fifo ++ records (changes ++ warn s.rfe.warned f)) ∧
         t.rfe.warned = (match (t.input t.rfe.active).detected with
           | some d => decide (d ≠ f) | none => s.rfe.warned)) ∧
       (s.cue.settings.stdMode = .auto → t.rfe.working = s.rfe.working → s.rpw.fifo.length ≤ 4 →
         t.rpw.fifo = s.rpw.fifo ++ records changes) ∧
       (s.cue.settings.stdMode = .auto → t.rfe.working ≠ s.rfe.working → s.rpw.fifo.length ≤ 1 →
         ∃ rest, t.rpw.fifo = s.rpw.fifo ++ records (changes ++
             [{ w0 := 0x0206#16, stamp := s.tgn.stamp, w4 := stdCode t.rfe.working
                w5 := BitVec.ofNat 16 (inCode t.rfe.active), w6 := 0 }]) ++ rest ∧
           rest.map (fun r => r.report.w0) =
             (if s.lll.loop = .free then [] else [0x0205#16]) ++
             (if s.fal.field = .seek then [] else [0x0304#16]))) ∧
     (t.rfe.active ≠ s.rfe.active → s.rpw.fifo = [] →
       ∃ rest, t.rpw.fifo = records (changes ++ [switched]) ++ rest ∧
         rest.map (fun r => r.report.w0) =
           (if s.lll.loop = .free ∨ s.lll.loop = .holdover then [] else [0x0204#16]) ++
           (if s.fal.field = .seek then [] else [0x0304#16]) ++
           (match s.cue.settings.stdMode with
            | .force f => (warn false f).map (fun r => r.w0) | .auto => [])))
/-! ## The line lock loop -/

/-- R23, R24: at every line end the next ideal start becomes the ideal start and the line's start tick,
and each of the events that name a line end either is that line end or changes nothing (assumption log 5,
DESIGN CHOICE); from a loop within its ranges the new line's Len lies within one thirty-second of the
nominal, but for the line of a phase step in SNAP mode (R35). R70, R71: the line reads D and its layout as
the boundary's cues leave them (log 17, DEDUCED), and KEY ends with the active span it was driven in, which
a line cut short does not end (log 21, DEDUCED). HOLD and TALLY are the event's operands (log 10, DESIGN
CHOICE). -/
def Obligations.LineEndMovesTheGrid : Prop :=
  ∀ (x : LineInputs) (s : State), ∃ t, exec (.lineEnd x) s = .next t ∧
    (∀ c : Instr, c = .flywheelLimit x ∨ c = .missedFields x ∨ c = .scanPoint x ∨ c = .fieldBoundary x ∨
        c = .holdoverExpiry x ∨ c = .testNolock x ∨ c = .waitendExpired x →
      exec c s = .next t ∨ exec c s = .next s) ∧
    t.lll.ideal = s.lll.nextIdeal ∧
    t.tgn.lineStart = BitVec.ofNat 32 (s.lll.nextIdeal.toNat / 256) ∧ t.rfe.tick = t.tgn.lineStart ∧
    t.pins = { hold := x.hold, tally := x.tally } ∧
    t.tgn.nextDot = 0 ∧ t.tgn.keyUntil = s.tgn.keyUntil ∧
    (0 ≤ (t.tgn.lineStart - s.tgn.keyUntil).toInt → t.tgn.key = 0) ∧
    ((t.tgn.lineStart - s.tgn.keyUntil).toInt < 0 → t.tgn.key = s.tgn.key) ∧
    t.tgn.lineD = t.cue.settings.dots ∧ t.tgn.lineStd = t.rfe.working ∧ t.mem = s.mem ∧
    (let snapStep : Prop := s.cue.settings.stepMode = .snap ∧
       (s.lll.loop = .track ∨ s.lll.loop = .coast) ∧ s.lll.settling = false ∧
       s.cue.settings.inCoast s.tgn.line = false ∧ s.lll.accepted = none ∧
       ∃ o r, s.lll.lineStray = some o ∧ s.lll.stray = some r ∧ r.count = 2 ∧
         (o - r.last).natAbs ≤ s.cue.settings.captureTol
     s.rfe.working.pMin ≤ s.lll.p → s.lll.p ≤ s.rfe.working.pMax → ¬snapStep →
       ∃ len : Nat, t.lll.nextIdeal = s.lll.nextIdeal + BitVec.ofNat 40 len ∧
         s.rfe.working.lenMin ≤ len ∧ len ≤ s.rfe.working.lenMax)

/-- R28 to R30, R32, R193: a line with an accepted error moves P by e / 2^ki, clamped to the pull range, and the
new line's Len by e / 2^kp; LOCK/PULL_LIMIT comes at the first line end at which the clamp acts. The error joins
the field's least, greatest and summed errors, and TST's record of the field counts it where it is above 1 pu in
magnitude, stopping at 1023. The quotients are rounded to nearest, ties away from zero (spec/00_scope.md,
Arithmetic). -/
def Obligations.MeasuredLineSteersTheLoop : Prop :=
  (∀ (x : LineInputs) (e : Int) (s : State),
    s.lll.loop = .track ∨ s.lll.loop = .coast → s.lll.settling = false →
    s.cue.settings.inCoast s.tgn.line = false → s.lll.accepted = some e → s.tgn.line < s.tgn.length →
    ∃ t, exec (.lineEnd x) s = .next t ∧
      (let d := s.rfe.working
       let raw : Int := s.lll.p + roundDiv (16 * e) s.cue.settings.ki
       let acts := raw < d.pMin ∨ (d.pMax : Int) < raw
       (t.lll.p : Int) = clampI raw d.pMin d.pMax ∧
       t.lll.nextIdeal = s.lll.nextIdeal +
         BitVec.ofInt 40 (clampI (t.lll.p + roundDiv (16 * e) s.cue.settings.kp) d.lenMin d.lenMax) ∧
       (t.lll.pullLimit = true ↔ acts) ∧
       (acts → s.lll.pullLimit = false → s.rpw.fifo.length < 8 → s.tgn.line ≠ 16 →
         ∃ g, t.rpw.fifo[s.rpw.fifo.length]? = some
           ⟨(repPullLimit t.lll.p (decide ((d.pMax : Int) < raw)) e).stamped s.tgn.stamp, g⟩) ∧
       (¬acts ∨ s.lll.pullLimit = true → s.tgn.line ≠ 16 → t.rpw = s.rpw)) ∧
      t.lll.loop = .track ∧ t.lll.lastE = e ∧ t.lll.flywheel = 0 ∧ t.lll.stray = none ∧
      t.lll.stats.accepted = s.lll.stats.accepted + 1 ∧ t.lll.stats.coast = s.lll.stats.coast ∧
      t.lll.stats.errors = (match s.lll.stats.errors with
        | none => some ⟨e, e, e⟩
        | some f => some ⟨min f.least e, max f.greatest e, f.sum + e⟩) ∧
      (s.tst.count = none → t.tst.count = none) ∧
      (∀ r, s.tst.count = some r → t.tst.count =
        some (if r.stamp = s.tgn.stamp ∧ 1 < e.natAbs then { r with excess := min 1023 (r.excess + 1) }
          else r)) ∧
      t.lll.accepted = none ∧ t.lll.lineStray = none ∧ t.lll.hTarget = s.lll.hTarget ∧
      t.lll.hEff = moveToward s.lll.hEff s.lll.hTarget s.cue.settings.slew ∧
      t.lll.c = moveToward s.lll.c 0 s.cue.settings.slew) ∧
  (∀ (v : Int) (k : Nat),
    let off : Int := 2 ^ k * roundDiv v k - v
    2 * off.natAbs ≤ 2 ^ k ∧ (2 * off.natAbs = 2 ^ k → v.natAbs < (2 ^ k * roundDiv v k).natAbs))

/-- R28: at the end of a settling line the loop stays as it is, and a coast-window line puts it in COAST; neither
touches the flywheel count or the stray record, and neither is a FLYWHEEL_LIMIT. A settling line inside the coast
window counts as a settling line by assumption log 43 (DESIGN CHOICE).
R28, R31, R33, R40, R45: a line with no accepted pulse that completes no phase step counts toward the flywheel
limit in COAST, its stray, or none, going to the stray record; at the limit, with a stray or without, it enters
HOLDOVER, with LOCK/HOLDOVER, which is what FLYWHEEL_LIMIT names; P never moves.
R40, R41, R45, R56: at the boundary at which the holdover limit is reached the loop goes to FREE at the
nominal period and FAL to F_SEEK, with LOCK/FREE and, out of another field state, FIELD/LOST, behind
TEST/FIELD where TST gives one (log 22, DEDUCED), whatever cues the boundary then runs. That FLYWHEEL_LIMIT and
HOLDOVER_EXPIRY are the whole line end where the limit is reached and nothing elsewhere is assumption log 5
(DESIGN CHOICE); that the miss check may come before the evaluation is log 6 (DEDUCED), and that LOCK/HOLDOVER
of a field's last line bears the ended field's stamp is log 16 (DEDUCED). -/
def Obligations.FlywheelAndHoldoverRunOut : Prop :=
  (∀ (x : LineInputs) (s : State),
    (s.lll.loop = .track ∨ s.lll.loop = .coast →
      let moved (l : Lll) (t : State) : Prop := t.lll = { l with
        ideal := s.lll.nextIdeal, nextIdeal := s.lll.nextIdeal + BitVec.ofNat 40 s.lll.p
        hEff := t.lll.hEff, c := t.lll.c, accepted := none, lineStray := none }
      let coasted : FieldStats := { s.lll.stats with coast := s.lll.stats.coast + 1 }
      let agrees : Int → StrayRecord → Bool := fun o r => (o - r.last).natAbs ≤ s.cue.settings.captureTol
      let isStep : Bool := match s.lll.lineStray, s.lll.stray with
        | some o, some r => r.count = 2 ∧ agrees o r
        | _, _ => false
      let stray : Option StrayRecord := match s.lll.lineStray, s.lll.stray with
        | none, _ => none
        | some o, none => some ⟨1, o⟩
        | some o, some r => if agrees o r then some ⟨r.count + 1, o⟩ else some ⟨1, o⟩
      (s.lll.settling = true →
        exec (.flywheelLimit x) s = .next s ∧
        (s.tgn.line < s.tgn.length → ∃ t, exec (.lineEnd x) s = .next t ∧
          moved { s.lll with settling := false } t)) ∧
      (s.lll.settling = false → s.cue.settings.inCoast s.tgn.line = true →
        exec (.flywheelLimit x) s = .next s ∧
        (s.tgn.line < s.tgn.length → ∃ t, exec (.lineEnd x) s = .next t ∧
          moved { s.lll with loop := .coast, stats := coasted } t)) ∧
      (s.lll.settling = false → s.cue.settings.inCoast s.tgn.line = false → s.lll.accepted = none →
        isStep = false →
        (s.lll.flywheel + 1 < s.cue.settings.flyLimit →
          exec (.flywheelLimit x) s = .next s ∧
          (s.tgn.line < s.tgn.length → ∃ t, exec (.lineEnd x) s = .next t ∧
            moved { s.lll with
              loop := .coast, stray := stray, flywheel := s.lll.flywheel + 1, stats := coasted } t)) ∧
        (s.cue.settings.flyLimit ≤ s.lll.flywheel + 1 →
          exec (.flywheelLimit x) s = exec (.lineEnd x) s ∧
          (s.tgn.line ≠ 16 → s.rpw.fifo.length < 8 → ∃ t, exec (.flywheelLimit x) s = .next t ∧ ∃ g,
            t.rpw.fifo[s.rpw.fifo.length]? = some
              ⟨{ w0 := 0x0204#16, stamp := s.tgn.stamp, w4 := BitVec.ofNat 16 s.lll.p
                 w5 := BitVec.ofNat 16 (s.lll.p / 65536), w6 := 0, w7 := BitVec.ofInt 16 s.lll.lastE }, g⟩) ∧
          (s.tgn.line < s.tgn.length → ∃ t, exec (.flywheelLimit x) s = .next t ∧
            moved { s.lll with
              loop := .holdover, holdover := 0, flywheel := 0, stray := none, stats := coasted } t ∧
            t.tgn.line = s.tgn.line + 1 ∧
            t.fal.field = (if x.order.missFirst = true ∧ s.missedHere x = true then .seek
              else s.fal.field))))) ∧
    (s.lll.loop = .free ∨ s.lll.loop = .capture ∨ s.lll.loop = .holdover →
      exec (.flywheelLimit x) s = .next s)) ∧
  (∀ (x : LineInputs) (s : State),
    let reported : State → Prop := fun t => s.rpw.fifo.length ≤ 5 → ∃ k : Nat, k ≤ 1 ∧
      (k = 1 → ∃ r, s.tst.count = some r ∧ r.stamp = s.tgn.stamp) ∧
      (∃ g, t.rpw.fifo[s.rpw.fifo.length + k]? = some
        ⟨{ w0 := 0x0205#16, stamp := s.tgn.stamp + 1, w4 := BitVec.ofNat 16 s.rfe.working.nominal
           w5 := BitVec.ofNat 16 (s.rfe.working.nominal / 65536), w6 := 0 }, g⟩) ∧
      (s.fal.field ≠ .seek → ∃ y, t.rpw.fifo[s.rpw.fifo.length + k + 1]? = some y ∧
        y.report.w0 = 0x0304#16 ∧ y.report.w5 = 1)
    (s.lll.loop = .holdover → s.tgn.length ≤ s.tgn.line →
      s.cue.settings.holdLimit ≤ s.lll.holdover + 1 →
      ∃ t, exec (.holdoverExpiry x) s = .next t ∧ exec (.lineEnd x) s = .next t ∧ reported t ∧
        t.lll.loop = .free ∧ t.lll.p = t.rfe.working.nominal ∧ t.lll.holdover = 0 ∧
        t.fal.field = .seek ∧ t.fal.shift = 0) ∧
    (∀ r, s.lll.loop = .capture → s.lll.capture = some r → r.origin = .holdover →
      s.tgn.length ≤ s.tgn.line → s.cue.settings.holdLimit ≤ s.lll.holdover + 1 →
      s.cue.engine = .stopped →
      ∃ t, exec (.holdoverExpiry x) s = .next t ∧ exec (.lineEnd x) s = .next t ∧ reported t ∧
        t.lll.loop = .capture ∧ t.lll.capture = some { r with origin := .free } ∧
        t.lll.p = s.rfe.working.nominal ∧ t.lll.holdover = 0 ∧ t.fal.field = .seek) ∧
    (s.tgn.line < s.tgn.length ∨ s.lll.holdover + 1 < s.cue.settings.holdLimit ∨ s.lll.loop = .free →
      exec (.holdoverExpiry x) s = .next s))

/-- R39: abandonment closes the capture and goes back to the state it was opened from.
R36, R37, R38: what any LINE arrival, RFE's or TST's, does to a loop that is not locked. It opens a capture
from FREE or HOLDOVER; in CAPTURE an edge at a spacing outside the pull range, or one that disagrees with the
spacing before it, starts the search again from itself; a second agreeing spacing snaps the loop into TRACK,
with LOCK/ACQUIRED and the end of the line in progress at the first instant of the grid through the edge
whose tick is later than the arrival's.
R191: TST's next arrival comes 170 ticks into its line, unless the line in progress ends before that. That
CAPTURE_ABANDON outside CAPTURE and TST_LINE_ARRIVAL outside INTERNAL_LOOP change nothing is assumption
log 4 (DEDUCED). -/
def Obligations.CapturesOpenSnapAndEnd : Prop :=
  (∀ s : State,
    (∀ r, s.lll.loop = .capture → s.lll.capture = some r →
      ∃ t, exec .captureAbandon s = .next t ∧
        t.lll = { s.lll with
          loop := if r.origin = .free then .free else .holdover, capture := none } ∧
        t.rfe.tick = r.lastTick + BitVec.ofNat 32 (s.rfe.working.pMax / 256) ∧
        t = { s with lll := t.lll, rfe := { s.rfe with tick := t.rfe.tick } }) ∧
    (s.lll.loop ≠ .capture → exec .captureAbandon s = .next s) ∧
    (s.tst.mode ≠ .internalLoop ∨ s.tst.lines = [] → exec .tstLineArrival s = .next s) ∧
    (∀ edge rest, s.tst.mode = .internalLoop → s.tst.lines = edge :: rest →
      let tick : Tick := BitVec.ofNat 32 (edge.toNat / 16) + 170
      let r := s.lll.arrive s.cue.settings s.rfe.working s.tgn.line edge tick
      (0 ≤ (BitVec.ofNat 32 (s.lll.nextIdeal.toNat / 256) - tick).toInt →
        ∃ t, exec .tstLineArrival s = .next t ∧ t.rfe = { s.rfe with tick := tick } ∧
          t.tst.lines = rest ∧ t.tst.run = s.tst.run ∧ t.tst.mode = s.tst.mode ∧ t.lll = r.1 ∧
          (s.tst.lockTime = none → t.rpw = (produceAll r.2 s).rpw) ∧
          t = { s with rfe := t.rfe, lll := t.lll, tst := t.tst, rpw := t.rpw }) ∧
      ((BitVec.ofNat 32 (s.lll.nextIdeal.toNat / 256) - tick).toInt < 0 →
        exec .tstLineArrival s = .next s))) ∧
  (∀ (l : Lll) (st : Settings) (d : Standard) (line : Nat) (edge : Pu) (tick : Tick),
    let a := l.arrive st d line edge tick
    (∀ o, l.loop = .free ∧ o = Origin.free ∨ l.loop = .holdover ∧ o = Origin.holdover →
      a = ({ l with loop := .capture, capture := some ⟨o, edge, tick, none⟩ }, [])) ∧
    (∀ r, l.loop = .capture → l.capture = some r →
      let sp := (edge - r.lastEdge).toNat
      (sp < d.pMin / 16 ∨ d.pMax / 16 < sp →
        a = ({ l with capture := some { r with lastEdge := edge, lastTick := tick, first := none } }, [])) ∧
      (d.pMin / 16 ≤ sp → sp ≤ d.pMax / 16 →
        (r.first = none ∨ (∃ d1, r.first = some d1 ∧ st.captureTol < ((sp : Int) - d1).natAbs) →
          a = ({ l with
            capture := some { r with lastEdge := edge, lastTick := tick, first := some sp } }, [])) ∧
        (∀ d1, r.first = some d1 → ((sp : Int) - d1).natAbs ≤ st.captureTol →
          let p := max d.pMin (min (16 * sp) d.pMax)
          let grid : Nat → Qu := fun j =>
            BitVec.ofInt 40 (16 * ((edge.toNat : Int) - l.hEff)) + BitVec.ofNat 40 (j * p)
          let later : Qu → Prop := fun q => 0 < (BitVec.ofNat 32 (q.toNat / 256) - tick).toInt
          a.1 = { l with
            loop := .track, p := p, nextIdeal := a.1.nextIdeal, settling := true, c := 0, flywheel := 0
            holdover := 0, stray := none, pullLimit := false, capture := none, accepted := none
            lineStray := none } ∧
          (l.hEff.natAbs ≤ d.half → (tick - BitVec.ofNat 32 (edge.toNat / 16)).toNat ≤ 255 →
            ∃ j, a.1.nextIdeal = grid j ∧ later (grid j) ∧ ∀ i < j, ¬later (grid i)) ∧
          a.2 = [{ w0 := 0x0201#16, w4 := BitVec.ofNat 16 p, w5 := BitVec.ofNat 16 (p / 65536)
                   w6 := if r.origin = .free then 0 else 1 }]))))

/-- R26, R27: in a locked state the first arrival within 1024 pu of the expected edge is the line's
measurement and the first within a quarter of a line its stray; later ones, those further off, and
those of a settling line or a coast-window line change nothing. The expected edge is E, which is
floor(ideal / 16) + H_eff + C, or one floor(P / 16) before or after it, whichever is nearest. -/
def Obligations.ArrivalsAreMeasured : Prop :=
  ∀ (l : Lll) (st : Settings) (d : Standard) (line : Nat) (edge : Pu) (tick : Tick),
    l.loop = .track ∨ l.loop = .coast →
    let o := l.offset edge
    let e : Pu := BitVec.ofNat 36 (l.ideal.toNat / 16) + BitVec.ofInt 36 (l.hEff + l.c)
    let diff : Int → Int := fun k => (edge - (e + BitVec.ofInt 36 (k * (l.p / 16 : Nat)))).toInt
    let r := l.arrive st d line edge tick
    r.2 = [] ∧
    (l.settling = true ∨ st.inCoast line = true → r.1 = l) ∧
    (l.settling = false → st.inCoast line = false →
      (o.natAbs ≤ 1024 →
        r.1 = { l with accepted := match l.accepted with | none => some o | some e => some e }) ∧
      (1024 < o.natAbs → o.natAbs ≤ d.quarter →
        r.1 = { l with lineStray := match l.lineStray with | none => some o | some e => some e }) ∧
      (1024 < o.natAbs → d.quarter < o.natAbs → r.1 = l)) ∧
    (o = diff 0 ∨ o = diff (-1) ∨ o = diff 1) ∧
    (∀ k : Int, k = 0 ∨ k = 1 ∨ k = -1 → o.natAbs ≤ (diff k).natAbs)

/-- R33 to R35, R45: the third stray in a row that agrees is a phase step, which in SLEW mode goes into C
and in SNAP mode into the next line, with LOCK/STEP, however far the flywheel count has come; a stray that
disagrees starts the record again. (That a line without a stray empties the record is in
FlywheelAndHoldoverRunOut.) -/
def Obligations.ThirdStrayIsAStep : Prop :=
  ∀ (x : LineInputs) (o : Int) (s : State),
    s.lll.loop = .track ∨ s.lll.loop = .coast → s.lll.settling = false →
    s.cue.settings.inCoast s.tgn.line = false → s.lll.accepted = none → s.lll.lineStray = some o →
    s.tgn.line < s.tgn.length →
    ∃ t, exec (.lineEnd x) s = .next t ∧ t.lll.p = s.lll.p ∧
      (s.lll.stray = none → s.lll.flywheel + 1 < s.cue.settings.flyLimit →
        t.lll.stray = some ⟨1, o⟩ ∧ t.lll.loop = .coast ∧ t.lll.flywheel = s.lll.flywheel + 1) ∧
      (∀ r, s.lll.stray = some r →
        (s.lll.flywheel + 1 < s.cue.settings.flyLimit →
          (s.cue.settings.captureTol < (o - r.last).natAbs →
            t.lll.stray = some ⟨1, o⟩ ∧ t.lll.loop = .coast) ∧
          ((o - r.last).natAbs ≤ s.cue.settings.captureTol → r.count = 1 →
            t.lll.stray = some ⟨2, o⟩ ∧ t.lll.loop = .coast)) ∧
        ((o - r.last).natAbs ≤ s.cue.settings.captureTol → r.count = 2 →
          let c := clampI (s.lll.c + o) (-(s.rfe.working.half : Int)) s.rfe.working.half
          let snap := s.cue.settings.stepMode = .snap
          t.lll.stray = none ∧ t.lll.loop = .track ∧ t.lll.flywheel = 0 ∧
          (s.tgn.line ≠ 16 → s.rpw.fifo.length < 8 →
            ∃ g, t.rpw.fifo = s.rpw.fifo ++ [⟨{ w0 := 0x0202#16, stamp := s.tgn.stamp
                                                w4 := if snap then 0 else 1, w5 := BitVec.ofInt 16 o
                                                w6 := if snap then 0 else BitVec.ofInt 16 c }, g⟩]) ∧
          (s.cue.settings.stepMode = .slew →
            t.lll.c = moveToward c 0 s.cue.settings.slew ∧ t.lll.settling = false ∧
            t.lll.nextIdeal = s.lll.nextIdeal + BitVec.ofNat 40 s.lll.p) ∧
          (snap → t.lll.settling = true ∧
            (0 ≤ (s.lll.p : Int) + 16 * o →
              t.lll.nextIdeal = s.lll.nextIdeal + BitVec.ofInt 40 ((s.lll.p : Int) + 16 * o)))))
/-! ## The field aligner and the generated fields -/

/-- R46, R47: what a BROAD arrival from the active input does to the broad record: nothing within 16 lines of a
start, else it opens the record, placed on the generated grid by its offset from E, counts in it within 3 lines
of its first edge, or, as the third, starts the lockout; a late one opens the record afresh.
R48: the start so detected is acted on in a locked loop, as StartsAndShiftsSetTheLength says, and dropped in any
other. The field it is handled against has the working standard's length (assumption log 40, DESIGN CHOICE). -/
def Obligations.BroadPulsesDetectStarts : Prop :=
  ∀ (i : Input) (u : Tick) (s1 least tip : Byte) (edge : Pu) (s : State),
    (s.input i).classifier = .inPulse edge tip → (s.input i).slicer.s < (s1.toNat : Int) →
    600 ≤ (u - BitVec.ofNat 32 (edge.toNat / 16)).toNat →
    (u - BitVec.ofNat 32 (edge.toNat / 16)).toNat ≤ 1500 →
    s.rfe.active = i → s.tst.mode ≠ .internalLoop →
    let lp := s.lll.p / 16
    let locked : Prop := s.lll.loop = .track ∨ s.lll.loop = .coast
    let e : Pu := BitVec.ofNat 36 (s.lll.ideal.toNat / 16) + BitVec.ofInt 36 (s.lll.hEff + s.lll.c)
    let offset : Int := (edge - e).toInt
    let quarter : Int := ((s.rfe.working.nominal / 64 : Nat) : Int)
    let n : Int := (offset + quarter) / (lp : Int)
    let opened : BroadRecord :=
      { first := edge, anchor := (s.tgn.line : Int) + n - 1
        parity := if offset - n * lp ≤ quarter then .one else .two, count := 1 }
    ∃ t, exec (.pulseClassification i u s1 least) s = .next t ∧
      t = { s with rfe := t.rfe, fal := t.fal, tgn := { s.tgn with length := t.tgn.length }, rpw := t.rpw
                   tst := t.tst } ∧
      (¬locked → t = { s with rfe := t.rfe, fal := t.fal }) ∧
      t.input i = { s.input i with classifier := .armed } ∧
      t.input (otherInput i) = s.input (otherInput i) ∧ t.rfe.tick = u ∧
      (∀ last, s.fal.lockout = some last → (edge - last).toNat < 16 * lp →
        t.fal = s.fal ∧ t.tgn = s.tgn) ∧
      ((∀ last, s.fal.lockout = some last → 16 * lp ≤ (edge - last).toNat) →
        (s.fal.broad = none ∨ (∃ r, s.fal.broad = some r ∧ 3 * lp < (edge - r.first).toNat) →
          t.fal = { s.fal with broad := some opened } ∧ t.tgn = s.tgn) ∧
        (∀ r, s.fal.broad = some r → (edge - r.first).toNat ≤ 3 * lp →
          (r.count = 1 → t.fal = { s.fal with broad := some { r with count := 2 } } ∧ t.tgn = s.tgn) ∧
          (r.count = 2 →
            let f : Fal := { s.fal with broad := none, lockout := some r.first }
            let a := f.handleStart s.fieldCtx r
            (¬locked → t.fal = f) ∧
            (locked → t.fal = a.fal ∧ t.tgn.length = a.length ∧
              (s.tst.lockTime = none → t.rpw = (produceAll a.reports s).rpw)))))

/-- R191, R192: TST's arrivals of a line are placed at its start. The line's LINE arrival has the ideal start as
its edge and comes after one of the line before that falls at the very tick of the line end (R26). A run of
three BROAD arrivals at half a line is placed V offset lines before a field 1 begins, for V offset 0 at the
start of its line 1; and V offset lines and a half before a field 2 begins, which is at the start of the field's
line l - V plus half a line, l being the length of the field 1 before it.
R192, R46 to R48: TST's BROAD arrivals come in their order, each 1000 ticks after its edge; one less than 16
line spacings after the last detected start is ignored, and the third of a run is a reference field start, acted
on in a locked loop, after which FAL is in F_ALIGN or F_LOCK, and dropped elsewhere. A boundary whose run was
placed has a second one where its line comes again: assumption log 53 (DESIGN CHOICE). That an arrival outside
INTERNAL_LOOP changes nothing is assumption log 4 (DEDUCED). -/
def Obligations.TestRunsReachTheAligner : Prop :=
  (∀ (x : LineInputs) (s : State), ∃ t, exec (.lineEnd x) s = .next t ∧
    (t.tst.mode = .internalLoop →
      let start : Pu := BitVec.ofNat 36 (t.lll.ideal.toNat / 16)
      let p := t.lll.p
      let v := t.cue.settings.vOffset
      let run : Pu → List Pu := fun e => [e, e + BitVec.ofNat 36 (p / 32), e + BitVec.ofNat 36 (p / 16)]
      t.tst.lines.getLast? = some start ∧
      (∀ e ∈ t.tst.lines, e = start ∨ BitVec.ofNat 32 (e.toNat / 16) + 170 = t.tgn.lineStart) ∧
      (s.tst.run = [] → p ≤ 2 ^ 20 →
        t.tst.run =
          (if t.tgn.parity = .one then
            (if t.tgn.line + v = t.tgn.length then run (start + BitVec.ofNat 36 (p / 32))
             else if v = 0 ∧ t.tgn.line = 1 then run start else [])
           else if 0 < v ∧ t.tgn.line + v = t.tgn.length + 1 then run start else [])))) ∧
  (∀ (e : Pu) (rest : List Pu) (s : State), s.tst.run = e :: rest →
    (s.tst.mode ≠ .internalLoop → exec .tstBroadArrival s = .next s) ∧
    (s.tst.mode = .internalLoop →
      ∃ t, exec .tstBroadArrival s = .next t ∧ t.tst.run = rest ∧
        t.rfe = { s.rfe with tick := BitVec.ofNat 32 (e.toNat / 16) + 1000 } ∧
        t.lll = s.lll ∧ t.cue = s.cue ∧ t.mem = s.mem ∧
        t.tgn = { s.tgn with length := t.tgn.length } ∧
        (let open_ : Prop := ∀ last, s.fal.lockout = some last → 16 * (s.lll.p / 16) ≤ (e - last).toNat
        (¬open_ → t.fal = s.fal ∧ t.tgn = s.tgn) ∧
        (open_ → s.fal.broad = none →
          t.tgn.length = s.tgn.length ∧ t.fal = { s.fal with broad := t.fal.broad } ∧
          ∃ r, t.fal.broad = some r ∧ r.first = e ∧ r.count = 1) ∧
        (∀ r, open_ → s.fal.broad = some r → r.count = 1 → (e - r.first).toNat ≤ 3 * (s.lll.p / 16) →
          t.tgn.length = s.tgn.length ∧ t.fal = { s.fal with broad := some { r with count := 2 } }) ∧
        (∀ r, open_ → s.fal.broad = some r → r.count = 2 →
          (e - r.first).toNat ≤ 3 * (s.lll.p / 16) →
          t.fal.broad = none ∧ t.fal.lockout = some r.first ∧
          (s.lll.locked = false → t.tgn = s.tgn ∧ t.fal.field = s.fal.field ∧
            t.fal.startSeen = s.fal.startSeen) ∧
          (s.lll.locked = true → t.fal.startSeen = true ∧ t.fal.lastParity = some r.parity ∧
            (t.fal.field = .align ∨ t.fal.field = .lock) ∧
            (s.fal.field = .seek → t.fal.lastDelta = 0 → t.fal.field = .lock) ∧
            (t.fal.field = .lock → s.fal.field ≠ .lock → t.fal.lastDelta = 0))))))

/-- R48, R49, R51 to R54, R62: Δ is the distance of the aligned position g from the end of the field, modulo
the frame, brought nearest 0, and what FAL does with it. At 0 it is in F_LOCK with nothing pending, with
FIELD/LOCKED where it was not. In F_LOCK a small Δ that agrees in parity with the boundary nearer to g is a
correction with FIELD/ADJUST, any other goes back to F_ALIGN with FIELD/REALIGN. A Δ already pending changes
nothing. Any other makes a new shift: Δ for a correction (WHOLE) and for an agreeing start under SLIP, else Δ
brought into -(F - 17)..16 modulo the frame length F (WHOLE). The field in progress takes it, or for SLIP one
line of it, where its length then lies from the greater of 20 and the line in progress up to its standard length
plus 16; else its length stays and all of the shift is pending.
R50: the length of the field that begins takes what it can of the pending shift, one line of it for
SLIP, and the rest stays pending; in holdover and with nothing pending the field is standard. -/
def Obligations.StartsAndShiftsSetTheLength : Prop :=
  (∀ (f : Fal) (c : FieldCtx) (r : BroadRecord),
    let g : Int := r.anchor + c.vOffset + (if r.parity = .two then 1 else 0)
    let d := c.misalignment r.parity g
    let ag : Bool := if g ≤ ((c.length / 2 : Nat) : Int) then decide (r.parity = c.parity)
      else decide (r.parity ≠ c.parity)
    let a := f.handleStart c r
    let word (field : Nat) : Word := BitVec.ofNat 16 (field + 4 * (if r.parity = .one then 1 else 2))
    a.fal.startSeen = true ∧ a.fal.lastParity = some r.parity ∧ a.fal.lastDelta = d ∧
    a.fal.broad = f.broad ∧ a.fal.lockout = f.lockout ∧
    (∃ k : Int, (if r.parity = c.parity then g + c.std.fieldLines c.parity - c.length
      else g - c.length) = d + k * c.std.frame) ∧ 2 * d.natAbs < c.std.frame ∧
    (d = 0 → a.fal.field = .lock ∧ a.fal.shift = 0 ∧ a.length = c.length ∧
      a.reports = (if f.field = .lock then [] else
        [{ w0 := 0x0301#16, w4 := word 2, w5 := if c.parity = .one then 1 else 2
           w6 := BitVec.ofNat 16 c.vOffset }])) ∧
    (d ≠ 0 → f.field ≠ .lock → a.fal.field = .align ∧ a.reports = []) ∧
    (d ≠ 0 → (d - f.shift) % c.std.frame = 0 →
      a.fal.field = (if f.field = .lock then .lock else .align) ∧ a.fal.shift = f.shift ∧
      a.length = c.length ∧ a.reports = []) ∧
    (d ≠ 0 → (d - f.shift) % c.std.frame ≠ 0 → f.field = .lock → ag = true → d.natAbs ≤ 8 →
      a.fal.field = .lock ∧ (a.length : Int) + a.fal.shift = c.length + d ∧
      a.reports = [{ w0 := 0x0302#16, w4 := word 2, w5 := BitVec.ofInt 16 d
                     w6 := if a.fal.shift = 0 then BitVec.ofNat 16 a.length else 0 }]) ∧
    (d ≠ 0 → (d - f.shift) % c.std.frame ≠ 0 → f.field = .lock → ag = false ∨ 8 < d.natAbs →
      a.fal.field = .align ∧ a.fal.miss = 0 ∧
      a.reports = [{ w0 := 0x0303#16, w4 := word 1, w5 := if ag then 0 else 1
                     w6 := BitVec.ofInt 16 d }]) ∧
    (d ≠ 0 → (d - f.shift) % c.std.frame ≠ 0 →
      let adjust : Prop := f.field = .lock ∧ ag = true ∧ d.natAbs ≤ 8
      let slip : Prop := ¬adjust ∧ ag = true ∧ c.vert = .slip
      let frame : Int := c.std.frame
      let shift : Int := if adjust ∨ slip then d else if 16 < d % frame then d % frame - frame else d % frame
      let move : Int := if slip then (if 0 < shift then 1 else -1) else shift
      let taken : Int := c.length + move
      (¬adjust → ¬slip → -(frame - 17) ≤ shift ∧ shift ≤ 16) ∧
      (slip → a.fal.kind = .slip) ∧ (¬slip → a.fal.kind = .whole) ∧
      (20 ≤ taken ∧ (c.line : Int) ≤ taken ∧ taken ≤ c.std.fieldLines c.parity + 16 →
        (a.length : Int) = taken ∧ a.fal.shift = shift - move) ∧
      (taken < 20 ∨ taken < (c.line : Int) ∨ c.std.fieldLines c.parity + 16 < taken →
        a.length = c.length ∧ a.fal.shift = shift))) ∧
  (∀ (f : Fal) (d : Standard) (q : Parity) (holdover : Bool),
    let r := f.nextLength d q holdover
    (f.field = .seek ∨ f.shift = 0 → r = (d.fieldLines q, 0)) ∧
    (f.field ≠ .seek → (r.1 : Int) + r.2 = d.fieldLines q + f.shift) ∧
    (f.field ≠ .seek → holdover = true → r.1 = d.fieldLines q) ∧
    20 ≤ r.1 ∧
    (f.kind = .whole → f.shift ≤ 16 → r.1 ≤ d.fieldLines q + 16 ∧ (20 < r.1 → f.field ≠ .seek →
      holdover = false → r.2 = 0)) ∧
    (f.kind = .slip → ((r.1 : Int) - d.fieldLines q).natAbs ≤ 1))

/-- R55, R56, R62: the miss check at the end of line 16 counts a field without a start, and the fourth puts
FAL in F_SEEK with no shift and gives FIELD/LOST with reason MISSED, whatever else falls there; in holdover the
check counts nothing and only forgets the start; away from line 16, in F_SEEK or after a start MISSED_FIELDS does
nothing. FIELD/LOST carries the count of 4 from before F_SEEK clears it by assumption log 15 (DEDUCED), bears the
stamp of the field whose line 16 it is by log 16 (DEDUCED), and may come before or behind a report of LLL's
evaluation by log 6 (DEDUCED). That MISSED_FIELDS is the whole line end at the fourth miss and nothing elsewhere is
log 5 (DESIGN CHOICE). -/
def Obligations.FourMissesLoseTheField : Prop :=
  ∀ (x : LineInputs) (s : State),
    (s.tgn.line = 16 → s.fal.field ≠ .seek → s.fal.startSeen = false → s.lll.inHoldover = false →
      s.fal.miss = 3 → s.flywheelHere x = false →
      ∃ t, exec (.missedFields x) s = .next t ∧ exec (.lineEnd x) s = .next t ∧
        t.fal.field = .seek ∧ t.fal.shift = 0 ∧ t.fal.miss = 0 ∧ t.fal.startSeen = false ∧
        (s.rpw.fifo.length ≤ 6 → ∃ (k : Nat) (g : Option GapPart), k ≤ 1 ∧
          t.rpw.fifo[s.rpw.fifo.length + k]? = some
            ⟨{ w0 := 0x0304#16, stamp := s.tgn.stamp
               w4 := match s.fal.lastParity with | none => 0 | some .one => 4 | some .two => 8
               w5 := 0, w6 := match s.fal.field with | .seek => 0 | .align => 1 | .lock => 2
               w7 := 4 }, g⟩)) ∧
    (s.tgn.line ≠ 16 ∨ s.fal.field = .seek ∨ s.fal.startSeen = true ∨ s.fal.miss < 3 →
      exec (.missedFields x) s = .next s) ∧
    (s.tgn.line = 16 → 16 < s.tgn.length → s.fal.field ≠ .seek → s.lll.inHoldover = false →
      s.flywheelHere x = false →
      ∃ t, exec (.lineEnd x) s = .next t ∧
        (s.fal.startSeen = true → t.fal = { s.fal with miss := 0, startSeen := false }) ∧
        (s.fal.startSeen = false → s.fal.miss < 3 → t.fal = { s.fal with miss := s.fal.miss + 1 })) ∧
    (s.tgn.line = 16 → 16 < s.tgn.length → s.fal.field ≠ .seek → s.lll.inHoldover = true →
      exec (.missedFields x) s = .next s ∧
      ∃ t, exec (.lineEnd x) s = .next t ∧ t.fal = { s.fal with startSeen := false })

/-- R65, R67, R104: inside a field a line end numbers the next line one higher and leaves the field's own
data as they are; scan-lines before the end of the field it raises the scan point once, and an engine
that is RUNNING with a valid link begins a scan for the next stamp. That SCAN_POINT is the whole line end where it
falls and nothing elsewhere is assumption log 5 (DESIGN CHOICE). -/
def Obligations.ScanPointComesOnce : Prop :=
  ∀ (x : LineInputs) (s : State), s.tgn.line < s.tgn.length →
    ∃ t, exec (.lineEnd x) s = .next t ∧
      t.tgn.line = s.tgn.line + 1 ∧ t.tgn.length = s.tgn.length ∧ t.tgn.parity = s.tgn.parity ∧
      t.tgn.stamp = s.tgn.stamp ∧ t.tgn.delay = s.tgn.delay ∧ t.tgn.edgeCount = s.tgn.edgeCount ∧
      t.tgn.drives = s.tgn.drives ∧ t.wsk = s.wsk ∧ t.kbl = s.kbl ∧
      t.cue.settings = s.cue.settings ∧ t.cue.engine = s.cue.engine ∧ t.cue.due = s.cue.due ∧
      (s.tgn.line + s.cue.settings.scanLines = s.tgn.length → 1 ≤ s.tgn.line → s.tgn.scanDone = false →
        exec (.scanPoint x) s = .next t ∧ t.tgn.scanDone = true ∧
        (s.cue.engine = .running → s.cue.linkValid = true → s.cue.startup = false →
          t.cue.scan = some ⟨s.tgn.stamp + 1, s.cue.take⟩ ∧
          t.mpt.cueQ = s.mpt.cueQ ++ [.fillRead s.cue.link.toNat (s.tgn.stamp + 1)]) ∧
        (s.cue.engine ≠ .running ∨ s.cue.linkValid = false ∨ s.cue.startup = true →
          t.cue = s.cue ∧ t.mpt = s.mpt)) ∧
      (s.tgn.line + s.cue.settings.scanLines ≠ s.tgn.length ∨ s.tgn.scanDone = true →
        exec (.scanPoint x) s = .next s ∧ t.tgn.scanDone = s.tgn.scanDone ∧ t.cue = s.cue ∧
        t.mpt = s.mpt)

/-- R50, R60, R65, R72: the line end that completes a field begins the next one: stamp one higher, the other
parity, line 1, the scan point to come, and the delay as the boundary's cues left it (assumption log 17,
DEDUCED). Where the engine runs no cue there, R50's table gives the length of the field that begins and the
shift that stays pending. That FIELD_BOUNDARY is LINE_END at the last line and nothing elsewhere is log 5
(DESIGN CHOICE). -/
def Obligations.FieldBoundaryBeginsAField : Prop :=
  ∀ (x : LineInputs) (s : State),
    (s.tgn.length ≤ s.tgn.line →
      ∃ t, exec (.fieldBoundary x) s = .next t ∧ exec (.lineEnd x) s = .next t ∧
        t.tgn.stamp = s.tgn.stamp + 1 ∧
        t.tgn.parity = (if s.tgn.parity = .one then .two else .one) ∧ t.tgn.line = 1 ∧
        t.tgn.scanDone = false ∧ t.tgn.delay = t.cue.settings.pipeDelay ∧
        t.tgn.edgeCount = s.tgn.edgeCount ∧ t.tgn.drives = s.tgn.drives ∧
        t.tgn.straps = s.tgn.straps ∧ t.tgn.strapDone = s.tgn.strapDone ∧
        t.cue.link = s.cue.link ∧
        (s.cue.engine = .running → s.cue.startup = false →
          t.cue.due = [] ∧ t.cue.idle = none) ∧
        (s.cue.engine ≠ .running ∨ s.cue.startup = true ∨ x.hold = true ∨
            (s.cue.due = [] ∧ s.cue.idle = none) →
          let lq : Nat := match s.rfe.working, t.tgn.parity with
            | .s625, .one => 313 | .s625, .two => 312 | .s525, .one => 263 | .s525, .two => 262
          let shift := s.fal.shift
          let holdover : Prop := t.lll.loop = .holdover ∨
            (t.lll.loop = .capture ∧ ∃ r, t.lll.capture = some r ∧ r.origin = .holdover)
          (t.fal.field = .seek ∨ shift = 0 → t.tgn.length = lq ∧ t.fal.shift = 0) ∧
          (t.fal.field ≠ .seek → shift ≠ 0 →
            (holdover → t.tgn.length = lq ∧ t.fal.shift = shift) ∧
            (¬holdover → s.fal.kind = .whole →
              (t.tgn.length : Int) = max 20 (lq + shift) ∧ t.fal.shift = shift - (t.tgn.length - lq)) ∧
            (¬holdover → s.fal.kind = .slip →
              (0 < shift → t.tgn.length = lq + 1 ∧ t.fal.shift = shift - 1) ∧
              (shift < 0 → t.tgn.length = lq - 1 ∧ t.fal.shift = shift + 1))))) ∧
    (s.tgn.line < s.tgn.length → exec (.fieldBoundary x) s = .next s)

/-- R60: no command moves the field stamp but a line end that completes a field, which adds 1, and
POWER_ON and SOFT_RESET, which set it to 0. -/
def Obligations.OnlyBoundariesMoveTheStamp : Prop :=
  ∀ (c : Instr) (s t : State), exec c s = .next t →
    t.tgn.stamp = s.tgn.stamp ∨
    (t.tgn.stamp = s.tgn.stamp + 1 ∧ s.tgn.length ≤ s.tgn.line ∧ t.tgn.line = 1 ∧
      ∃ x, c = .lineEnd x ∨ c = .flywheelLimit x ∨ c = .missedFields x ∨ c = .fieldBoundary x ∨
        c = .holdoverExpiry x ∨ c = .testNolock x ∨ c = .waitendExpired x) ∨
    (t.tgn.stamp = 0 ∧
      ((∃ straps, c = .powerOn straps) ∨
        ∃ a b n, c = .softReset a b n ∧ s.tgn.strapDone = true))

/-- R32, R92, R93, R174, R193: what a field boundary says of the field that has ended. The statistics handed
over count its last line too: an accepted error, a coast line, or neither, as for a settling line, inside the
coast window too (assumption log 43, DESIGN CHOICE). TST's record of the field is closed by TEST/FIELD and,
where no cue runs, opened for the new field; that TEST/FIELD is the first record of the boundary, behind at most
one of LLL's for the line that ended, is the model's order (log 22, DEDUCED), that LLL's bears the ended field's
stamp is log 16 (DEDUCED), and that TEST/FIELD carries all the accepted lines of the field also where its record
opened partway through is log 51 (DESIGN CHOICE). Where no cue runs and the engine is not STOPPED, FIELDSTAT
gives the field's accepted and coast lines with the least, greatest and mean error, or UNORDERED with none
accepted. The status copy's sixteen words are those of the new field, asked for at once where the status writer
has no word in service, unless the engine is STOPPED, the link not valid or the writers suspended; TALLY and
HOLD are the levels sampled for the boundary (log 10, DESIGN CHOICE). R86, R167: at each boundary at which the
writer may write, get and the report trigger are read: a get read already in hand serves for it, another request
of the writer in hand leaves the read owed, and else it is posted; its place behind the boundary's cues is log
50 (DESIGN CHOICE), and that an owed lone put write goes first log 45 (DESIGN CHOICE). -/
def Obligations.FieldEndIsReported : Prop :=
  ∀ (x : LineInputs) (s : State), s.tgn.length ≤ s.tgn.line → ∃ t, exec (.lineEnd x) s = .next t ∧
    (let f := s.lll.stats
     let measured : Prop := (s.lll.loop = .track ∨ s.lll.loop = .coast) ∧ s.lll.settling = false
     let free : Bool := s.cue.settings.inCoast s.tgn.line = false
     let coasted : FieldStats := { f with coast := f.coast + 1 }
     let ended : FieldStats :=
       if ¬measured then f
       else if ¬free then coasted
       else match s.lll.accepted, s.lll.lineStray, s.lll.stray with
         | some e, _, _ => { f with
             accepted := f.accepted + 1
             errors := match f.errors with
               | none => some ⟨e, e, e⟩
               | some g => some ⟨min g.least e, max g.greatest e, g.sum + e⟩ }
         | none, some o, some r =>
           if r.count = 2 ∧ (o - r.last).natAbs ≤ s.cue.settings.captureTol then f else coasted
         | none, _, _ => coasted
     let noCue : Prop := s.cue.engine ≠ .running ∨ s.cue.startup = true ∨ x.hold = true ∨
       (s.cue.due = [] ∧ s.cue.idle = none)
     t.rpw.ended = ended ∧ t.lll.stats = { accepted := 0, coast := 0, errors := none } ∧
     (∀ r, s.tst.count = some r → r.stamp = s.tgn.stamp →
       let excess : Nat := match s.lll.accepted with
         | some e => if measured ∧ free ∧ 1 < e.natAbs then min 1023 (r.excess + 1) else r.excess
         | none => r.excess
       let n := s.rpw.fifo.length
       (noCue → t.tst.count = some { stamp := s.tgn.stamp + 1, excess := 0 }) ∧
       (s.tgn.line ≠ 16 → ∃ k : Nat,
         (k = 0 ∨ k = 1 ∧ measured ∧ ∃ y, t.rpw.fifo[n]? = some y ∧ y.report.w0.toNat / 256 = 2 ∧
           y.report.stamp = s.tgn.stamp) ∧
         (n + k < 8 → ∃ g, t.rpw.fifo[n + k]? = some
           ⟨{ w0 := 0x0B01#16, stamp := s.tgn.stamp + 1, w4 := BitVec.ofNat 16 excess
              w5 := BitVec.ofNat 16 ended.accepted }, g⟩))) ∧
     (noCue → s.cue.engine ≠ .stopped → s.cue.settings.fieldstat = true → s.rpw.fifo = [] →
       let head : Report :=
         { w0 := 0x0C02#16, stamp := s.tgn.stamp + 1
           ext := BitVec.ofNat 8 (ended.accepted / 256 % 2 + 2 * (ended.coast / 256 % 2))
           w4 := BitVec.ofNat 16 (ended.accepted % 256 + 256 * (ended.coast % 256))
           w5 := 0x8000#16, w6 := 0x8000#16, w7 := 0x8000#16 }
       ∃ r ∈ t.rpw.fifo, r.report =
         (match ended.errors with
          | some e => { head with
              w0 := 0x0C01#16, w5 := BitVec.ofInt 16 e.least, w6 := BitVec.ofInt 16 e.greatest
              w7 := BitVec.ofInt 16 (e.sum.tdiv ended.accepted) }
          | none => head))) ∧
    (t.cue.engine ≠ .stopped → t.cue.linkValid = true → t.rpw.suspended = false →
      ∃ due withheld : Nat,
        (x.order.stat ≠ .last → x.order.tst ≠ .afterCopy → x.order.tst ≠ .last →
          withheld = t.rpw.withheld) ∧
        (s.cue.engine = .halted ∨ s.cue.startup = true → due = 0) ∧
        (let engine : Nat := match t.cue.engine with
           | .stopped => 0 | .running => 1 | .waiting => 2 | .held => 3 | .halted => 4
         let loop : Nat := match t.lll.loop with
           | .free => 0 | .capture => 1 | .track => 2 | .coast => 3 | .holdover => 4
         let field : Nat := match t.fal.field with | .seek => 0 | .align => 1 | .lock => 2
         let loader : Nat := match t.kbl.loader with | .idle => 0 | .loading => 1 | .ready => 2
         let bank : Nat := match t.kbl.load with | some r => r.bank.val | none => 0
         let bit (b : Bool) (n : Nat) : Nat := if b then 2 ^ n else 0
         let tag (k : Nat) : Nat := match t.wsk.stack.slots[k]? with
           | some (.parked _) => 1 | some (.live _) => 2 | _ => 0
         let words : List Word :=
           [ BitVec.ofNat 16 t.tgn.stamp.toNat, BitVec.ofNat 16 (t.tgn.stamp.toNat / 65536)
           , BitVec.ofNat 16 (loop + 16 * field + bit (t.rfe.active = .b) 6 + bit t.rfe.inA.present 7
               + bit t.rfe.inB.present 8 + bit (t.rfe.working = .s525) 9 + 4096 * engine)
           , BitVec.ofNat 16 t.lll.p, BitVec.ofNat 16 (t.lll.p / 65536), BitVec.ofInt 16 t.lll.lastE
           , BitVec.ofNat 16 t.rpw.ended.coast, BitVec.ofNat 16 due, BitVec.ofNat 16 withheld
           , BitVec.ofNat 16 (t.wsk.stack.top.val + 16 * loader + 64 * bank + bit x.tally 8 + bit x.hold 9)
           , BitVec.ofNat 16 (((List.range 8).map (fun k => 4 ^ k * tag k)).sum), 0, 0, 0, 0, 0 ]
         let copy := ((List.range 16).map (fun k => s.cue.link.toNat + 2 * (48 + k))).zip words
         (s.mpt.serviceIs .status = false →
           t.mpt.sta = some (.statusWord (s.cue.link.toNat + 96) (words.getD 0 0)) ∧
           t.rpw.status = copy.drop 1) ∧
         (s.mpt.serviceIs .status = true → t.mpt.sta = none ∧ t.rpw.status = copy))) ∧
    (let may : Prop :=
       t.cue.engine ≠ .stopped ∧ t.cue.startup = false ∧ t.cue.linkValid = true ∧ t.rpw.suspended = false
     let isGet (r : Request) : Bool := match r with | .getRead _ _ => true | _ => false
     let getInHand (m : Mpt) : Prop := m.rpw.any isGet = true ∨ m.service.any (fun x => isGet x.req) = true
     let inHand (m : Mpt) : Prop :=
       m.rpw ≠ none ∨ m.service.any (fun x => x.req.requester = .report) = true
     (may → getInHand t.mpt ∨ (t.rpw.getDue = true ∧ inHand t.mpt)) ∧
     (s.cue.engine ≠ .running ∨ s.cue.startup = true ∨ x.hold = true ∨
         (s.cue.due = [] ∧ s.cue.idle = none) →
       (¬may ∨ getInHand s.mpt → t.mpt.rpw = s.mpt.rpw ∧ t.rpw.getDue = s.rpw.getDue) ∧
       (may → ¬getInHand s.mpt →
         (inHand s.mpt → t.mpt.rpw = s.mpt.rpw ∧ t.rpw.getDue = true) ∧
         (¬inHand s.mpt → s.rpw.putDue = false →
           t.mpt.rpw = some (.getRead (s.cue.link.toNat + 36) false) ∧ t.rpw.getDue = false) ∧
         (¬inHand s.mpt → s.rpw.putDue = true →
           t.mpt.rpw = some (.lonePut (s.cue.link.toNat + 34) s.rpw.put) ∧ t.rpw.getDue = true))))

/-! ## Dots and KEY -/

/-- R70 to R72: dot x of a line is issued at floor(ideal / 16) plus 16 times the first tick of the active
span plus floor(28800 x / D), if that comes before the line end; an issued dot edge counts, begins the next
dot, whose own drive comes the delay later, and puts on KEY the level of the newest dot whose drive edge this
is, or 0; it is dropped with its level.
R140, R141, R147, R148, R150: the level of a dot is 0 in BYPASS and its band's in BARS, whatever the stack
holds after a soft reset (assumption log 41, DESIGN CHOICE); else the stack's of its own field, with the key
banks of that field. -/
def Obligations.DotEdgesDriveKey : Prop :=
  ∀ (index : Byte) (s : State),
    let first : Nat := match s.tgn.lineStd with | .s625 => 378 | .s525 => 340
    let at_ : Nat → Pu := fun x =>
      BitVec.ofNat 36 (s.lll.ideal.toNat / 16) + BitVec.ofNat 36 (16 * first + 28800 * x / s.tgn.lineD)
    let lineEnd : Tick := BitVec.ofNat 32 (s.lll.nextIdeal.toNat / 256)
    (s.dotIssued = true ↔ s.tgn.nextDot < s.tgn.lineD ∧
      0 < (BitVec.ofNat 36 (16 * lineEnd.toNat) - at_ s.tgn.nextDot).toInt) ∧
    (∀ d : Drive,
      let mode := s.cue.settings.testMode
      (mode = .bypass → s.dotLevel d index = 0) ∧
      (mode = .bars → d.dot < d.dots →
        ([0, 9, 18, 27, 37, 46, 55, 64] : List Nat)[8 * d.dot / d.dots]? = some (s.dotLevel d index)) ∧
      (mode = .normal ∨ mode = .internalLoop →
        (d.stamp = s.tgn.stamp →
          s.dotLevel d index = s.wsk.stack.level s.kbl.banks d.line d.dot index) ∧
        (∀ ended, d.stamp ≠ s.tgn.stamp → s.wsk.prev = some ended →
          (s.kbl.replaced = none →
            s.dotLevel d index = ended.level s.kbl.banks d.line d.dot index) ∧
          (∀ r, s.kbl.replaced = some r → s.dotLevel d index =
            ended.level (s.kbl.banks.set r.bank r.contents) d.line d.dot index)))) ∧
    (s.dotIssued = true →
      ∃ t, exec (.dotEdge index) s = .next t ∧
        (let x := s.tgn.nextDot
         let n := s.tgn.edgeCount + 1
         let new : Drive := ⟨s.tgn.stamp, s.tgn.line, x, s.tgn.lineD, n + BitVec.ofNat 16 s.tgn.delay⟩
         x < s.tgn.lineD ∧ t.tgn.edgeCount = n ∧ t.tgn.nextDot = x + 1 ∧
         (∀ d, d ∈ t.tgn.drives ↔ (d ∈ s.tgn.drives ∨ d = new) ∧ d.due ≠ n) ∧
         (s.tgn.delay % 65536 = 0 → t.tgn.key = s.dotLevel new index) ∧
         (s.tgn.delay % 65536 ≠ 0 →
           (∀ pre d post, s.tgn.drives = pre ++ d :: post → d.due = n → (∀ e ∈ post, e.due ≠ n) →
             t.tgn.key = s.dotLevel d index) ∧
           ((∀ d ∈ s.tgn.drives, d.due ≠ n) → t.tgn.key = 0)) ∧
         t.rfe.tick = BitVec.ofNat 32 ((at_ x).toNat / 16) ∧
         t.tgn.keyUntil = s.tgn.lineStart + BitVec.ofNat 32 (first + 1800)) ∧
        t.tgn.line = s.tgn.line ∧ t.tgn.stamp = s.tgn.stamp ∧ t.tgn.length = s.tgn.length ∧
        t.wsk.stack = s.wsk.stack ∧ t.kbl.banks = s.kbl.banks ∧
        t = { s with rfe := { s.rfe with tick := t.rfe.tick }, tgn := t.tgn, wsk := t.wsk, kbl := t.kbl }) ∧
    (s.dotIssued = false → exec (.dotEdge index) s = .next s)

/-! ## The test unit -/

/-- R194: eight fields after the lock-time record opened without strict lock, FAL not in F_LOCK or the loop not
locked, the boundary closes it with TEST/NOLOCK, the loop's and the aligner's states in it; with the record
closed or younger TEST_NOLOCK does nothing. An arrival that brings strict lock closes it with TEST/LOCKED and
the fields since it opened: the third BROAD arrival of a run, or, with FAL in F_LOCK, the LINE arrival that
snaps a capture into TRACK (R38). TEST/LOCKED stands behind the LOCK or FIELD report of the arrival that brings
it by assumption log 54 (DESIGN CHOICE). That TEST_NOLOCK is the whole line end where it falls and nothing
elsewhere is assumption log 5 (DESIGN CHOICE), and the place of TST's comparison among the boundary's works,
before the cues, after them, between the swap test and FIELDSTAT, or later, is an operand by log 6 (DEDUCED). A
boundary that runs no cue is held to the same at every place. -/
def Obligations.LockTimeIsReported : Prop :=
  (∀ (x : LineInputs) (entry : Stamp) (s : State),
    let noCue : Prop := s.cue.engine ≠ .running ∨ s.cue.startup = true ∨ x.hold = true ∨
      (s.cue.due = [] ∧ s.cue.idle = none)
    (s.tst.lockTime = some entry → s.tgn.length ≤ s.tgn.line →
      8 ≤ (s.tgn.stamp + 1 - entry).toNat →
      s.fal.field ≠ .lock ∨ (s.lll.loop ≠ .track ∧ s.lll.loop ≠ .coast) →
      x.order.tst = .first ∨ noCue →
      ∃ t, exec (.testNolock x) s = .next t ∧ exec (.lineEnd x) s = .next t ∧
        (noCue → t.tst.lockTime = none ∧
          (s.rpw.fifo = [] → ∃ r ∈ t.rpw.fifo,
            r.report = (repTestNolock t.lll.loop t.fal.field).stamped (s.tgn.stamp + 1))) ∧
        (s.rpw.fifo = [] → ∃ r ∈ t.rpw.fifo, ∃ l f,
          (f ≠ .lock ∨ (l ≠ .track ∧ l ≠ .coast)) ∧
          r.report = (repTestNolock l f).stamped (s.tgn.stamp + 1))) ∧
    (s.tgn.line < s.tgn.length ∨
      (noCue ∧
        (s.tst.lockTime = none ∨
          (s.tst.lockTime = some entry ∧ (s.tgn.stamp + 1 - entry).toNat < 8))) →
      exec (.testNolock x) s = .next s)) ∧
  (∀ (e : Pu) (rest : List Pu) (entry : Stamp) (s : State),
    s.tst.mode = .internalLoop → s.tst.lockTime = some entry →
    let locked : Report := { w0 := 0x0B02#16, stamp := s.tgn.stamp
                             w4 := BitVec.ofNat 16 (s.tgn.stamp - entry).toNat }
    (s.tst.run = e :: rest → ∃ t, exec .tstBroadArrival s = .next t ∧
      (s.lll.loop = .track ∨ s.lll.loop = .coast → t.fal.field = .lock →
        t.tst.lockTime = none ∧
        (s.rpw.fifo.length ≤ 6 → ∃ g, t.rpw.fifo.getLast? = some ⟨locked, g⟩)) ∧
      ((s.lll.loop ≠ .track ∧ s.lll.loop ≠ .coast) ∨ t.fal.field ≠ .lock →
        t.tst.lockTime = some entry)) ∧
    (s.tst.lines = e :: rest →
      0 ≤ (BitVec.ofNat 32 (s.lll.nextIdeal.toNat / 256) - (BitVec.ofNat 32 (e.toNat / 16) + 170)).toInt →
      ∃ t, exec .tstLineArrival s = .next t ∧ t.fal = s.fal ∧
        (∀ r, s.lll.loop = .capture → s.lll.capture = some r → ∀ d, r.first = some d →
          let sp := (e - r.lastEdge).toNat
          s.rfe.working.pMin / 16 ≤ sp → sp ≤ s.rfe.working.pMax / 16 →
          ((sp : Int) - d).natAbs ≤ s.cue.settings.captureTol →
          t.lll.loop = .track ∧
          (s.fal.field = .lock → t.tst.lockTime = none ∧
            (s.rpw.fifo.length ≤ 6 →
              (t.rpw.fifo.take s.rpw.fifo.length = s.rpw.fifo ∧
                (t.rpw.fifo.drop s.rpw.fifo.length).map (fun q => (q.report.w0, q.report.stamp)) =
                  [(0x0201#16, s.tgn.stamp), (0x0B02#16, s.tgn.stamp)]) ∧
              ∃ g, t.rpw.fifo.getLast? = some ⟨locked, g⟩))) ∧
        (s.fal.field ≠ .lock ∨ (t.lll.loop ≠ .track ∧ t.lll.loop ≠ .coast) →
          t.tst.lockTime = some entry ∧
          ∀ q ∈ t.rpw.fifo.drop s.rpw.fifo.length, q.report.w0 ≠ 0x0B02#16)))

/-! ## The memory port -/

/-- R94, R95: an idle port grants the waiting request ranked highest, the cue engine's oldest, then the
key loader's, the report writer's and the status writer's, and asks for the bus at once; a port that
serves a request, and one with none waiting, grants nothing.
R84, R92, R112: a take write, a lone put write and a status word write put their words in memory
over the bus and free the port; the status writer then asks for its copy's next word. -/
def Obligations.RequestsAreGrantedAndWritten : Prop :=
  (∀ s : State,
    (s.mpt.service = none →
      (∀ r rest, s.mpt.cueQ = r :: rest → exec .requestGrant s = .next
        { s with mpt := { s.mpt with service := some ⟨r, false, s.rfe.tick, none⟩, cueQ := rest } }) ∧
      (s.mpt.cueQ = [] →
        (∀ r, s.mpt.key = some r → exec .requestGrant s = .next
          { s with mpt := { s.mpt with service := some ⟨r, false, s.rfe.tick, none⟩, key := none } }) ∧
        (s.mpt.key = none →
          (∀ r, s.mpt.rpw = some r → exec .requestGrant s = .next
            { s with mpt := { s.mpt with service := some ⟨r, false, s.rfe.tick, none⟩, rpw := none } }) ∧
          (s.mpt.rpw = none →
            (∀ r, s.mpt.sta = some r → exec .requestGrant s = .next
              { s with mpt := { s.mpt with service := some ⟨r, false, s.rfe.tick, none⟩, sta := none } }) ∧
            (s.mpt.sta = none → exec .requestGrant s = .next s))))) ∧
    (∀ x, s.mpt.service = some x → exec .requestGrant s = .next s)) ∧
  (∀ (bus : BusTraffic) (discard : Bool) (asked : Tick) (cut : Option Nat) (s : State),
    (∀ a v, s.mpt.service = some ⟨.takeWrite a v, discard, asked, cut⟩ →
      exec (.takeWriteComplete bus) s = .next { s with
        mem := s.mem.writeRun [(a, BitVec.ofNat 16 v)] bus, mpt := { s.mpt with service := none } }) ∧
    (∀ a v, s.mpt.service = some ⟨.lonePut a v, discard, asked, cut⟩ →
      ∃ t, exec (.lonePutWriteComplete bus) s = .next t ∧
        t.mem = s.mem.writeRun [(a, BitVec.ofNat 16 v)] bus ∧ t.mpt.service = none ∧
        t.rpw.put = s.rpw.put ∧ t.rpw.fifo = s.rpw.fifo ∧
        t = { s with mem := t.mem, mpt := { s.mpt with service := none, rpw := t.mpt.rpw }
                     rpw := { s.rpw with putDue := t.rpw.putDue, getDue := t.rpw.getDue } } ∧
        (s.rpw.putDue = false → s.rpw.getDue = false → t.mpt.rpw = s.mpt.rpw)) ∧
    (∀ a v, s.mpt.service = some ⟨.statusWord a v, discard, asked, cut⟩ →
      ∃ t, exec (.statusWordWriteComplete bus) s = .next t ∧
        t.mem = s.mem.writeRun [(a, v)] bus ∧ t.mpt.service = none ∧
        (s.rpw.status = [] → t = { s with mem := t.mem, mpt := { s.mpt with service := none } }) ∧
        (∀ b w rest, s.rpw.status = (b, w) :: rest → s.mpt.sta = none →
          t = { s with mem := t.mem
                       mpt := { s.mpt with service := none, sta := some (.statusWord b w) }
                       rpw := { s.rpw with status := rest } })))

/-- R95, R96, R160, R173, R182, R184: a MEMORY fault drops every request, halts the engine with reason MEMORY,
suspends the writers, latches MEMORY, aborts a LOADING load and reports itself with the failing word's 24-bit
address, SWAP/ABORTED with the reason MEMORY behind it; the words done stand in memory, and take, put, the last
get, the link address, the settings and the key banks stay. The failing word's address inside a start-up load or
a settings image rests on the order of words of log 12 (DESIGN CHOICE), and past the top of memory on the wrap
of log 11 (DEDUCED): there the clause is the model's choice. A request that a STOP has cut short can fail at its
word in flight alone (log 13, DEDUCED). Whether the failing word landed is an operand by assumption log 26, the
tag is log 24, and a fault at a word the request does not have changes nothing by log 4 (all DEDUCED). -/
def Obligations.MemoryFaultHalts : Prop :=
  ∀ (why : BusFailure) (done : Nat) (reached : Bool) (bus : BusTraffic) (x : Service) (s : State),
    s.mpt.service = some x →
    let n : Nat := match why with | .notGranted => 0 | _ => done
    let can : Prop := (x.cut = none → n < (s.runAddrs x.req bus).length) ∧
      ∀ k, x.cut = some k → n + 1 = k ∧ n < x.req.addrs.length ∧ why ≠ .notGranted
    (can →
      ∃ t, exec (.memoryFault why done reached bus) s = .next t ∧
        t.rfe.tick = (match why with
          | .notGranted => x.asked + 1152 | .noAck issued => issued + 1152 | .busError at_ => at_) ∧
        t.mpt = {} ∧
        t.cue = { s.cue with
          engine := .halted, haltReason := some .memory, startup := false, scan := none, due := []
          idle := none, wait := none, heldFrom := none } ∧
        t.rpw.suspended = true ∧ t.rpw.status = [] ∧
        t.rpw.latched = s.rpw.latched ||| Cause.memory.bit ∧
        (let landed := if reached = true ∧ why ≠ .notGranted then n + 1 else n
         t.mem = s.mem.writeRun (x.req.writes.take landed) bus) ∧
        (s.rpw.fifo.length < 8 → ∃ tag g, t.rpw.fifo[s.rpw.fifo.length]? = some
          ⟨(repHaltMemory tag x.req.path (x.req.addrs.getD n 0 % 2 ^ 24) s.cue.take).stamped
            s.tgn.stamp, g⟩) ∧
        (s.kbl.loader = .loading → ∀ r, s.kbl.load = some r → t.kbl.loader = .idle ∧ t.kbl.load = none ∧
          (s.rpw.fifo.length < 7 → t.rpw.fifo.drop (s.rpw.fifo.length + 1) =
            [⟨{ w0 := 0x0804#16, stamp := s.tgn.stamp, tag := r.tag
                w4 := BitVec.ofNat 16 (r.bank.val + 16), w5 := BitVec.ofNat 16 r.wordsRead }, none⟩])) ∧
        (s.kbl.loader ≠ .loading → t.rpw.fifo.drop (s.rpw.fifo.length + 1) = []) ∧
        s.rpw.fifo <+: t.rpw.fifo ∧
        t.rpw.base = s.rpw.base ∧ t.rpw.len = s.rpw.len ∧ t.rpw.put = s.rpw.put ∧
        t.rpw.lastGet = s.rpw.lastGet ∧ t.rpw.trigger = s.rpw.trigger ∧
        t.rpw.matchList = s.rpw.matchList ∧
        (s.kbl.loader ≠ .loading → t.kbl = s.kbl) ∧ t.kbl.banks = s.kbl.banks ∧
        t.tgn = s.tgn ∧ t.lll = s.lll ∧ t.fal = s.fal ∧ t.wsk = s.wsk ∧ t.tst = s.tst) ∧
    (¬can → exec (.memoryFault why done reached bus) s = .next s)

/-- R81, R82, R84, R90, R98: the start-up load's words either pass R82's seven tests, and the engine runs
on a valid link with the descriptors, the masks and the settings of the block, each clamped into its range,
with WARN/INDEX for a take or put at or above its length and one WARN/SETTING for each setting clamped; or
the first test that fails makes a LINK fault, which halts the engine and adopts nothing; a discarded load
does neither. Word k of the block is read at its place in the order of words of log 12 (DESIGN CHOICE), with the
computer's writes landing between the words.
R160, R187: behind HALT/LINK a LOADING load is aborted with SWAP/ABORTED for the reason LINK.
R91 with R3, R14, R16, R25, R42, R43, R56, R58 and R190: what every load, this one and SETTINGS's, hands the blocks,
and the reports, in that order: the slicer restart on both inputs; a forced standard that differs; a policy that
differs with the active input it names; the H target; a changed V offset in F_LOCK; and a change of test mode,
whose entry and exit give the source notice and open or close both records. Of these effects the following
clauses are the model's choice: at an entry to INTERNAL_LOOP the arrival of the line in progress is placed where
its tick is still to come, and the run of BROAD arrivals is empty (log 23, DEDUCED); a load of a named policy
leaves the absence count alone (log 34, DEDUCED); and the LOCK, FIELD and INPUT reports that a load causes bear
the tag 0 (log 18, DEDUCED). -/
def Obligations.StartUpLoadValidates : Prop :=
  (∀ (bus : BusTraffic) (l : Nat) (discard : Bool) (asked : Tick) (cut : Option Nat) (s : State),
    s.mpt.service = some ⟨.startupLoad l, discard, asked, cut⟩ →
    let read := s.mem.readRun (linkAddrs l startupWords) bus
    let word : Nat → Nat := fun k => (read.2.getD k 0).toNat
    let qBase := word 0 + 65536 * (word 1 % 256)
    let qLen := word 2
    let take := word 3
    let rBase := word 4 + 65536 * (word 5 % 256)
    let rLen := word 6
    let put := word 7
    let tests : List Bool :=
      [ decide (l % 2 = 0 ∧ l + 128 ≤ 2 ^ 24), decide (qBase % 2 = 0), decide (rBase % 2 = 0)
      , decide (2 ≤ qLen ∧ qLen ≤ 1024), decide (2 ≤ rLen ∧ rLen ≤ 1024)
      , decide (qBase + 16 * qLen ≤ 2 ^ 24), decide (rBase + 16 * rLen ≤ 2 ^ 24) ]
    let area : Nat → Nat := fun k => word (18 + k)
    let low : Nat → Nat := fun k => area k % 256
    let high : Nat → Nat := fun k => area k / 256
    let field : Nat → Nat → Nat := fun k b => area k / 2 ^ b % 4
    let mode : StdMode := match field 10 0 with | 0 => .auto | 1 => .force .s625 | _ => .force .s525
    let half : Int := match mode with | .auto => s.rfe.working.half | .force d => d.half
    let target : Int := (read.2.getD 19 0).toInt
    let clamp : Nat → Nat → Nat → Nat := fun v lo hi => max lo (min v hi)
    ∃ t, exec (.startupLoadComplete bus) s = .next t ∧ t.mem = read.1 ∧ t.mpt.service = none ∧
      (discard = true → t = { s with mem := read.1, mpt := { s.mpt with service := none } }) ∧
      (∀ test, discard = false → tests.findIdx? (fun b => !b) = some test →
        t.cue.engine = .halted ∧ t.cue.haltReason = some .link ∧ t.cue.linkValid = false ∧
        t.cue.startup = false ∧ t.cue.settings = s.cue.settings ∧ t.cue.qBase = s.cue.qBase ∧
        t.cue.qLen = s.cue.qLen ∧ t.cue.take = s.cue.take ∧ t.cue.masks = s.cue.masks ∧
        t.rpw.base = s.rpw.base ∧ t.rpw.len = s.rpw.len ∧ t.rpw.put = s.rpw.put ∧
        t.rpw.latched = s.rpw.latched ||| Cause.link.bit ∧
        (s.rpw.fifo.length < 8 → ∃ g, t.rpw.fifo[s.rpw.fifo.length]? = some
          ⟨(repHaltLink 0 false test s.cue.take).stamped s.tgn.stamp, g⟩) ∧
        (s.kbl.loader ≠ .loading → t.kbl = s.kbl) ∧
        (s.kbl.loader = .loading → ∀ r, s.kbl.load = some r → t.kbl.loader = .idle ∧ t.kbl.load = none ∧
          (s.rpw.fifo.length < 7 → t.rpw.fifo.drop (s.rpw.fifo.length + 1) =
            [⟨{ w0 := 0x0804#16, stamp := s.tgn.stamp, tag := r.tag
                w4 := BitVec.ofNat 16 (r.bank.val + 32), w5 := BitVec.ofNat 16 r.wordsRead }, none⟩]))) ∧
      (discard = false → tests.all id = true →
        t.cue.linkValid = true ∧ t.cue.startup = false ∧ t.cue.engine = s.cue.engine ∧
        t.cue.qBase = qBase ∧ t.cue.qLen = qLen ∧
        t.cue.take = (if take < qLen then take else 0) ∧
        (qLen ≤ take → .takeWrite (s.cue.link.toNat + 8) 0 ∈ t.mpt.cueQ) ∧
        t.rpw.base = rBase ∧ t.rpw.len = rLen ∧
        t.rpw.put = (if put < rLen then put else 0) ∧
        (rLen ≤ put → t.rpw.putDue = true ∨ t.mpt.rpw = some (.lonePut (s.cue.link.toNat + 34) 0)) ∧
        t.rpw.lastGet = word 8 ∧ t.rpw.trigger = (if word 9 < rLen then some (word 9) else none) ∧
        (∀ k : Fin 4, t.rpw.matchList[k] =
          ⟨read.2.getD (10 + 2 * k.val) 0, read.2.getD (11 + 2 * k.val) 0⟩) ∧
        t.cue.settings =
          { stdMode := mode
            policy := match field 10 2 with | 0 => .auto | 1 => .named .a | _ => .named .b
            dots := clamp (area 0) 256 2047
            hTarget := max (-half) (min target half)
            vOffset := clamp (low 9) 0 15, kp := clamp (low 2) 0 8, ki := clamp (high 2) 4 14
            slew := clamp (low 3) 1 64, captureTol := clamp (high 3) 1 255
            flyLimit := clamp (low 4) 12 63, holdLimit := clamp (high 4) 1 255
            coastFirst := clamp (area 5) 0 329, coastLast := clamp (area 6) 0 329
            stepMode := if area 10 / 16 % 2 = 1 then .slew else .snap
            vertMode := if area 10 / 32 % 2 = 1 then .slip else .jump
            lockMode := if area 10 / 64 % 2 = 1 then .line else .strict
            floor := clamp (low 7) 8 128, restart := decide (area 11 % 2 = 1)
            switchWin := clamp (high 7) 1 15, scanLines := clamp (low 8) 4 32
            pipeDelay := clamp (high 8) 0 63, faultMask := BitVec.ofNat 7 (area 12)
            protect := clamp (high 9) 0 4, guard := decide (area 11 / 2 % 2 = 1)
            lockdown := decide (area 11 / 4 % 2 = 1)
            out1Mode := match field 10 10 with | 0 => .cue | 1 => .lock | 2 => .keying | _ => .field
            out2Mode := match field 10 12 with | 0 => .cue | 1 => .lock | 2 => .keying | _ => .field
            fieldstat := decide (area 11 / 8 % 2 = 1)
            testMode := match field 10 8 with
              | 0 => .normal | 1 => .internalLoop | 2 => .bypass | _ => .bars } ∧
        t.cue.masks = t.cue.settings.faultMask ∧
        (∀ d, t.cue.settings.stdMode = .force d → s.cue.settings.stdMode ≠ .force d →
          t.rfe.working = d) ∧
        t.lll.hTarget = t.cue.settings.hTarget ∧
        (let index (which v len : Nat) : List Report :=
           if len ≤ v then
             [{ w0 := 0x0902#16, w4 := BitVec.ofNat 16 which, w5 := BitVec.ofNat 16 v
                w6 := BitVec.ofNat 16 len }]
           else []
         let ranges : List (Nat × Nat × Nat) :=
           [(area 0, 256, 2047), (0, 0, 0), (low 2, 0, 8), (high 2, 4, 14), (low 3, 1, 64)
           , (high 3, 1, 255), (low 4, 12, 63), (high 4, 1, 255), (area 5, 0, 329), (area 6, 0, 329)
           , (low 7, 8, 128), (high 7, 1, 15), (low 8, 4, 32), (high 8, 0, 63), (low 9, 0, 15)
           , (high 9, 0, 4), (field 10 0, 0, 2), (field 10 2, 0, 2)]
         let setting (code : Nat) : List Report :=
           let (value, lo, hi) := ranges.getD code (0, 0, 0)
           let warn (r a : Word) : List Report :=
             if r = a then [] else [{ w0 := 0x0903#16, w4 := BitVec.ofNat 16 code, w5 := r, w6 := a }]
           if code = 1 then warn (read.2.getD 19 0) (BitVec.ofInt 16 (max (-half) (min target half)))
           else warn (BitVec.ofNat 16 value) (BitVec.ofNat 16 (clamp value lo hi))
         let warnings := index 0 take qLen ++ index 1 put rLen ++ (List.range 18).flatMap setting
         s.rpw.openGap = 0 → s.rpw.fifo.length + warnings.length ≤ 8 →
           s.rpw.fifo ++ warnings.map (fun r => ⟨{ r with stamp := s.tgn.stamp }, none⟩)
             <+: t.rpw.fifo) ∧
        (let handed := loadEffects s.cue.settings
           { s with cue := { s.cue with settings := t.cue.settings } }
         t.rfe = handed.rfe ∧ t.lll = handed.lll ∧ t.fal = handed.fal ∧ t.tst = handed.tst ∧
         t.tgn = s.tgn ∧ t.wsk = s.wsk ∧ t.kbl = s.kbl ∧ t.rpw.latched = handed.rpw.latched ∧
         (s.rpw.openGap = 0 → t.rpw.fifo.length < 8 →
           s.rpw.fifo <+: handed.rpw.fifo ∧
           handed.rpw.fifo.drop s.rpw.fifo.length <:+ t.rpw.fifo)))) ∧
  (∀ (old : Settings) (s : State),
    let t := loadEffects old s
    let new := s.cue.settings
    let forced : Bool := match new.stdMode with
      | .force d => new.stdMode ≠ old.stdMode ∧ s.rfe.working ≠ d | .auto => false
    let named : Bool := match new.policy with
      | .named i => new.policy ≠ old.policy ∧ s.rfe.active ≠ i | .auto => false
    let entry : Prop := new.testMode = .internalLoop ∧ s.tst.mode ≠ .internalLoop
    let exit_ : Prop := new.testMode ≠ .internalLoop ∧ s.tst.mode = .internalLoop
    let notice : Prop := named ∨ entry ∨ exit_
    let restarted (r : RefInput) : RefInput :=
      if new.restart = true then { r with
        slicer := { t := 0, b := 255, a := 255, s := 127 }, classifier := .disarmed, measure := none }
      else r
    let cleared : Prop := new.stdMode ≠ old.stdMode ∨ named
    let working : Standard := match new.stdMode with
      | .force d => if new.stdMode = old.stdMode then s.rfe.working else d
      | .auto => s.rfe.working
    t = { s with
      rfe := t.rfe, lll := t.lll, fal := t.fal, tst := t.tst
      rpw := { s.rpw with
        fifo := t.rpw.fifo, withheld := t.rpw.withheld, openGap := t.rpw.openGap
        openStamp := t.rpw.openStamp, gapPending := t.rpw.gapPending
        latched := t.rpw.latched, seen := t.rpw.seen } } ∧
    t.rfe = { s.rfe with
      inA := restarted s.rfe.inA, inB := restarted s.rfe.inB, working := working
      active := match new.policy with
        | .named i => if new.policy = old.policy then s.rfe.active else i
        | .auto => s.rfe.active
      absence := if new.policy = .auto ∧ old.policy ≠ .auto then 0 else s.rfe.absence
      differ := if cleared then 0 else s.rfe.differ
      warned := if cleared then false else s.rfe.warned } ∧
    (¬forced → ¬notice → t.lll = { s.lll with hTarget := new.hTarget }) ∧
    (¬forced → notice → t.lll =
      (if s.lll.loop = .free then { s.lll with hTarget := new.hTarget }
       else if s.lll.loop = .holdover then { s.lll with hTarget := new.hTarget, holdover := 0 }
       else { s.lll with
         hTarget := new.hTarget, loop := .holdover, holdover := 0, capture := none, flywheel := 0
         stray := none, settling := false, accepted := none, lineStray := none })) ∧
    (forced → t.lll = { s.lll with
      hTarget := new.hTarget, loop := .free, p := working.nominal, hEff := t.lll.hEff, c := t.lll.c
      capture := none, flywheel := 0, stray := none, settling := false, holdover := 0
      pullLimit := false, accepted := none, lineStray := none } ∧
      t.lll.hEff = clampI s.lll.hEff (-working.half) working.half ∧
      t.lll.c = clampI s.lll.c (-working.half) working.half) ∧
    (forced ∨ notice → t.fal = { s.fal with
      field := .seek, shift := 0, miss := 0, startSeen := false, broad := none, lockout := none }) ∧
    (¬forced → ¬notice →
      (new.vOffset ≠ old.vOffset → s.fal.field = .lock →
        t.fal = { s.fal with field := .align, miss := 0 }) ∧
      (new.vOffset = old.vOffset ∨ s.fal.field ≠ .lock → t.fal = s.fal)) ∧
    (new.testMode = s.tst.mode → t.tst = s.tst) ∧
    (entry → t.tst = { t.tst with
      mode := .internalLoop, count := some ⟨s.tgn.stamp, 0⟩, lockTime := some s.tgn.stamp, run := [] } ∧
      (let edge : Pu := BitVec.ofNat 36 (s.lll.ideal.toNat / 16)
       let ahead := (BitVec.ofNat 32 (edge.toNat / 16) + 170 - s.rfe.tick).toInt
       (0 ≤ ahead → t.tst.lines = [edge]) ∧ (ahead < 0 → t.tst.lines = []))) ∧
    (exit_ → t.tst = { mode := new.testMode, count := none, lockTime := none, lines := [], run := [] }) ∧
    (new.testMode ≠ s.tst.mode → ¬entry → ¬exit_ → t.tst = { s.tst with mode := new.testMode }) ∧
    (named → t.rpw.latched = s.rpw.latched ||| Cause.inputChange.bit ∧
      t.rpw.seen = s.rpw.seen &&& ~~~Cause.inputChange.bit) ∧
    (¬named → t.rpw.latched = s.rpw.latched ∧ t.rpw.seen = s.rpw.seen) ∧
    (s.rpw.openGap = 0 → s.rpw.fifo.length ≤ 4 →
      let held (l : LoopState) : Bool := l = .free ∨ l = .holdover
      let lost (f : FieldState) (why : Word) : List (Word × Word) :=
        if f = .seek then [] else [(0x0304#16, why)]
      let free : List (Word × Word) := if s.lll.loop = .free then [] else [(0x0205#16, 1)]
      let loop1 : LoopState := if forced then .free else s.lll.loop
      let field1 : FieldState := if forced then .seek else s.fal.field
      let switch1 : List (Word × Word) := (if held loop1 then [] else [(0x0204#16, 1)]) ++ lost field1 2
      let field2 : FieldState := if named then .seek else field1
      let realign : Bool := new.vOffset ≠ old.vOffset ∧ field2 = .lock
      let field3 : FieldState := if realign then .align else field2
      let switch2 : List (Word × Word) :=
        (if held loop1 ∨ named then [] else [(0x0204#16, 1)]) ++ lost field3 2
      ∃ rest, t.rpw.fifo = s.rpw.fifo ++ rest ∧
        (∀ q ∈ rest, q.report.stamp = s.tgn.stamp ∧ q.report.tag = 0 ∧ q.gap = none) ∧
        rest.map (fun q =>
            (q.report.w0, if q.report.w0.toNat / 256 = 2 then q.report.w6 else q.report.w5)) =
          (if forced then (0x0206#16, 1) :: free ++ lost s.fal.field 3 else []) ++
          (if named then (0x0103#16, 1) :: switch1 else []) ++
          (if realign then [(0x0303#16, 2)] else []) ++
          (if entry ∨ exit_ then switch2 else [])))

/-- R85, R104, R106, R108: the fill word ends the scan when it equals take, with QUEUE_EMPTY and the idle cue
the first time; else the record at take is asked for; a fill at or above the length warns once and counts as
take; a discarded read has no effect. That a trigger at or above the length is none from its read on is log 47
(DESIGN CHOICE), where R85 and R104 make the value read the working cue trigger.
R105, R106, R108, R119: a fetched record joins the due list as IMMEDIATE, DUE or PAST by its target's distance
from N, a deferred one as DUE for PAST; a future one ends the fetch; the fetch goes on at the next index until
it meets the fill or 16 copies; an idle cue is kept unless its kind is NONE, past whose first word it is not
read. R83, R107: a SETTINGS record that is not future, and an idle SETTINGS cue, are read on to the settings
image, which is kept with the copy: descriptors without take and put, get and report trigger, match list and
settings area, in the order of words of log 12 (DESIGN CHOICE); of a discarded read, and one whose scan has
ended, memory alone shows anything. -/
def Obligations.ScansFillTheDueList : Prop :=
  (∀ (bus : BusTraffic) (l : Nat) (n : Stamp) (discard : Bool) (asked : Tick) (cut : Option Nat)
      (s : State),
    s.mpt.service = some ⟨.fillRead l n, discard, asked, cut⟩ →
    let read := s.mem.readRun [l + 6, l + 10] bus
    let fill := (read.2.getD 0 0).toNat
    let trig := (read.2.getD 1 0).toNat
    ∃ t, exec (.fillReadComplete bus) s = .next t ∧ t.mem = read.1 ∧ t.mpt.service = none ∧
      t.cue.take = s.cue.take ∧ t.cue.engine = s.cue.engine ∧
      (discard = true → t = { s with mem := read.1, mpt := { s.mpt with service := none } }) ∧
      (discard = false →
        t.cue.trigger = (if trig < s.cue.qLen then some trig else none) ∧
        t.cue.lastFill = (if fill < s.cue.qLen then fill else s.cue.take) ∧
        t.cue.badFill = decide (s.cue.qLen ≤ fill) ∧
        (fill < s.cue.qLen ∨ s.cue.badFill = true → t.rpw.fifo = s.rpw.fifo) ∧
        (s.cue.qLen ≤ fill → s.cue.badFill = false → s.rpw.fifo.length < 8 → ∃ g,
          t.rpw.fifo = s.rpw.fifo ++ [⟨(repWarnIndex 0 2 fill s.cue.qLen).stamped s.tgn.stamp, g⟩]) ∧
        (t.cue.lastFill = s.cue.take →
          t.cue.scan = none ∧ t.cue.seenEmpty = true ∧
          (s.cue.seenEmpty = true →
            t.mpt.cueQ = s.mpt.cueQ ∧ t.rpw.latched = s.rpw.latched) ∧
          (s.cue.seenEmpty = false →
            t.mpt.cueQ = s.mpt.cueQ ++ [.idleCue s.cue.link.toNat] ∧
            t.rpw.latched = s.rpw.latched ||| Cause.queueEmpty.bit)) ∧
        (t.cue.lastFill ≠ s.cue.take → s.cue.due.length < 16 →
          t.cue.seenEmpty = false ∧ t.cue.scan = some ⟨n, s.cue.take⟩ ∧
          t.mpt.cueQ = s.mpt.cueQ ++
            [.cueRecord (s.cue.qBase + 16 * s.cue.take) s.cue.take n s.cue.link.toNat] ∧
          t.rpw.latched = s.rpw.latched))) ∧
  (∀ (bus : BusTraffic) (s : State),
    let imageAddrs : Nat → List Nat := fun l =>
      ([0, 1, 2, 14, 15, 16, 18, 19] ++ (List.range 28).map (fun k => 20 + k)).map (fun k => l + 2 * k)
    let image : List Word → Image := fun ws =>
      let w : Nat → Word := fun k => ws.getD (8 + k) 0
      { qBase := (w 0).toNat + 65536 * ((w 1).toNat % 256), qLen := (w 2).toNat
        rBase := (w 3).toNat + 65536 * ((w 4).toNat % 256), rLen := (w 5).toNat
        get := (w 6).toNat, repTrigger := (w 7).toNat
        matchList := #v[⟨w 8, w 9⟩, ⟨w 10, w 11⟩, ⟨w 12, w 13⟩, ⟨w 14, w 15⟩]
        settings := (ws.drop 24).take 13 }
    (∀ (a index : Nat) (n : Stamp) (l : Nat) (discard : Bool) (asked : Tick) (cut : Option Nat),
        s.mpt.service = some ⟨.cueRecord a index n l, discard, asked, cut⟩ →
      let c := CueWords.ofList (s.mem.readRun (recordAddrs a) bus).2
      let future : Prop :=
        c.immediate = false ∧ 0 < (c.target - n).toNat ∧ (c.target - n).toNat < 2 ^ 23
      let read := s.mem.readRun
        (recordAddrs a ++ if c.kind = 13 ∧ ¬future then imageAddrs l else []) bus
      ∃ t, exec (.cueRecordRead bus) s = .next t ∧ t.mem = read.1 ∧
      (discard = true ∨ s.cue.scan = none →
        t = { s with mem := read.1, mpt := { s.mpt with service := none } }) ∧
      (∀ sc, discard = false → s.cue.scan = some sc →
        let ahead := (c.target - sc.n).toNat
        t.mpt.service = none ∧ t.rpw = s.rpw ∧ t.cue.take = s.cue.take ∧
        (c.immediate = false → 0 < ahead → ahead < 2 ^ 23 →
          t.cue.due = s.cue.due ∧ t.cue.scan = none ∧ t.mpt.cueQ = s.mpt.cueQ) ∧
        (16 ≤ s.cue.due.length →
          t.cue.due = s.cue.due ∧ t.cue.scan = none ∧ t.mpt.cueQ = s.mpt.cueQ) ∧
        (c.immediate = true ∨ ahead = 0 ∨ 2 ^ 23 ≤ ahead → s.cue.due.length < 16 →
          (∃ copy : Copy, t.cue.due = s.cue.due ++ [copy] ∧ copy.index = some index ∧ copy.words = c ∧
            copy.standing = (if c.immediate then .immediate
              else if ahead = 0 ∨ s.cue.deferral = some index then .due else .past) ∧
            copy.image = if c.kind = 13 then some (image read.2) else none) ∧
          (let next := (index + 1) % s.cue.qLen
           (next = s.cue.lastFill ∨ 15 ≤ s.cue.due.length →
             t.cue.scan = none ∧ t.mpt.cueQ = s.mpt.cueQ) ∧
           (next ≠ s.cue.lastFill → s.cue.due.length < 15 →
             t.cue.scan = some ⟨sc.n, next⟩ ∧
             t.mpt.cueQ = s.mpt.cueQ ++
               [.cueRecord (s.cue.qBase + 16 * next) next sc.n s.cue.link.toNat]))))) ∧
    (∀ l discard asked cut, s.mpt.service = some ⟨.idleCue l, discard, asked, cut⟩ →
      let first : Word := (s.mem.readRun [l + 12] bus).2.getD 0 0
      let kind : Nat := first.toNat % 256
      let read := s.mem.readRun
        (if kind = 0 then [l + 12]
         else recordAddrs (l + 12) ++ if kind = 13 then imageAddrs l else []) bus
      ∃ t, exec (.idleCueRead bus) s = .next t ∧
        t = { s with
          mem := read.1, mpt := { s.mpt with service := none }, cue := { s.cue with idle := t.cue.idle } } ∧
        (discard = true ∨ kind = 0 → t.cue.idle = s.cue.idle) ∧
        (discard = false → kind ≠ 0 → t.cue.idle = some
          { index := none, standing := .immediate, words := CueWords.ofList read.2
            image := if kind = 13 then some (image read.2) else none })))

/-- R152, R155, R156: each source word gives its two entries to the shadow from the start entry upward,
modulo 256, the last of an odd count only its low byte; an entry above 64 is stored as 64 and counted;
the next word is asked for until the last, which makes the load READY. The banks do not change, and memory is
as the computer's own writes leave it.
R96, R101, R159: a source read whose load was cancelled or stopped while it was in service completes with its
result discarded: it frees the port and has no other effect. -/
def Obligations.SourceWordsFillTheShadow : Prop :=
  ∀ (bus : BusTraffic) (a : Nat) (discard : Bool) (asked : Tick) (cut : Option Nat) (s : State),
    s.mpt.service = some ⟨.keySource a, discard, asked, cut⟩ →
    let read := s.mem.readRun [a] bus
    let w := (read.2.getD 0 0).toNat
    ∃ t, exec (.keySourceWordRead bus) s = .next t ∧ t.mem = read.1 ∧ t.mpt.service = none ∧
      t.kbl.banks = s.kbl.banks ∧ t.rpw = s.rpw ∧ t.cue = s.cue ∧
      (discard = true → t = { s with mem := read.1, mpt := { s.mpt with service := none } }) ∧
      (∀ r, discard = false → s.kbl.load = some r →
        let i := r.wordsRead
        let both : Prop := 2 * i + 1 < r.count
        t = { s with mem := read.1, kbl := t.kbl, mpt := { s.mpt with service := none, key := t.mpt.key } } ∧
        (∀ e : Fin 256, t.kbl.shadow[e] =
          if both ∧ e.val = (r.start + 2 * i + 1) % 256 then min (w / 256) 64
          else if e.val = (r.start + 2 * i) % 256 then min (w % 256) 64
          else s.kbl.shadow[e]) ∧
        (∃ q, t.kbl.load = some q ∧
          q.saturated = r.saturated + (if 64 < w % 256 then 1 else 0)
            + (if both ∧ 64 < w / 256 then 1 else 0) ∧
          q = { r with wordsRead := i + 1, saturated := q.saturated }) ∧
        (2 * (i + 1) < r.count → t.kbl.loader = .loading ∧
          t.mpt.key = some (.keySource (r.source + 2 * (i + 1)))) ∧
        (r.count ≤ 2 * (i + 1) → t.kbl.loader = .ready ∧ t.mpt.key = s.mpt.key))

/-! ## Reports -/

/-- R165, R166: a FIFO with fewer than eight records accepts a record, which closes an open gap and bears
it; a full one withholds it, opens or widens the gap and raises the gap flag; the stamp is TGN's, and
nothing else of the machine changes. -/
def Obligations.FifoAcceptsOrWithholds : Prop :=
  ∀ (rec : Report) (s : State),
    (s.rpw.fifo.length < 8 →
      produce rec s = { s with rpw := { s.rpw with
        fifo := s.rpw.fifo ++ [⟨rec.stamped s.tgn.stamp,
          if s.rpw.openGap = 0 then none
          else some ⟨s.rpw.openGap, s.rpw.openStamp.getD s.tgn.stamp, s.tgn.stamp⟩⟩]
        openGap := 0, openStamp := none } }) ∧
    (8 ≤ s.rpw.fifo.length →
      produce rec s = { s with rpw := { s.rpw with
        withheld := min 65535 (s.rpw.withheld + 1), openGap := min 65535 (s.rpw.openGap + 1)
        openStamp := if s.rpw.openGap = 0 then some s.tgn.stamp else s.rpw.openStamp
        gapPending := true } })

/-- R167 to R171: an idle writer that may write takes the oldest record to the entry at put when the ring
has room by the last get, its GAP first, and reads get when it has not. The completion of a record's or a GAP's
write leaves its words and the put word in memory, moves put on, retires the record or the GAP, and latches
REPORT_TRIGGER and MATCHED by their tests.
R84, R172: a write that completes with a put at or above the ring length puts put to 0, which is not compared
with the trigger, owes a lone put write of it, which an idle writer that may write posts at once, and gives
WARN/INDEX for PUT. That its place in the FIFO is free before the WARN/INDEX comes is assumption log 42, and that
the put write goes before a get read owed with it is log 45 (both DESIGN CHOICE).
R86, R167: the get and trigger read gives the working get and trigger, warns of a get at or above the
length unless the one before it was, and marks the ring as waited for when a record's read still finds
no room. That a boundary's read leaves that mark as it was when it shows no room is assumption log 32
(DEDUCED). -/
def Obligations.RecordsReachTheRing : Prop :=
  (∀ (bus : BusTraffic) (s : State),
    (s.cue.engine ≠ .stopped → s.cue.startup = false → s.cue.linkValid = true →
      s.rpw.suspended = false → s.mpt.rpw = none → s.mpt.serviceIs .report = false →
      ∀ x rest, s.rpw.fifo = x :: rest →
        let next := (s.rpw.put + 1) % s.rpw.len
        (s.rpw.lastGet < s.rpw.len → next ≠ s.rpw.lastGet →
          exec .recordWrite s = .next { s with mpt := { s.mpt with rpw := some (.reportWrite
            (s.rpw.base + 16 * s.rpw.put) (match x.gap with | some g => repGap g | none => x.report)
            x.gap.isSome (s.cue.link.toNat + 34) next) } }) ∧
        (s.rpw.len ≤ s.rpw.lastGet ∨ next = s.rpw.lastGet →
          (s.rpw.fullWait = false → exec .recordWrite s = .next
            { s with mpt := { s.mpt with rpw := some (.getRead (s.cue.link.toNat + 36) true) } }) ∧
          (s.rpw.fullWait = true → exec .recordWrite s = .next s))) ∧
    (s.rpw.fifo = [] → exec .recordWrite s = .next s) ∧
    (∀ a rec gap pa put x rest discard asked cut,
      s.mpt.service = some ⟨.reportWrite a rec gap pa put, discard, asked, cut⟩ →
      s.rpw.fifo = x :: rest → (gap = true → x.gap ≠ none) →
      let left : List FifoRecord := if gap then { x with gap := none } :: rest else rest
      let free : Prop := s.cue.engine ≠ .stopped ∧ s.cue.startup = false ∧ s.cue.linkValid = true ∧
        s.rpw.suspended = false ∧ s.mpt.rpw = none
      ∃ t, exec (.reportWriteComplete bus) s = .next t ∧
        t.mem = s.mem.writeRun ((recordAddrs a).zip rec.toWords ++ [(pa, BitVec.ofNat 16 put)]) bus ∧
        t.mpt = { s.mpt with service := none, rpw := t.mpt.rpw } ∧ t.cue = s.cue ∧
        (t.rpw.latched &&& Cause.matched.bit = Cause.matched.bit ↔
          (∃ k : Fin 4, (s.rpw.matchList[k]).mask ≠ 0 ∧
            rec.w0 &&& (s.rpw.matchList[k]).mask = (s.rpw.matchList[k]).pattern) ∨
          s.rpw.latched &&& Cause.matched.bit = Cause.matched.bit) ∧
        (put < s.rpw.len → t.rpw.put = put ∧ t.rpw.fifo = left ∧
          (s.rpw.putDue = false → s.rpw.getDue = false → t.mpt.rpw = s.mpt.rpw) ∧
          (t.rpw.latched &&& Cause.reportTrigger.bit = Cause.reportTrigger.bit ↔
            s.rpw.trigger = some put ∨
            s.rpw.latched &&& Cause.reportTrigger.bit = Cause.reportTrigger.bit)) ∧
        (s.rpw.len ≤ put → t.rpw.put = 0 ∧
          (free → t.mpt.rpw = some (.lonePut (s.cue.link.toNat + 34) 0) ∧ t.rpw.putDue = false) ∧
          (¬free → t.mpt.rpw = s.mpt.rpw ∧ t.rpw.putDue = true) ∧
          (left.length < 8 → ∃ g, t.rpw.fifo = left ++
            [⟨{ w0 := 0x0902#16, stamp := s.tgn.stamp, tag := 0, w4 := 1, w5 := BitVec.ofNat 16 put
                w6 := BitVec.ofNat 16 s.rpw.len }, g⟩]) ∧
          (s.rpw.trigger ≠ some put →
            t.rpw.latched &&& Cause.reportTrigger.bit = s.rpw.latched &&& Cause.reportTrigger.bit)) ∧
        (gap = false → put < s.rpw.len ∨ rest.length < 8 → t.rpw.withheld = s.rpw.withheld) ∧
        (∀ g, gap = true → x.gap = some g → put < s.rpw.len ∨ rest.length < 7 →
          ((∀ y ∈ rest, y.gap = none) → s.rpw.openGap = 0 →
            t.rpw.withheld = 0 ∧ t.rpw.gapPending = false) ∧
          ((∃ y ∈ rest, y.gap ≠ none) ∨ s.rpw.openGap ≠ 0 →
            t.rpw.withheld = s.rpw.withheld - g.count ∧ t.rpw.gapPending = s.rpw.gapPending)))) ∧
  (∀ (bus : BusTraffic) (a : Nat) (forRecord discard : Bool) (asked : Tick) (cut : Option Nat) (s : State),
    s.mpt.service = some ⟨.getRead a forRecord, discard, asked, cut⟩ →
    let read := s.mem.readRun [a, a + 2] bus
    let get := (read.2.getD 0 0).toNat
    let trig := (read.2.getD 1 0).toNat
    ∃ t, exec (.getReadComplete bus) s = .next t ∧ t.mem = read.1 ∧ t.mpt.service = none ∧
      t.rpw.lastGet = get ∧ t.rpw.trigger = (if trig < s.rpw.len then some trig else none) ∧
      t.rpw.badGet = decide (s.rpw.len ≤ get) ∧ t.rpw.put = s.rpw.put ∧ t.cue = s.cue ∧
      (let room : Prop := get < s.rpw.len ∧ (s.rpw.put + 1) % s.rpw.len ≠ get
       (room → t.rpw.fullWait = false) ∧ (¬room → forRecord = true → t.rpw.fullWait = true) ∧
       (¬room → forRecord = false → t.rpw.fullWait = s.rpw.fullWait)) ∧
      (get < s.rpw.len ∨ s.rpw.badGet = true → t.rpw.fifo = s.rpw.fifo) ∧
      (s.rpw.len ≤ get → s.rpw.badGet = false → s.rpw.fifo.length < 8 → ∃ g, t.rpw.fifo =
        s.rpw.fifo ++ [⟨(repWarnIndex 0 3 get s.rpw.len).stamped s.tgn.stamp, g⟩]))
/-! ## The cue engine -/

/-- R97, R110, R116 to R118: the engine's work at a field boundary with no copy to execute. HOLD keeps a due
list from being executed; STOPPED, HALTED and a start-up load in flight do nothing; a wait counts every boundary
and ends when its condition (LINE: TRACK or COAST; FIELD: that with F_LOCK) holds of the loop and the aligner as
that line end leaves them or, as WAITEND_EXPIRED, at its timeout; take then moves past the cue, which the idle
copy's does not (R112, R115), with the take write posted, or one waiting given the new value, and granted by an
idle port, and CUE_TRIGGER latched where take meets the cue trigger; one that HOLD interrupted is taken up
again, uncounted, at the boundary that finds HOLD released. WAITEND/MET or WAITEND/EXPIRED gives the condition,
the timeout and the boundaries counted, of which more than a word holds are a free value (log 20, DESIGN
CHOICE), and CUE/DONE follows where the flag asks for it (R114). An entry to HOLDOVER at that line end comes
before the test by assumption log 52, and the take write is posted before the boundary's get read, so that an
idle port takes it first, by log 50 (both DESIGN CHOICE). That WAITEND_EXPIRED is the whole line end at the
timeout and nothing elsewhere is assumption log 5 (DESIGN CHOICE). -/
def Obligations.EngineAtTheBoundary : Prop :=
  ∀ (x : LineInputs) (s : State), s.tgn.length ≤ s.tgn.line →
    let reported (t : State) (w : WaitRecord) (w0 : Word) (count : Nat) : Prop := s.rpw.fifo = [] →
      (∃ r ∈ t.rpw.fifo, r.report =
        { w0 := w0, stamp := s.tgn.stamp + 1, tag := w.copy.words.w3
          w4 := match w.cond with | .line => 0 | .field => 1
          w5 := BitVec.ofNat 16 w.timeout, w6 := r.report.w6 } ∧
        (count < 65536 → r.report.w6.toNat = count)) ∧
      (w.copy.words.w0.getLsbD 10 = true → ∃ r ∈ t.rpw.fifo, r.report =
        { w0 := 0x0404#16, stamp := s.tgn.stamp + 1, tag := w.copy.words.w3
          w4 := BitVec.ofNat 16 (w.copy.words.w0.toNat % 256), w5 := w.copy.words.w1
          w6 := BitVec.ofNat 16 (w.copy.words.w2.toNat % 256) })
    let met (t : State) (w : WaitRecord) : Prop :=
      (t.lll.loop = .track ∨ t.lll.loop = .coast) ∧ (w.cond = .field → t.fal.field = .lock)
    let finished (w : WaitRecord) : Cue := { s.cue with
      engine := .running, wait := none
      take := if w.isIdle then s.cue.take else (s.cue.take + 1) % s.cue.qLen
      deferral := if w.isIdle then s.cue.deferral else none }
    let moved (t : State) (w : WaitRecord) : Prop :=
      let write := Request.takeWrite (s.cue.link.toNat + 8) (finished w).take
      let revalued := s.mpt.cueQ.map (fun q => match q with | .takeWrite _ _ => write | q => q)
      let queue := if write ∈ revalued then revalued else s.mpt.cueQ ++ [write]
      (w.isIdle = true → t.mpt.cueQ = s.mpt.cueQ ∧ t.mpt.service = s.mpt.service) ∧
      (w.isIdle = false →
        (s.mpt.service ≠ none → t.mpt.cueQ = queue ∧ t.mpt.service = s.mpt.service) ∧
        (s.mpt.service = none → ∀ q rest, queue = q :: rest →
          t.mpt.service = some ⟨q, false, BitVec.ofNat 32 (s.lll.nextIdeal.toNat / 256), none⟩ ∧
          t.mpt.cueQ = rest)) ∧
      t.rpw.latched = (if w.isIdle = false ∧ s.cue.trigger = some (finished w).take
        then s.rpw.latched ||| Cause.cueTrigger.bit else s.rpw.latched)
    ∃ t, exec (.lineEnd x) s = .next t ∧
      (s.cue.engine = .stopped ∨ s.cue.engine = .halted ∨ s.cue.startup = true → t.cue = s.cue) ∧
      (s.cue.startup = false →
        (s.cue.engine = .running →
          (x.hold = true → t.cue = { s.cue with
            engine := .held, heldFrom := some .running, scan := none, due := [], idle := none }) ∧
          (x.hold = false → s.cue.due = [] → s.cue.idle = none →
            t.cue = { s.cue with scan := none })) ∧
        (s.cue.engine = .held →
          (x.hold = true → t.cue = s.cue) ∧
          (x.hold = false → s.cue.heldFrom = some .running →
            t.cue = { s.cue with engine := .running, heldFrom := none }) ∧
          (∀ w, x.hold = false → s.cue.heldFrom = some .waiting → s.cue.wait = some w →
            (met t w → exec (.waitendExpired x) s = .next s ∧ reported t w 0x0501#16 w.count ∧ moved t w ∧
              t.cue = { finished w with heldFrom := none }) ∧
            (¬met t w → w.timeout = 0 ∨ w.count < w.timeout →
              t.cue = { s.cue with engine := .waiting, heldFrom := none } ∧
              exec (.waitendExpired x) s = .next s) ∧
            (¬met t w → w.timeout ≠ 0 → w.timeout ≤ w.count →
              exec (.waitendExpired x) s = .next t ∧ reported t w 0x0502#16 w.count ∧ moved t w ∧
              t.cue = { finished w with heldFrom := none }))) ∧
        (∀ w, s.cue.engine = .waiting → s.cue.wait = some w →
          (x.hold = true → t.cue = { s.cue with
            engine := .held, heldFrom := some .waiting, wait := some { w with count := w.count + 1 } }) ∧
          (x.hold = false →
            (met t w → exec (.waitendExpired x) s = .next s ∧
              reported t w 0x0501#16 (w.count + 1) ∧ moved t w ∧
              t.cue = finished w) ∧
            (¬met t w → w.timeout = 0 ∨ w.count + 1 < w.timeout →
              t.cue = { s.cue with wait := some { w with count := w.count + 1 } } ∧
              exec (.waitendExpired x) s = .next s) ∧
            (¬met t w → w.timeout ≠ 0 → w.timeout ≤ w.count + 1 →
              exec (.waitendExpired x) s = .next t ∧ reported t w 0x0502#16 (w.count + 1) ∧ moved t w ∧
              t.cue = finished w))))

/-- R110 to R112, R115: a RUNNING engine that finds HOLD released at a boundary executes the due list it
has fetched in order, each copy upon the state the one before it left, up to one that stops it; and where
the due list is empty, the idle copy. What the last copy executed leaves of the engine, the loop, the front
end, the stack with the boundary's fade step (R139) and the cue levels is what the boundary leaves; the due
list and the idle copy are gone, and the copies executed or skipped are the status copy's due count (log 35,
DEDUCED). The engine finds the new stamp (R66), its own record of the scan ended (R107) and, by log 22
(DEDUCED), the boundary works of TGN and LLL done with TST's TEST/FIELD before it runs a cue. One level of TALLY,
the event's operand, serves every copy of the boundary (log 10, DESIGN CHOICE). -/
def Obligations.BoundaryRunsTheSchedule : Prop :=
  ∀ (x : LineInputs) (s : State), s.tgn.length ≤ s.tgn.line →
    s.cue.engine = .running → s.cue.startup = false → x.hold = false →
    let begun : State := clearDue (endScan (s.atCues x))
    let run (isIdle : Bool) (p : State × Bool × Nat) (c : Copy) : State × Bool × Nat :=
      if p.2.1 then
        let r := execCopy isIdle c p.1
        (r.1, r.2.2, p.2.2 + if r.2.1 then 1 else 0)
      else p
    let last : State × Bool × Nat :=
      match s.cue.due, s.cue.idle with
      | [], some c => run true (begun, true, 0) c
      | due, _ => due.foldl (run false) (begun, true, 0)
    begun.cue = { s.cue with scan := none, due := [], idle := none } ∧
    begun.tgn.stamp = s.tgn.stamp + 1 ∧ begun.kbl.banks = s.kbl.banks ∧ begun.rfe.working = s.rfe.working ∧
    ∃ t, exec (.lineEnd x) s = .next t ∧
      t.cue = last.1.cue ∧ t.lll = last.1.lll ∧ t.rfe = last.1.rfe ∧
      t.wsk.stack = last.1.wsk.stack.stepAll (s.tgn.stamp + 1) ∧
      t.tgn.out1 = last.1.tgn.out1 ∧ t.tgn.out2 = last.1.tgn.out2 ∧
      t.mpt.cueQ = last.1.mpt.cueQ ∧
      (t.cue.engine ≠ .stopped → t.cue.linkValid = true → t.rpw.suspended = false →
        (s.cue.link.toNat + 110, BitVec.ofNat 16 last.2.2) ∈ t.rpw.status)

/-- R94, R112, R161, R179 to R182: a copy with a bad field, one that is PAST, and under lockdown a PHASE, SELECT or
SETTINGS cue, has none of its effects: with the fault masked, and LATE_RUN clear in a PAST one, it is
skipped with its one report and take moves past it, its take write granted at once by an idle port;
unmasked, the engine halts on it with take where it was. The checks of single kinds are in
WindowCuesCheckTheStack and KeyloadsAreCheckedAndDeferred. -/
def Obligations.FaultyCuesAreSkippedOrHalt : Prop :=
  ∀ (isIdle : Bool) (c : Copy) (k : FaultKind) (rep : Report) (s : State),
    (∃ w v, c.words.badField = some (w, v) ∧ k = .badCue ∧ rep = repWarnBadCue c.words c.index w v) ∨
    (c.words.badField = none ∧ c.standing = .past ∧ k = .late ∧ rep = repSkipped c.words) ∨
    (c.words.badField = none ∧ c.standing ≠ .past ∧ 11 ≤ c.words.kind ∧ c.words.kind ≤ 13 ∧
      s.cue.settings.lockdown = true ∧ s.pins.tally = true ∧ k = .prot ∧
      rep = repWarnLockdown c.words true true) →
    let r := execCopy isIdle c s
    let rest : State := { s with cue := r.1.cue, rpw := r.1.rpw, mpt := r.1.mpt }
    (s.cue.masks.getLsbD k.num = true → (k = .late → c.words.lateRun = false) →
      r.2 = (true, true) ∧ r.1 = rest ∧
      (s.rpw.fifo.length < 8 → ∃ g, r.1.rpw.fifo = s.rpw.fifo ++ [⟨rep.stamped s.tgn.stamp, g⟩]) ∧
      (isIdle = true → r.1.cue = s.cue ∧ r.1.mpt = s.mpt) ∧
      (isIdle = false →
        r.1.cue = { s.cue with take := (s.cue.take + 1) % s.cue.qLen, deferral := none } ∧
        (let write := Request.takeWrite (s.cue.link.toNat + 8) ((s.cue.take + 1) % s.cue.qLen)
         (s.mpt.service = none → s.mpt.cueQ = [] →
           r.1.mpt.service = some ⟨write, false, s.rfe.tick, none⟩) ∧
         (s.mpt.service ≠ none → write ∈ r.1.mpt.cueQ ∧ r.1.mpt.service = s.mpt.service)) ∧
        (s.cue.trigger = some ((s.cue.take + 1) % s.cue.qLen) →
          r.1.rpw.latched = s.rpw.latched ||| Cause.cueTrigger.bit) ∧
        (s.cue.trigger ≠ some ((s.cue.take + 1) % s.cue.qLen) → r.1.rpw.latched = s.rpw.latched))) ∧
    (s.cue.masks.getLsbD k.num = false →
      r.2 = (false, false) ∧ r.1 = rest ∧ r.1.rpw.latched = s.rpw.latched ||| Cause.halt.bit ∧
      r.1.cue = { s.cue with
        engine := .halted, haltReason := some (.fault k), scan := none, due := [], idle := none
        wait := none, heldFrom := none } ∧ r.1.mpt.cueQ = [] ∧
      (s.rpw.fifo.length < 8 → ∃ g, r.1.rpw.fifo = s.rpw.fifo ++
        [⟨(repHaltFault k c.words (c.index.map (fun _ => s.cue.take))).stamped s.tgn.stamp, g⟩]))

/-- R112, R114: a performed copy of any kind is retired: take moves by 1 modulo the queue length, which the
idle copy's does not, the deferral is cleared, the take write is posted, or one waiting given the new value,
and granted by an idle port, the cue trigger is tested, and CUE/DONE is given where the flag asks for it.
R58, R120, R121, R124, R125, R153, R154, R159: the effects of NONE, MARK, PHASE, OUTPUT, HALT and KEYLOAD cues
that pass their checks, with what each leaves alone; a PHASE whose H target is out of range is a BAD_CUE. A
PHASE that changes the V offset in F_LOCK gives FIELD/REALIGN with reason V_OFFSET, with tag 0 by assumption log
18 (DEDUCED). HALT is retired, its CUE/DONE with it, and then latches HALT and gives HALT/REQUESTED with the
working take. -/
def Obligations.CuesHaveTheirEffects : Prop :=
  ∀ (isIdle : Bool) (c : Copy) (s : State),
    let k := c.words.kind
    let r := judgeCopy isIdle c s
    (r.2 = .performed →
      let e := execCopy isIdle c s
      let take := if isIdle then r.1.cue.take else (r.1.cue.take + 1) % r.1.cue.qLen
      let write := Request.takeWrite (r.1.cue.link.toNat + 8) take
      let revalued := r.1.mpt.cueQ.map (fun q => match q with | .takeWrite _ _ => write | q => q)
      let queue := if write ∈ revalued then revalued else r.1.mpt.cueQ ++ [write]
      let done : Report :=
        { w0 := 0x0404#16, stamp := s.tgn.stamp, tag := c.words.w3, w4 := BitVec.ofNat 16 k, w5 := c.words.w1
          w6 := BitVec.ofNat 16 (c.words.w2.toNat % 256) }
      e.2 = (true, true) ∧
      e.1 = { r.1 with
        cue := { r.1.cue with take := take, deferral := if isIdle then r.1.cue.deferral else none }
        mpt := e.1.mpt, rpw := e.1.rpw } ∧
      (isIdle = true → e.1.mpt = r.1.mpt) ∧
      (isIdle = false →
        (r.1.mpt.service ≠ none → e.1.mpt = { r.1.mpt with cueQ := queue }) ∧
        (∀ q rest, r.1.mpt.service = none → queue = q :: rest →
          e.1.mpt = { r.1.mpt with service := some ⟨q, false, s.rfe.tick, none⟩, cueQ := rest })) ∧
      e.1.rpw.latched = (if isIdle = false ∧ r.1.cue.trigger = some take
        then r.1.rpw.latched ||| Cause.cueTrigger.bit else r.1.rpw.latched) ∧
      (c.words.w0.getLsbD 10 = false → e.1.rpw.fifo = r.1.rpw.fifo) ∧
      (c.words.w0.getLsbD 10 = true → r.1.rpw.fifo.length < 8 →
        ∃ g, e.1.rpw.fifo = r.1.rpw.fifo ++ [⟨done, g⟩])) ∧
    (c.words.badField = none → c.standing ≠ .past →
    (k = 0 → r = (s, .performed)) ∧
    (k = 1 → r = (produce
      { w0 := BitVec.ofNat 16 (0x0600 + c.words.w4.toNat % 256), tag := c.words.w3, w4 := c.words.w4 } s,
      .performed)) ∧
    (k = 11 → s.cue.settings.lockdown = false ∨ s.pins.tally = false →
      s.rfe.working.half < c.words.w4.toInt.natAbs →
      (s.cue.masks.getLsbD 0 = true → r = (produce
        { w0 := 0x0908#16, tag := c.words.w3, w4 := 11
          w5 := match c.index with | some i => BitVec.ofNat 16 i | none => 0xffff#16
          w6 := 4, w7 := c.words.w4 } s, .skipped)) ∧
      (s.cue.masks.getLsbD 0 = false → r = (faultHalt .badCue c s, .halted))) ∧
    (k = 11 → s.cue.settings.lockdown = false ∨ s.pins.tally = false →
      c.words.w4.toInt.natAbs ≤ s.rfe.working.half →
      r.2 = .performed ∧
      r.1 = { s with cue := r.1.cue, lll := r.1.lll, fal := r.1.fal, rpw := r.1.rpw } ∧
      r.1.cue = { s.cue with settings := { s.cue.settings with
        vOffset := c.words.w5.toNat, slew := c.words.w6.toNat } } ∧
      r.1.lll = { s.lll with hTarget := c.words.w4.toInt } ∧
      (c.words.w5.toNat = s.cue.settings.vOffset ∨ s.fal.field ≠ .lock →
        r.1.fal = s.fal ∧ r.1.rpw = s.rpw) ∧
      (c.words.w5.toNat ≠ s.cue.settings.vOffset → s.fal.field = .lock →
        r.1.fal = { s.fal with field := .align, miss := 0 } ∧
        (s.rpw.fifo.length < 8 → ∃ g, r.1.rpw.fifo = s.rpw.fifo ++
          [⟨{ w0 := 0x0303#16, stamp := s.tgn.stamp
              w4 := match s.fal.lastParity with | none => 1 | some .one => 5 | some .two => 9
              w5 := 2, w6 := BitVec.ofInt 16 s.fal.lastDelta }, g⟩]))) ∧
    (k = 14 → r.2 = .performed ∧ r.1 = { s with tgn := r.1.tgn } ∧
      r.1.tgn = { s.tgn with out1 := r.1.tgn.out1, out2 := r.1.tgn.out2 } ∧
      (r.1.tgn.out1 = true ↔ c.words.w4 = 2 ∨ (c.words.w4 = 0 ∧ s.tgn.out1 = true)) ∧
      (r.1.tgn.out2 = true ↔ c.words.w5 = 2 ∨ (c.words.w5 = 0 ∧ s.tgn.out2 = true))) ∧
    (k = 17 →
      let e := execCopy isIdle c s
      let take := if isIdle then s.cue.take else (s.cue.take + 1) % s.cue.qLen
      let done : List Report := if c.words.w0.getLsbD 10 then
          [{ w0 := 0x0404#16, stamp := s.tgn.stamp, tag := c.words.w3, w4 := 17, w5 := c.words.w1
             w6 := BitVec.ofNat 16 (c.words.w2.toNat % 256) }]
        else []
      e.2 = (true, false) ∧
      e.1 = { s with
        cue := { s.cue with
          engine := .halted, haltReason := some .halt, scan := none, due := [], idle := none, wait := none
          heldFrom := none, take := take, deferral := if isIdle then s.cue.deferral else none }
        mpt := e.1.mpt, rpw := e.1.rpw } ∧
      e.1.rpw.latched = (if isIdle = false ∧ s.cue.trigger = some take
        then s.rpw.latched ||| Cause.cueTrigger.bit else s.rpw.latched) ||| Cause.halt.bit ∧
      (s.rpw.fifo.length ≤ 6 → s.rpw.openGap = 0 → e.1.rpw.fifo = s.rpw.fifo ++
        done.map (fun q => ⟨q, none⟩) ++
          [⟨{ w0 := 0x0700#16, stamp := s.tgn.stamp, tag := c.words.w3, w7 := BitVec.ofNat 16 take }, none⟩])) ∧
    (k = 10 → ∀ b : Fin 4, c.words.loadBank = b.val →
      (0 < c.words.loadCount → c.words.loadBank + s.cue.settings.protect < 4 → s.kbl.loader = .idle →
        r.2 = .performed ∧
        r.1.kbl = { s.kbl with
          shadow := s.kbl.banks[b], loader := .loading
          load := some ⟨b, c.words.w5.toNat, c.words.loadCount, c.words.loadSource, 0, 0, c.words.tag,
            0, false⟩ } ∧
        r.1 = { s with
          kbl := r.1.kbl, mpt := { s.mpt with key := some (.keySource c.words.loadSource) } }) ∧
      (c.words.loadCount = 0 → s.kbl.load = none → r = (s, .performed)) ∧
      (∀ l, c.words.loadCount = 0 → s.kbl.load = some l → l.bank = b →
        r.2 = .performed ∧ r.1.kbl.loader = .idle ∧ r.1.kbl.load = none ∧
        r.1.kbl.banks = s.kbl.banks ∧ r.1.mpt.key = none ∧ r.1.cue = s.cue)))

/-- R116, R121, R122, R124, R130, R135, R137, R152, R180, R188: the operand fields of each kind and the
values each may hold; the first outside its encoding is the bad field, by its word and its value, and a kind
code above 17 is one in word 0. The order of two fields of one word is assumption log 19 (DESIGN CHOICE), as
is the value shown for a KEYLOAD source, a free one. -/
def Obligations.OperandsHaveEncodings : Prop :=
  ∀ c : CueWords,
    let kind := c.w0.toNat % 256
    let depth := c.w4.toNat % 16
    let first : List (Nat × Nat × Bool) → Option (Nat × Word) := fun fs =>
      (fs.find? (fun f => !f.2.2)).map (fun f => (f.1, BitVec.ofNat 16 f.2.1))
    (17 < kind → c.badField = some (0, BitVec.ofNat 16 kind)) ∧
    (kind = 0 ∨ kind = 1 ∨ kind = 3 ∨ kind = 13 ∨ kind = 17 → c.badField = none) ∧
    (kind = 2 → c.badField = first
      [(4, c.w4.toNat / 512 % 4, decide (c.w4.toNat / 512 % 4 ≤ 2)),
       (5, c.w5.toNat / 512, decide (c.w5.toNat / 512 ≤ 64))]) ∧
    (kind = 4 → c.badField = first [(4, depth, decide (1 ≤ depth ∧ depth ≤ 7))]) ∧
    (kind = 5 ∨ kind = 7 ∨ kind = 8 → c.badField = first [(4, depth, decide (depth ≤ 7))]) ∧
    (kind = 6 →
      let code := c.w4.toNat / 256 % 16
      let v := c.w5.toNat
      c.badField = first [(4, depth, decide (depth ≤ 7)), (4, code, decide (code ≤ 5)),
        (5, v, decide ((code = 4 → v ≤ 2) ∧ (code = 5 → v ≤ 3)))]) ∧
    (kind = 9 → c.badField = first [(4, depth, decide (depth ≤ 7)),
      (5, c.w5.toNat, decide (c.w5.toNat ≤ 64)),
      (6, c.w6.toNat, decide (1 ≤ c.w6.toNat ∧ c.w6.toNat ≤ 1023))]) ∧
    (kind = 10 →
      let count := c.w4.toNat / 16
      let source := c.w6.toNat + 65536 * (c.w7.toNat % 256)
      let early := first [(4, depth, decide (depth ≤ 3)), (4, count, decide (count ≤ 1024)),
        (5, c.w5.toNat, decide (c.w5.toNat ≤ 255))]
      let badSource : Prop := count ≠ 0 ∧ (source % 2 = 1 ∨ 2 ^ 24 < source + 2 * ((count + 1) / 2))
      (early ≠ none → c.badField = early) ∧
      (early = none → ¬badSource → c.badField = none) ∧
      (early = none → badSource → ∃ shown, c.badField = some (6, shown))) ∧
    (kind = 11 → c.badField = first [(5, c.w5.toNat, decide (c.w5.toNat ≤ 15)),
      (6, c.w6.toNat, decide (1 ≤ c.w6.toNat ∧ c.w6.toNat ≤ 64))]) ∧
    (kind = 12 → c.badField = first [(4, c.w4.toNat, decide (c.w4.toNat ≤ 2))]) ∧
    (kind = 14 → c.badField = first [(4, c.w4.toNat, decide (c.w4.toNat ≤ 2)),
      (5, c.w5.toNat, decide (c.w5.toNat ≤ 2))]) ∧
    (kind = 15 → c.badField = first [(4, c.w4.toNat, decide (c.w4.toNat ≤ 1)),
      (5, c.w5.toNat, decide (c.w5.toNat ≤ 4095))]) ∧
    (kind = 16 → c.badField = first [(4, c.w4.toNat, decide (c.w4.toNat ≤ 1))])

/-- R129 to R137, R180: a window cue that finds its slots as it needs them has its effect on the stack
and on nothing else; PUSH with the slot at depth 7 in use is STACK_OVER, a cue on an EMPTY slot STACK_UNDER
(for EXCH, on two); a PUSH or EDIT whose geometry leaves the picture is RANGE, and masked goes on with the
nearest lines and dots after WARN/RANGE. -/
def Obligations.WindowCuesCheckTheStack : Prop :=
  ∀ (isIdle : Bool) (c : Copy) (s : State), c.words.badField = none → c.standing ≠ .past →
    let k := c.words.kind
    let r := judgeCopy isIdle c s
    let st := s.wsk.stack
    let w4 := c.words.w4.toNat
    let w5 := c.words.w5.toNat
    let masked : FaultKind → Prop := fun f => s.cue.masks.getLsbD f.num = true
    let slotCode (i : Fin 8) : Word := match st.slot i with | .empty => 0 | .parked _ => 1 | .live _ => 2
    let stop (f : FaultKind) (w0 : Word) (i : Fin 8) : Prop :=
      (masked f → r = (produce { w0 := w0, tag := c.words.w3, w4 := BitVec.ofNat 16 k
                                 w5 := BitVec.ofNat 16 i.val
                                 w6 := BitVec.ofNat 16 ((st.top.val + i.val) % 8), w7 := slotCode i } s
                       , .skipped)) ∧
      (¬masked f → r = (faultHalt f c s, .halted))
    let done (s0 : State) (st2 : Stack) : Prop := r = ({ s0 with wsk := { s0.wsk with stack := st2 } }, .performed)
    let lines : Nat → Nat := fun v => max 1 (min v (s.rfe.working.fieldLines .one + 16))
    let dots : Nat → Nat := fun v => min v (s.cue.settings.dots - 1)
    -- the report of the fields that leave the picture: bit, value read, value adopted
    let range (depth : Nat) (fs : List (Nat × Nat × Nat)) (then_ : State → Prop) : Prop :=
      let out := fs.filter (fun f => f.2.1 ≠ f.2.2)
      match out with
      | [] => then_ s
      | f :: _ =>
        (masked .range → then_ (produce { w0 := 0x0904#16, tag := c.words.w3, w4 := BitVec.ofNat 16 depth
                                          w5 := BitVec.ofNat 16 ((out.map (fun g => 2 ^ g.1)).sum)
                                          w6 := BitVec.ofNat 16 f.2.1, w7 := BitVec.ofNat 16 f.2.2 } s)) ∧
        (¬masked .range → r = (faultHalt .range c s, .halted))
    (k = 2 → (st.slot 7 ≠ .empty → stop .stackOver 0x0905#16 7) ∧
      (st.slot 7 = .empty →
        let top := w4 % 512
        let bottom := w5 % 512
        let left := c.words.w6.toNat % 2048
        let right := c.words.w7.toNat % 2048
        let win : Window :=
          { top := lines top, bottom := lines bottom, left := dots left, right := dots right
            mode := match w4 / 512 % 4 with | 0 => .index | 1 => .full | _ => .punch
            bank := Fin.ofNat 4 (w4 / 2048 % 4), fade := w5 / 512, target := w5 / 512, steps := 0
            tag := c.words.w3, mark := s.tgn.stamp }
        range 0 [(0, top, lines top), (1, bottom, lines bottom), (2, left, dots left), (3, right, dots right)]
          (fun s0 => done s0 (st.push win (decide (w4 / 8192 % 2 = 1)))))) ∧
    (k = 3 → (st.slot 0 = .empty → stop .stackUnder 0x0906#16 0) ∧
      (st.slot 0 ≠ .empty → done s st.pop)) ∧
    (∀ i : Fin 8, w4 % 16 = i.val →
      (k = 4 → (st.slot 0 = .empty ∧ st.slot i = .empty → stop .stackUnder 0x0906#16 i) ∧
        (st.slot 0 ≠ .empty ∨ st.slot i ≠ .empty → done s (st.exch i))) ∧
      (5 ≤ k → k ≤ 9 → st.slot i = .empty → stop .stackUnder 0x0906#16 i) ∧
      (st.slot i ≠ .empty →
        let stepped : Window → Window := fun w => w.stepFor s.tgn.stamp
        (k = 5 → done s (st.drop i)) ∧ (k = 7 → done s (st.show_ i)) ∧ (k = 8 → done s (st.park i)) ∧
        (k = 9 → done s (st.onWindow i (fun w => { stepped w with
          target := w5, steps := c.words.w6.toNat, mark := s.tgn.stamp }))) ∧
        (k = 6 →
          let ended : Window → Window := fun w => { w with target := w.fade, steps := 0 }
          let put (s0 : State) (f : Window → Window) : Prop :=
            done s0 (st.onWindow i (fun w => ended (f (stepped w))))
          (w4 / 256 % 16 = 0 → range i.val [(0, w5, lines w5)]
            (fun s0 => put s0 (fun w => { w with top := lines w5 }))) ∧
          (w4 / 256 % 16 = 1 → range i.val [(1, w5, lines w5)]
            (fun s0 => put s0 (fun w => { w with bottom := lines w5 }))) ∧
          (w4 / 256 % 16 = 2 → range i.val [(2, w5, dots w5)]
            (fun s0 => put s0 (fun w => { w with left := dots w5 }))) ∧
          (w4 / 256 % 16 = 3 → range i.val [(3, w5, dots w5)]
            (fun s0 => put s0 (fun w => { w with right := dots w5 }))) ∧
          (w4 / 256 % 16 = 4 → put s (fun w => { w with
            mode := match w5 with | 0 => .index | 1 => .full | _ => .punch })) ∧
          (w4 / 256 % 16 = 5 → put s (fun w => { w with bank := Fin.ofNat 4 w5 })))))

/-- R115, R119, R153, R159, R161, R162: the checks of KEYLOAD. A load for a protected bank is PROTECTED, and
a load while the loader is not IDLE, or a cancel that names another bank than the load in hand, is BUSY:
masked, an idle copy is skipped and a queued one deferred, take where it was, with CUE/DEFERRED the first
time. A cancel of the load in hand gives SWAP/CANCELLED. -/
def Obligations.KeyloadsAreCheckedAndDeferred : Prop :=
  ∀ (isIdle : Bool) (c : Copy) (b : Fin 4) (s : State), c.words.badField = none → c.standing ≠ .past →
    c.words.kind = 10 → c.words.w4.toNat % 16 = b.val →
    let r := judgeCopy isIdle c s
    let count := c.words.w4.toNat / 16
    let masked : FaultKind → Prop := fun f => s.cue.masks.getLsbD f.num = true
    let loader : Word := match s.kbl.loader with | .idle => 0 | .loading => 1 | .ready => 2
    let busy : Prop :=
      (¬masked .busy → r = (faultHalt .busy c s, .halted)) ∧
      (masked .busy →
        (isIdle = true → r = (produce { w0 := 0x0402#16, tag := c.words.w3, w4 := 10, w5 := c.words.w1
                                        w6 := BitVec.ofNat 16 (c.words.w2.toNat % 256) } s, .skipped)) ∧
        (isIdle = false → (execCopy isIdle c s).1 = r.1 ∧ (execCopy isIdle c s).2 = (false, false) ∧
          (s.cue.deferral = c.index → r = (s, .deferred)) ∧
          (s.cue.deferral ≠ c.index →
            r = (produce { w0 := 0x0403#16, tag := c.words.w3, w4 := 10, w5 := loader
                           w6 := match s.kbl.load with | some l => BitVec.ofNat 16 l.bank.val | none => 0 }
                   { s with cue := { s.cue with deferral := c.index } }, .deferred))))
    (0 < count → 4 ≤ b.val + s.cue.settings.protect →
      (masked .prot → r = (produce { w0 := 0x0907#16, tag := c.words.w3, w4 := 10, w5 := 0
                                     w6 := BitVec.ofNat 16 b.val
                                     w7 := BitVec.ofNat 16 s.cue.settings.protect } s, .skipped)) ∧
      (¬masked .prot → r = (faultHalt .prot c s, .halted))) ∧
    (0 < count → b.val + s.cue.settings.protect < 4 → s.kbl.loader ≠ .idle → busy) ∧
    (∀ l, count = 0 → s.kbl.load = some l →
      (l.bank ≠ b → busy) ∧
      (l.bank = b → s.rpw.fifo.length < 8 → ∃ g, r.1.rpw.fifo = s.rpw.fifo ++
        [⟨{ w0 := 0x0803#16, stamp := s.tgn.stamp, tag := c.words.w3
            w4 := BitVec.ofNat 16 (b.val + if s.kbl.loader = .ready then 4 else 0)
            w5 := BitVec.ofNat 16 l.wordsRead, w6 := l.tag }, g⟩]))

/-- R83, R113, R114, R116, R122, R123, R188, R189: what SELECT, SETTINGS, WAITLOCK and SNAPSHOT cues and late
copies under LATE_RUN do. SELECT retires the cue, its CUE/DONE with it, before the policy reaches RFE, whose
reports follow (assumption log 31, DEDUCED); naming the input already active leaves all of RFE as it is, the
absence count with it (log 34, DEDUCED). SETTINGS validates its image: a valid one is adopted with take past the
cue, its warnings, the load's effects in R91's order (stated in StartUpLoadValidates) and CUE/DONE following one
another; a failing one makes a LINK fault with take on it and aborts a LOADING load (R160, R187); as the idle
copy it leaves take but for R84's correction to 0 (log 46, DESIGN CHOICE). WAITLOCK goes on where its condition
holds, and else waits. SNAPSHOT gives three records of the state and sets every mask where it is told. A late
copy told to run reports CUE/LATE and is then executed like any other. -/
def Obligations.ScheduleCuesAct : Prop :=
  ∀ (isIdle : Bool) (c : Copy) (s : State), c.words.badField = none →
    let k := c.words.kind
    let r := judgeCopy isIdle c s
    let moved := if isIdle then s.cue.take else (s.cue.take + 1) % s.cue.qLen
    let room (n : Nat) : Prop := s.rpw.fifo.length + n ≤ 8 ∧ s.rpw.openGap = 0
    let done : List Report :=
      if c.words.w0.getLsbD 10 then
        [{ w0 := 0x0404#16, stamp := s.tgn.stamp, tag := c.words.w3, w4 := BitVec.ofNat 16 k, w5 := c.words.w1
           w6 := BitVec.ofNat 16 (c.words.w2.toNat % 256) }]
      else []
    (c.standing = .past → s.cue.masks.getLsbD 1 = true → c.words.w0.getLsbD 9 = true →
      let late := produce { w0 := 0x0401#16, tag := c.words.w3, w4 := BitVec.ofNat 16 k, w5 := c.words.w1
                            w6 := BitVec.ofNat 16 (c.words.w2.toNat % 256) } s
      let onTime := judgeCopy isIdle { c with standing := .due } late
      r.2 = onTime.2 ∧ (k ≠ 15 → r = onTime)) ∧
    (c.standing ≠ .past →
      (k = 12 → s.cue.settings.lockdown = false ∨ s.pins.tally = false →
        let new : Policy := if c.words.w4 = 0 then .auto else if c.words.w4 = 1 then .named .a else .named .b
        r.2 = .retired ∧ r.1.cue.settings = { s.cue.settings with policy := new } ∧ r.1.cue.take = moved ∧
        (new = s.cue.settings.policy → r.1.rfe = s.rfe ∧
          (room 1 → r.1.rpw.fifo = s.rpw.fifo ++ done.map (fun q => ⟨q, none⟩))) ∧
        (new = .auto → new ≠ s.cue.settings.policy →
          r.1.rfe = { s.rfe with absence := 0 } ∧ r.1.lll = s.lll ∧ r.1.fal = s.fal) ∧
        (∀ i, new = .named i → new ≠ s.cue.settings.policy →
          r.1.rfe.active = i ∧ (s.rfe.active = i → r.1.rfe = s.rfe) ∧
          (s.rfe.active ≠ i → r.1.rpw.latched.getLsbD 7 = true ∧ r.1.rfe.differ = 0 ∧
            r.1.fal.field = .seek ∧ (s.lll.loop ≠ .free → r.1.lll.loop = .holdover) ∧
            (room 4 → ∃ rest, r.1.rpw.fifo = s.rpw.fifo ++ done.map (fun q => ⟨q, none⟩) ++ rest ∧
              rest.head?.map (fun q => (q.report.w0, q.report.w5)) = some (0x0103#16, 1))))) ∧
      (∀ im, k = 13 → c.image = some im → s.cue.settings.lockdown = false ∨ s.pins.tally = false →
        (∀ test, im.firstFailure none = some test →
          r.2 = .halted ∧ r.1.cue.engine = .halted ∧ r.1.cue.haltReason = some .link ∧
          r.1.cue.linkValid = false ∧ r.1.cue.take = s.cue.take ∧ r.1.cue.settings = s.cue.settings ∧
          r.1.rpw.latched.getLsbD 6 = true ∧
          (room 1 → r.1.rpw.fifo[s.rpw.fifo.length]? =
            some ⟨{ w0 := 0x0701#16, stamp := s.tgn.stamp, tag := c.words.w3, w4 := 1
                    w5 := BitVec.ofNat 16 test, w7 := BitVec.ofNat 16 s.cue.take }, none⟩) ∧
          (s.kbl.loader ≠ .loading → r.1.kbl = s.kbl) ∧
          (s.kbl.loader = .loading → ∀ l, s.kbl.load = some l →
            r.1.kbl.loader = .idle ∧ r.1.kbl.load = none ∧
            (room 2 → r.1.rpw.fifo.drop (s.rpw.fifo.length + 1) =
              [⟨{ w0 := 0x0804#16, stamp := s.tgn.stamp, tag := l.tag
                  w4 := BitVec.ofNat 16 (l.bank.val + 32), w5 := BitVec.ofNat 16 l.wordsRead }, none⟩]))) ∧
        (im.firstFailure none = none →
          r.2 = .retired ∧ r.1.cue.engine = s.cue.engine ∧ r.1.cue.linkValid = true ∧
          r.1.cue.settings = settingsOf im.settings s.rfe.working ∧
          r.1.cue.masks = r.1.cue.settings.faultMask ∧
          r.1.cue.qBase = im.qBase ∧ r.1.cue.qLen = im.qLen ∧
          r.1.cue.take = (if moved < im.qLen then moved else 0) ∧
          r.1.rpw.base = im.rBase ∧ r.1.rpw.len = im.rLen ∧ r.1.rpw.lastGet = im.get ∧
          r.1.rpw.put = (if s.rpw.put < im.rLen then s.rpw.put else 0) ∧
          r.1.rpw.matchList = im.matchList ∧
          (let handed := loadEffects s.cue.settings
             { s with cue := { s.cue with settings := r.1.cue.settings } }
           let index (which v len : Nat) : List Report :=
             if len ≤ v then
               [{ w0 := 0x0902#16, stamp := s.tgn.stamp, tag := c.words.w3, w4 := BitVec.ofNat 16 which
                  w5 := BitVec.ofNat 16 v, w6 := BitVec.ofNat 16 len }]
             else []
           let warnings := index 0 moved im.qLen ++ index 1 s.rpw.put im.rLen ++
             (settingWarnings c.words.w3 im.settings s.rfe.working).map (fun q => q.stamped s.tgn.stamp)
           r.1.rfe = handed.rfe ∧ r.1.lll = handed.lll ∧ r.1.fal = handed.fal ∧ r.1.tst = handed.tst ∧
           r.1.tgn = s.tgn ∧ r.1.wsk = s.wsk ∧ r.1.kbl = s.kbl ∧
           (room (warnings.length + 5) → r.1.rpw.fifo = s.rpw.fifo ++ warnings.map (fun q => ⟨q, none⟩) ++
             handed.rpw.fifo.drop s.rpw.fifo.length ++ done.map (fun q => ⟨q, none⟩))))) ∧
      (k = 15 →
        let cond : WaitCond := if c.words.w4 = 0 then .line else .field
        let met : Prop := (s.lll.loop = .track ∨ s.lll.loop = .coast) ∧ (cond = .field → s.fal.field = .lock)
        (met → r = (s, .performed)) ∧
        (¬met → r = ({ s with cue := { s.cue with
            engine := .waiting, wait := some ⟨c, cond, c.words.w5.toNat, 0, isIdle⟩ } }, .waiting) ∧
          execCopy isIdle c s = (r.1, false, false))) ∧
      (k = 16 →
        let st := s.wsk.stack.stepAll s.tgn.stamp
        let value (f : Window → Nat) (i : Fin 8) : Nat :=
          match st.slots[i] with | .empty => 0 | .parked w => f w | .live w => f w
        let pair (f : Window → Nat) (low high : Fin 8) (bit : Nat) : Word :=
          BitVec.ofNat 16 (value f low + 256 * value f high + 32768 * (bit % 2))
        let tag (i : Nat) : Nat := match st.slots[i]? with
          | some (.parked _) => 1 | some (.live _) => 2 | _ => 0
        let loop : Nat := match s.lll.loop with
          | .free => 0 | .capture => 1 | .track => 2 | .coast => 3 | .holdover => 4
        let field : Nat := match s.fal.field with | .seek => 0 | .align => 1 | .lock => 2
        let loader : Nat := match s.kbl.loader with | .idle => 0 | .loading => 1 | .ready => 2
        let bank : Nat := match s.kbl.load with | some l => l.bank.val | none => 0
        let bit (b : Bool) (n : Nat) : Nat := if b then 2 ^ n else 0
        r.2 = .performed ∧
        r.1 = { s with rpw := r.1.rpw, cue := { s.cue with
          masks := if c.words.w4 = 1 then 0x7f#7 else s.cue.masks } } ∧
        (room 3 → r.1.rpw.fifo = s.rpw.fifo ++
          [ ⟨{ w0 := 0x0A01#16, stamp := s.tgn.stamp, tag := c.words.w3, w4 := BitVec.ofNat 16 s.cue.take
               w5 := BitVec.ofNat 16 s.cue.lastFill
               w6 := BitVec.ofNat 16 (((List.range 8).map (fun i => 4 ^ i * tag i)).sum)
               w7 := BitVec.ofNat 16 (s.cue.masks.toNat + 256 * loop + 2048 * field
                 + bit (s.rfe.active = .b) 13 + bit (s.rfe.working = .s525) 14
                 + bit (s.cue.settings.lockdown && s.pins.tally) 15) }, none⟩
          , ⟨{ w0 := 0x0A02#16, stamp := s.tgn.stamp, tag := c.words.w3
               w4 := pair Window.fade 0 1 st.top.val, w5 := pair Window.fade 2 3 (st.top.val / 2)
               w6 := pair Window.fade 4 5 (st.top.val / 4), w7 := pair Window.fade 6 7 0 }, none⟩
          , ⟨{ w0 := 0x0A03#16, stamp := s.tgn.stamp, tag := c.words.w3
               w4 := pair Window.target 0 1 loader, w5 := pair Window.target 2 3 (loader / 2)
               w6 := pair Window.target 4 5 bank, w7 := pair Window.target 6 7 (bank / 2) }, none⟩ ])))
/-! ## The window stack and the key level -/

/-- R128, R131 to R134, R136: PUSH, POP, EXCH, DROP, SHOW and PARK as the depths see them, and a PUSH
followed by a POP leaves the stack as it was. -/
def Obligations.StackCuesMoveTheDepths : Prop :=
  ∀ (st : Stack) (w : Window) (live : Bool) (i j : Fin 8),
    ((st.push w live).slot 0 = if live then .live w else .parked w) ∧
    (i.val < 7 → (st.push w live).slot (i + 1) = st.slot i ∧ st.pop.slot i = st.slot (i + 1)) ∧
    st.pop.slot 7 = .empty ∧
    (st.slot 7 = .empty → (st.push w live).pop = st) ∧
    (st.exch i).slot 0 = st.slot i ∧ (st.exch i).slot i = st.slot 0 ∧
    (j ≠ 0 → j ≠ i → (st.exch i).slot j = st.slot j) ∧
    (st.exch i).exch i = st ∧
    (st.drop i).slot i = .empty ∧ (j ≠ i → (st.drop i).slot j = st.slot j) ∧
    (∀ v, (st.slot i).window = some v →
      (st.show_ i).slot i = .live v ∧ (st.park i).slot i = .parked v) ∧
    (j ≠ i → (st.show_ i).slot j = st.slot j ∧ (st.park i).slot j = st.slot j) ∧
    (st.exch i).top = st.top ∧ (st.drop i).top = st.top ∧ (st.show_ i).top = st.top ∧
    (st.park i).top = st.top

/-- R138: a fade step adds (target - fade) / m, truncated toward zero, and lowers the steps remaining m by 1;
with none remaining it does nothing. A fade of m steps is at its target after the m-th, and until then lies
between where it began and the target.
R139: a window not yet stepped for a field takes its one step for it and is marked, one marked takes none; and
every boundary steps each window of the stack so for the field that begins, as BoundaryRunsTheSchedule says of
one at which cues run. WSK's step of every window may come before the cues of the boundary, between them and the
swap test, or after it, and the machine is the same; that the place is an operand is assumption log 6 (DEDUCED). -/
def Obligations.FadesReachTheirTargets : Prop :=
  (∀ (w : Window) (n : Stamp),
    (w.steps = 0 → w.fadeStep = w) ∧
    (0 < w.steps →
      w.fadeStep = { w with fade := w.fadeStep.fade, steps := w.steps - 1 } ∧
      (w.fadeStep.fade : Int) = w.fade + ((w.target : Int) - w.fade).tdiv w.steps) ∧
    (w.mark = n → w.stepFor n = w) ∧
    (w.mark ≠ n → w.stepFor n = { w.fadeStep with mark := n }) ∧
    (w.stepFor n).stepFor n = w.stepFor n) ∧
  (∀ (st : Stack) (n : Stamp) (i : Fin 8),
    (st.stepAll n).top = st.top ∧
    (st.stepAll n).slots[i] = (match st.slots[i] with
      | .empty => .empty | .parked w => .parked (w.stepFor n) | .live w => .live (w.stepFor n))) ∧
  (∀ (x : LineInputs) (s : State), s.tgn.length ≤ s.tgn.line →
    s.cue.engine ≠ .running ∨ s.cue.startup = true ∨ x.hold = true ∨
      (s.cue.due = [] ∧ s.cue.idle = none) →
    ∃ t, exec (.lineEnd x) s = .next t ∧ t.wsk.stack = s.wsk.stack.stepAll (s.tgn.stamp + 1)) ∧
  (∀ (w : Window) (k : Nat), 0 < w.steps → k ≤ w.steps →
    (Window.fadeStep^[k] w).steps = w.steps - k ∧
    (Window.fadeStep^[w.steps] w).fade = w.target ∧
    min w.fade w.target ≤ (Window.fadeStep^[k] w).fade ∧
    (Window.fadeStep^[k] w).fade ≤ max w.fade w.target ∧
    Window.fadeStep^[k] w = { w with
      fade := (Window.fadeStep^[k] w).fade, steps := (Window.fadeStep^[k] w).steps }) ∧
  (∀ (x : LineInputs) (p : Place) (s : State),
    exec (.lineEnd { x with order := { x.order with wsk := p } }) s = exec (.lineEnd x) s)

/-- R141 to R144: the dot's level is that of the shallowest LIVE window with fade above 0 that covers it,
0 with none; FULL gives the fade itself, PUNCH 0, and INDEX the bank's value scaled by the fade, which
is the value at 64, 0 at a value of 0, and never above either. -/
def Obligations.ShallowestWindowKeys : Prop :=
  (∀ (st : Stack) (banks : Vector Bank 4) (line x : Nat) (index : Byte),
    ((∀ i w, st.slot i = .live w → w.fade = 0 ∨ line < w.top ∨ w.bottom < line ∨ x < w.left ∨
        w.right < x) → st.level banks line x index = 0) ∧
    (∀ i w, st.slot i = .live w → 0 < w.fade → w.top ≤ line → line ≤ w.bottom → w.left ≤ x →
      x ≤ w.right →
      (∀ j v, j < i → st.slot j = .live v → v.fade = 0 ∨ line < v.top ∨ v.bottom < line ∨
        x < v.left ∨ v.right < x) →
      (w.mode = .full → st.level banks line x index = w.fade) ∧
      (w.mode = .punch → st.level banks line x index = 0) ∧
      (w.mode = .index → st.level banks line x index =
        ((banks[w.bank])[index.toNat]'(by have := index.isLt; omega) * w.fade + 32) / 64))) ∧
  (∀ k f : Nat, k ≤ 64 → f ≤ 64 →
    keyScale k f ≤ k ∧ keyScale k f ≤ f ∧ keyScale k 64 = k ∧ keyScale 64 f = f)

/-! ## The key banks -/

/-- R150, R157, R158: a key bank changes at no command but POWER_ON and a field boundary that finds a READY
load for it, not protected at the working level and, with the guard on, named by no on-air INDEX
window; then it becomes the shadow, and the loader is IDLE. -/
def Obligations.BanksChangeOnlyBySwaps : Prop :=
  ∀ (c : Instr) (s t : State) (b : Fin 4), exec c s = .next t →
    t.kbl.banks[b] = s.kbl.banks[b] ∨ (∃ straps, c = .powerOn straps) ∨
    (s.tgn.length ≤ s.tgn.line ∧ s.kbl.loader = .ready ∧
      (∃ r, s.kbl.load = some r ∧ r.bank = b) ∧ t.kbl.banks[b] = s.kbl.shadow ∧
      b.val + t.cue.settings.protect < 4 ∧
      (t.cue.settings.guard = true → ∀ i w, t.wsk.stack.slot i = .live w → 0 < w.fade →
        w.mode = .index → w.bank ≠ b) ∧
      t.kbl.loader = .idle ∧ t.kbl.load = none)

/-- R157, R158, R162: the swap test of a boundary at which no cue is executed, whatever the engine's state: it
is not RUNNING, or HOLD is asserted, a start-up load is in flight, or nothing is due. A READY load of a bank
protected at the working level, or with the guard on named by an on-air INDEX window, is held: it counts the
boundary and reports SWAP/HELD the first time, with its reasons and the shallowest such window. Any other
READY load becomes its bank with SWAP/DONE, and the bank's old contents are kept while dots of the ended
field are still to be keyed (R150). Without a READY load nothing changes. -/
def Obligations.SwapTestDecides : Prop :=
  ∀ (x : LineInputs) (s : State), s.tgn.length ≤ s.tgn.line →
    s.cue.engine ≠ .running ∨ s.cue.startup = true ∨ x.hold = true ∨
      (s.cue.due = [] ∧ s.cue.idle = none) →
    ∃ t, exec (.lineEnd x) s = .next t ∧
      (s.kbl.loader ≠ .ready → t.kbl = { s.kbl with replaced := none }) ∧
      (∀ r, s.kbl.loader = .ready → s.kbl.load = some r →
        let level := s.cue.settings.protect
        let guarded (i : Fin 8) : Prop :=
          ∃ w, t.wsk.stack.slot i = .live w ∧ 0 < w.fade ∧ w.mode = .index ∧ w.bank = r.bank
        let prot : Prop := 4 ≤ r.bank.val + level
        let guard : Prop := s.cue.settings.guard = true ∧ ∃ i, guarded i
        (prot ∨ guard →
          t.kbl = { s.kbl with
            load := some { r with held := min 65535 (r.held + 1), heldRep := true }, replaced := none } ∧
          (s.rpw.fifo = [] → r.heldRep = false →
            ∃ y ∈ t.rpw.fifo, ∃ p g : Nat, y.report =
              { w0 := 0x0802#16, stamp := s.tgn.stamp + 1, tag := r.tag
                w4 := BitVec.ofNat 16 (r.bank.val + 4 * p + 8 * g + 16 * level), w5 := y.report.w5 } ∧
              (p = 1 ∧ prot ∨ p = 0 ∧ ¬prot) ∧ (g = 1 ∧ guard ∨ g = 0 ∧ ¬guard) ∧
              (¬guard → y.report.w5 = 0xffff#16) ∧
              (∀ i, guard → guarded i → (∀ j, j < i → ¬guarded j) →
                y.report.w5 = BitVec.ofNat 16 i.val)) ∧
          (s.rpw.fifo = [] → r.heldRep = true → ∀ y ∈ t.rpw.fifo, y.report.w0 ≠ 0x0802#16)) ∧
        (¬prot → ¬guard →
          t.kbl.loader = .idle ∧ t.kbl.load = none ∧
          (∀ b : Fin 4, t.kbl.banks[b] = if b = r.bank then s.kbl.shadow else s.kbl.banks[b]) ∧
          (s.tgn.drives = [] → t.kbl.replaced = none) ∧
          (s.tgn.drives ≠ [] → t.kbl.replaced = some ⟨r.bank, s.kbl.banks[r.bank]⟩) ∧
          (s.rpw.fifo = [] → ∃ y ∈ t.rpw.fifo, y.report =
            { w0 := 0x0801#16, stamp := s.tgn.stamp + 1, tag := r.tag
              w4 := BitVec.ofNat 16 (r.bank.val + 256 * r.start), w5 := BitVec.ofNat 16 r.count
              w6 := BitVec.ofNat 16 r.saturated, w7 := BitVec.ofNat 16 r.held })))

/-! ## The pins and the state summary -/

/-- R68, R69, R71, R73, R74, R76, R126, R146, R178: the output pins, what port 1 reads as, and the identity word
of port 3: revision 1, the two strap decodes and the strap-done flag. HS lasts 169 ticks from the line start, VS
the lines 1 to 3, FIELD is high in field 2, BLANK is low in the active span of the lines below the blanked ones
alone; KEY ends with the active span it was driven in; LOCK follows its mode and each OUT line its own; KEYING
is on while some window is LIVE with fade above 0. -/
def Obligations.PinsFollowTheState : Prop :=
  ∀ s : State,
    let ticks := (s.rfe.tick - s.tgn.lineStart).toNat
    let first : Nat := if s.tgn.lineStd = .s625 then 378 else 340
    let blanked : Nat := if s.tgn.lineStd = .s625 then 23 else 20
    let locked : Prop := s.lll.loop = .track ∨ s.lll.loop = .coast
    let lock : Prop := locked ∧ (s.cue.settings.lockMode = .strict → s.fal.field = .lock)
    let keying : Prop := ∃ i w, s.wsk.stack.slot i = .live w ∧ 0 < w.fade
    let out (mode : OutMode) (level : Bool) : Prop :=
      (mode = .cue ∧ level = true) ∨ (mode = .lock ∧ lock) ∨ (mode = .keying ∧ keying) ∨
        (mode = .field ∧ s.tgn.line = 1 ∧ s.tgn.parity = .one)
    (s.hs = true ↔ ticks < 169) ∧ (s.vs = true ↔ s.tgn.line ≤ 3) ∧
    (s.fieldPin = true ↔ s.tgn.parity = .two) ∧
    (s.blank = false ↔ first ≤ ticks ∧ ticks < first + 1800 ∧ blanked < s.tgn.line) ∧
    ((s.rfe.tick - s.tgn.keyUntil).toInt < 0 → s.keyPin = s.tgn.key) ∧
    (0 ≤ (s.rfe.tick - s.tgn.keyUntil).toInt → s.keyPin = 0) ∧
    (s.lockPin = true ↔ lock) ∧ (s.wsk.stack.keying = true ↔ keying) ∧
    (s.out1Pin = true ↔ out s.cue.settings.out1Mode s.tgn.out1) ∧
    (s.out2Pin = true ↔ out s.cue.settings.out2Mode s.tgn.out2) ∧
    (s.identity.toNat % 16 = 1 ∧ s.identity.extractLsb' 4 2 = s.tgn.straps.standard ∧
      s.identity.extractLsb' 6 2 = s.tgn.straps.test ∧ s.identity.extractLsb' 8 7 = 0 ∧
      s.identity.getLsbD 15 = s.tgn.strapDone) ∧
    (s.rpw.fifo.length ≤ 8 →
      (s.summary.toNat % 16 =
        match s.cue.engine with
        | .stopped => 0
        | .running => if s.cue.startup then 1 else 2
        | .waiting => 3
        | .held => 4
        | .halted => match s.cue.haltReason with
          | some .link => 6 | some .memory => 7
          | some (.fault f) => (match f with
            | .badCue => 8 | .late => 9 | .prot => 10 | .stackOver => 11 | .stackUnder => 12
            | .range => 13 | .busy => 14)
          | _ => 5) ∧
      s.summary.getLsbD 4 = s.cue.linkValid ∧ s.summary.getLsbD 5 = s.cue.wait.isSome ∧
      s.summary.getLsbD 6 = s.cue.deferral.isSome ∧ s.summary.getLsbD 7 = s.rpw.enabled ∧
      s.summary.getLsbD 8 = s.irq ∧ s.summary.getLsbD 9 = s.rpw.gapPending ∧
      s.summary.getLsbD 10 = s.rpw.suspended ∧ s.summary.getLsbD 11 = s.rpw.fullWait ∧
      s.summary.toNat / 4096 = s.rpw.fifo.length)

/-! ## Invariants -/

/-- Reset meets every invariant; the parts are the ranges that R13, R20, R21, R33, R46, R50, R55, R64, R89,
R106, R127, R138, R145, R150, R164, R166 and R190 give, and the canonical form of main memory (assumption
log 7, DESIGN CHOICE). -/
def Obligations.ResetMeetsTheInvariant : Prop := State.reset.Inv

/-- Every step keeps main memory in its canonical form, which is assumption log 7 (DESIGN CHOICE).
R127, R138, R145, R150: every step keeps every fade and every bank entry within 0..64, with a finished
fade at its target, and the level on KEY within 0..64. -/
def Obligations.StepKeepsMemoryAndLevels : Prop :=
  (∀ s t : State, s.mem.wf → step s = .next t → t.mem.wf) ∧
  (∀ s t : State, s.KeyOk → step s = .next t → t.KeyOk)

/-- R13, R14, R20, R21, R25, R33, R46, R50, R51, R55, R64, R89, R90, R106, R164 to R166, R190: every step keeps
the working settings within their table, P in the pull range and at the nominal in FREE, the offsets within
half a line, the line within its field, at most 63 drives to come with their edges still ahead, at most 16
copies due, and the counts that State.Inv names within their ranges, with main memory in its canonical form
(assumption log 7, DESIGN CHOICE). -/
def Obligations.StepKeepsTheRanges : Prop :=
  ∀ s t : State, s.Inv → step s = .next t → t.Inv
end

