-- ==== Sys2Proof/Laws/State.lean ====
section
/-!
SUPPORT. Each update of one part of the state leaves every other part as it was: one lemma per shared
operation, whose conjuncts `simp` uses one by one.
-/

namespace Sys2Proof.Machine

@[simp] theorem State.atTick_frame (t : Tick) (s : State) :
    (s.atTick t).lll = s.lll ∧ (s.atTick t).fal = s.fal ∧ (s.atTick t).tgn = s.tgn ∧
    (s.atTick t).mpt = s.mpt ∧ (s.atTick t).cue = s.cue ∧ (s.atTick t).wsk = s.wsk ∧
    (s.atTick t).kbl = s.kbl ∧ (s.atTick t).rpw = s.rpw ∧ (s.atTick t).tst = s.tst ∧
    (s.atTick t).mem = s.mem ∧ (s.atTick t).pins = s.pins ∧ (s.atTick t).readData = s.readData ∧
    (s.atTick t).draw = s.draw ∧ (s.atTick t).pending = s.pending := by
  simp [State.atTick]

@[simp] theorem State.setInput_frame (i : Input) (r : RefInput) (s : State) :
    (s.setInput i r).lll = s.lll ∧ (s.setInput i r).fal = s.fal ∧ (s.setInput i r).tgn = s.tgn ∧
    (s.setInput i r).mpt = s.mpt ∧ (s.setInput i r).cue = s.cue ∧ (s.setInput i r).wsk = s.wsk ∧
    (s.setInput i r).kbl = s.kbl ∧ (s.setInput i r).rpw = s.rpw ∧ (s.setInput i r).tst = s.tst ∧
    (s.setInput i r).mem = s.mem ∧ (s.setInput i r).pins = s.pins ∧
    (s.setInput i r).readData = s.readData ∧ (s.setInput i r).draw = s.draw ∧
    (s.setInput i r).pending = s.pending := by
  unfold State.setInput; split <;> simp

@[simp] theorem produce_frame (r : Report) (s : State) :
    (produce r s).rfe = s.rfe ∧ (produce r s).lll = s.lll ∧ (produce r s).fal = s.fal ∧
    (produce r s).tgn = s.tgn ∧ (produce r s).mpt = s.mpt ∧ (produce r s).cue = s.cue ∧
    (produce r s).wsk = s.wsk ∧ (produce r s).kbl = s.kbl ∧ (produce r s).tst = s.tst ∧
    (produce r s).mem = s.mem ∧ (produce r s).pins = s.pins ∧ (produce r s).readData = s.readData ∧
    (produce r s).draw = s.draw ∧ (produce r s).pending = s.pending := by
  simp [produce]

@[simp] theorem produceAll_frame (rs : List Report) (s : State) :
    (produceAll rs s).rfe = s.rfe ∧ (produceAll rs s).lll = s.lll ∧ (produceAll rs s).fal = s.fal ∧
    (produceAll rs s).tgn = s.tgn ∧ (produceAll rs s).mpt = s.mpt ∧ (produceAll rs s).cue = s.cue ∧
    (produceAll rs s).wsk = s.wsk ∧ (produceAll rs s).kbl = s.kbl ∧ (produceAll rs s).tst = s.tst ∧
    (produceAll rs s).mem = s.mem ∧ (produceAll rs s).pins = s.pins ∧
    (produceAll rs s).readData = s.readData ∧ (produceAll rs s).draw = s.draw ∧
    (produceAll rs s).pending = s.pending := by
  induction rs generalizing s with
  | nil => simp [produceAll]
  | cons r t ih => simp [produceAll, ih]

@[simp] theorem latch_frame (c : Cause) (s : State) :
    (latch c s).rfe = s.rfe ∧ (latch c s).lll = s.lll ∧ (latch c s).fal = s.fal ∧
    (latch c s).tgn = s.tgn ∧ (latch c s).mpt = s.mpt ∧ (latch c s).cue = s.cue ∧
    (latch c s).wsk = s.wsk ∧ (latch c s).kbl = s.kbl ∧ (latch c s).tst = s.tst ∧
    (latch c s).mem = s.mem ∧ (latch c s).pins = s.pins ∧ (latch c s).readData = s.readData ∧
    (latch c s).draw = s.draw ∧ (latch c s).pending = s.pending := by
  simp [latch]

@[simp] theorem ackBits_frame (a b : Bool) (s : State) :
    (ackBits a b s).rfe = s.rfe ∧ (ackBits a b s).lll = s.lll ∧ (ackBits a b s).fal = s.fal ∧
    (ackBits a b s).tgn = s.tgn ∧ (ackBits a b s).mpt = s.mpt ∧ (ackBits a b s).cue = s.cue ∧
    (ackBits a b s).wsk = s.wsk ∧ (ackBits a b s).kbl = s.kbl ∧ (ackBits a b s).tst = s.tst ∧
    (ackBits a b s).mem = s.mem ∧ (ackBits a b s).pins = s.pins ∧
    (ackBits a b s).readData = s.readData ∧ (ackBits a b s).draw = s.draw ∧
    (ackBits a b s).pending = s.pending := by
  unfold ackBits; (repeat' split) <;> simp

end Sys2Proof.Machine
end

