-- ==== Sys2Proof/Laws/Blocks.lean ====
section
/-!
SUPPORT. What the operations of the blocks leave as it was (spec/00_scope.md "Each block owns its own state").
-/

namespace Sys2Proof.Machine

@[simp] theorem State.withLoop_frame (r : Lll × List Report) (s : State) :
    (s.withLoop r).rfe = s.rfe ∧ (s.withLoop r).fal = s.fal ∧ (s.withLoop r).tgn = s.tgn ∧
    (s.withLoop r).mpt = s.mpt ∧ (s.withLoop r).cue = s.cue ∧ (s.withLoop r).wsk = s.wsk ∧
    (s.withLoop r).kbl = s.kbl ∧ (s.withLoop r).tst = s.tst ∧ (s.withLoop r).mem = s.mem ∧
    (s.withLoop r).pins = s.pins ∧ (s.withLoop r).readData = s.readData ∧
    (s.withLoop r).draw = s.draw ∧ (s.withLoop r).pending = s.pending := by
  simp [State.withLoop]

@[simp] theorem falSeek_frame (w : LostReason) (s : State) :
    (falSeek w s).rfe = s.rfe ∧ (falSeek w s).lll = s.lll ∧ (falSeek w s).tgn = s.tgn ∧
    (falSeek w s).mpt = s.mpt ∧ (falSeek w s).cue = s.cue ∧ (falSeek w s).wsk = s.wsk ∧
    (falSeek w s).kbl = s.kbl ∧ (falSeek w s).tst = s.tst ∧ (falSeek w s).mem = s.mem ∧
    (falSeek w s).pins = s.pins ∧ (falSeek w s).readData = s.readData ∧ (falSeek w s).draw = s.draw ∧
    (falSeek w s).pending = s.pending := by
  simp [falSeek]

@[simp] theorem missCheck_frame (s : State) :
    (missCheck s).rfe = s.rfe ∧ (missCheck s).lll = s.lll ∧ (missCheck s).tgn = s.tgn ∧
    (missCheck s).mpt = s.mpt ∧ (missCheck s).cue = s.cue ∧ (missCheck s).wsk = s.wsk ∧
    (missCheck s).kbl = s.kbl ∧ (missCheck s).tst = s.tst ∧ (missCheck s).mem = s.mem ∧
    (missCheck s).pins = s.pins ∧ (missCheck s).readData = s.readData ∧ (missCheck s).draw = s.draw ∧
    (missCheck s).pending = s.pending := by
  unfold missCheck; (repeat' split) <;> simp

@[simp] theorem vOffsetChange_frame (o : Nat) (s : State) :
    (vOffsetChange o s).rfe = s.rfe ∧ (vOffsetChange o s).lll = s.lll ∧
    (vOffsetChange o s).tgn = s.tgn ∧ (vOffsetChange o s).mpt = s.mpt ∧
    (vOffsetChange o s).cue = s.cue ∧ (vOffsetChange o s).wsk = s.wsk ∧
    (vOffsetChange o s).kbl = s.kbl ∧ (vOffsetChange o s).tst = s.tst ∧
    (vOffsetChange o s).mem = s.mem ∧ (vOffsetChange o s).pins = s.pins ∧
    (vOffsetChange o s).readData = s.readData ∧ (vOffsetChange o s).draw = s.draw ∧
    (vOffsetChange o s).pending = s.pending := by
  unfold vOffsetChange; split <;> simp

@[simp] theorem broadArrival_frame (e : Pu) (s : State) :
    (broadArrival e s).rfe = s.rfe ∧ (broadArrival e s).lll = s.lll ∧ (broadArrival e s).mpt = s.mpt ∧
    (broadArrival e s).cue = s.cue ∧ (broadArrival e s).wsk = s.wsk ∧ (broadArrival e s).kbl = s.kbl ∧
    (broadArrival e s).tst = s.tst ∧ (broadArrival e s).mem = s.mem ∧
    (broadArrival e s).pins = s.pins ∧ (broadArrival e s).readData = s.readData ∧
    (broadArrival e s).draw = s.draw ∧ (broadArrival e s).pending = s.pending := by
  unfold broadArrival; (repeat' split) <;> simp

@[simp] theorem falBoundary_frame (s : State) :
    (falBoundary s).rfe = s.rfe ∧ (falBoundary s).lll = s.lll ∧ (falBoundary s).mpt = s.mpt ∧
    (falBoundary s).cue = s.cue ∧ (falBoundary s).wsk = s.wsk ∧ (falBoundary s).kbl = s.kbl ∧
    (falBoundary s).rpw = s.rpw ∧ (falBoundary s).tst = s.tst ∧ (falBoundary s).mem = s.mem ∧
    (falBoundary s).pins = s.pins ∧ (falBoundary s).readData = s.readData ∧
    (falBoundary s).draw = s.draw ∧ (falBoundary s).pending = s.pending := by
  simp [falBoundary]

@[simp] theorem tstWatch_frame (s : State) :
    (tstWatch s).rfe = s.rfe ∧ (tstWatch s).lll = s.lll ∧ (tstWatch s).fal = s.fal ∧
    (tstWatch s).tgn = s.tgn ∧ (tstWatch s).mpt = s.mpt ∧ (tstWatch s).cue = s.cue ∧
    (tstWatch s).wsk = s.wsk ∧ (tstWatch s).kbl = s.kbl ∧ (tstWatch s).mem = s.mem ∧
    (tstWatch s).pins = s.pins ∧ (tstWatch s).readData = s.readData ∧ (tstWatch s).draw = s.draw ∧
    (tstWatch s).pending = s.pending := by
  unfold tstWatch; (repeat' split) <;> simp

@[simp] theorem lineArrival_frame (e : Pu) (t : Tick) (s : State) :
    (lineArrival e t s).rfe = s.rfe ∧ (lineArrival e t s).fal = s.fal ∧
    (lineArrival e t s).tgn = s.tgn ∧ (lineArrival e t s).mpt = s.mpt ∧
    (lineArrival e t s).cue = s.cue ∧ (lineArrival e t s).wsk = s.wsk ∧
    (lineArrival e t s).kbl = s.kbl ∧ (lineArrival e t s).mem = s.mem ∧
    (lineArrival e t s).pins = s.pins ∧ (lineArrival e t s).readData = s.readData ∧
    (lineArrival e t s).draw = s.draw ∧ (lineArrival e t s).pending = s.pending := by
  simp [lineArrival]

@[simp] theorem broadPulse_frame (e : Pu) (s : State) :
    (broadPulse e s).rfe = s.rfe ∧ (broadPulse e s).lll = s.lll ∧ (broadPulse e s).mpt = s.mpt ∧
    (broadPulse e s).cue = s.cue ∧ (broadPulse e s).wsk = s.wsk ∧ (broadPulse e s).kbl = s.kbl ∧
    (broadPulse e s).mem = s.mem ∧ (broadPulse e s).pins = s.pins ∧
    (broadPulse e s).readData = s.readData ∧ (broadPulse e s).draw = s.draw ∧
    (broadPulse e s).pending = s.pending := by
  simp [broadPulse]

@[simp] theorem slicerRestart_frame (s : State) :
    (slicerRestart s).lll = s.lll ∧ (slicerRestart s).fal = s.fal ∧ (slicerRestart s).tgn = s.tgn ∧
    (slicerRestart s).mpt = s.mpt ∧ (slicerRestart s).cue = s.cue ∧ (slicerRestart s).wsk = s.wsk ∧
    (slicerRestart s).kbl = s.kbl ∧ (slicerRestart s).rpw = s.rpw ∧ (slicerRestart s).tst = s.tst ∧
    (slicerRestart s).mem = s.mem ∧ (slicerRestart s).pins = s.pins ∧
    (slicerRestart s).readData = s.readData ∧ (slicerRestart s).draw = s.draw ∧
    (slicerRestart s).pending = s.pending := by
  simp [slicerRestart]

@[simp] theorem sourceNotice_frame (s : State) :
    (sourceNotice s).rfe = s.rfe ∧ (sourceNotice s).tgn = s.tgn ∧ (sourceNotice s).mpt = s.mpt ∧
    (sourceNotice s).cue = s.cue ∧ (sourceNotice s).wsk = s.wsk ∧ (sourceNotice s).kbl = s.kbl ∧
    (sourceNotice s).tst = s.tst ∧ (sourceNotice s).mem = s.mem ∧ (sourceNotice s).pins = s.pins ∧
    (sourceNotice s).readData = s.readData ∧ (sourceNotice s).draw = s.draw ∧
    (sourceNotice s).pending = s.pending := by
  simp [sourceNotice]

@[simp] theorem changeActive_frame (i : Input) (w : SwitchReason) (s : State) :
    (changeActive i w s).tgn = s.tgn ∧ (changeActive i w s).mpt = s.mpt ∧
    (changeActive i w s).cue = s.cue ∧ (changeActive i w s).wsk = s.wsk ∧
    (changeActive i w s).kbl = s.kbl ∧ (changeActive i w s).tst = s.tst ∧
    (changeActive i w s).mem = s.mem ∧ (changeActive i w s).pins = s.pins ∧
    (changeActive i w s).readData = s.readData ∧ (changeActive i w s).draw = s.draw ∧
    (changeActive i w s).pending = s.pending := by
  simp [changeActive]

@[simp] theorem changeStandard_frame (d : Standard) (b : Bool) (s : State) :
    (changeStandard d b s).tgn = s.tgn ∧ (changeStandard d b s).mpt = s.mpt ∧
    (changeStandard d b s).cue = s.cue ∧ (changeStandard d b s).wsk = s.wsk ∧
    (changeStandard d b s).kbl = s.kbl ∧ (changeStandard d b s).tst = s.tst ∧
    (changeStandard d b s).mem = s.mem ∧ (changeStandard d b s).pins = s.pins ∧
    (changeStandard d b s).readData = s.readData ∧ (changeStandard d b s).draw = s.draw ∧
    (changeStandard d b s).pending = s.pending := by
  simp [changeStandard]

@[simp] theorem policyArrival_frame (o n : Policy) (s : State) :
    (policyArrival o n s).tgn = s.tgn ∧ (policyArrival o n s).mpt = s.mpt ∧
    (policyArrival o n s).cue = s.cue ∧ (policyArrival o n s).wsk = s.wsk ∧
    (policyArrival o n s).kbl = s.kbl ∧ (policyArrival o n s).tst = s.tst ∧
    (policyArrival o n s).mem = s.mem ∧ (policyArrival o n s).pins = s.pins ∧
    (policyArrival o n s).readData = s.readData ∧ (policyArrival o n s).draw = s.draw ∧
    (policyArrival o n s).pending = s.pending := by
  unfold policyArrival; (repeat' split) <;> simp

@[simp] theorem stdModeLoad_frame (o n : StdMode) (s : State) :
    (stdModeLoad o n s).tgn = s.tgn ∧ (stdModeLoad o n s).mpt = s.mpt ∧
    (stdModeLoad o n s).cue = s.cue ∧ (stdModeLoad o n s).wsk = s.wsk ∧
    (stdModeLoad o n s).kbl = s.kbl ∧ (stdModeLoad o n s).tst = s.tst ∧
    (stdModeLoad o n s).mem = s.mem ∧ (stdModeLoad o n s).pins = s.pins ∧
    (stdModeLoad o n s).readData = s.readData ∧ (stdModeLoad o n s).draw = s.draw ∧
    (stdModeLoad o n s).pending = s.pending := by
  simp only [stdModeLoad]; (repeat' split) <;> simp

@[simp] theorem produceLost_frame (i : Input) (s : State) :
    (produceLost i s).lll = s.lll ∧ (produceLost i s).fal = s.fal ∧ (produceLost i s).tgn = s.tgn ∧
    (produceLost i s).mpt = s.mpt ∧ (produceLost i s).cue = s.cue ∧ (produceLost i s).wsk = s.wsk ∧
    (produceLost i s).kbl = s.kbl ∧ (produceLost i s).tst = s.tst ∧ (produceLost i s).mem = s.mem ∧
    (produceLost i s).pins = s.pins ∧ (produceLost i s).readData = s.readData ∧
    (produceLost i s).draw = s.draw ∧ (produceLost i s).pending = s.pending := by
  simp [produceLost]

@[simp] theorem windowReports_frame (i : Input) (b : Bool) (s : State) :
    (windowReports i b s).lll = s.lll ∧ (windowReports i b s).fal = s.fal ∧
    (windowReports i b s).tgn = s.tgn ∧ (windowReports i b s).mpt = s.mpt ∧
    (windowReports i b s).cue = s.cue ∧ (windowReports i b s).wsk = s.wsk ∧
    (windowReports i b s).kbl = s.kbl ∧ (windowReports i b s).tst = s.tst ∧
    (windowReports i b s).mem = s.mem ∧ (windowReports i b s).pins = s.pins ∧
    (windowReports i b s).readData = s.readData ∧ (windowReports i b s).draw = s.draw ∧
    (windowReports i b s).pending = s.pending := by
  simp only [windowReports]; (repeat' split) <;> simp

@[simp] theorem windowPolicy_frame (s : State) :
    (windowPolicy s).tgn = s.tgn ∧ (windowPolicy s).mpt = s.mpt ∧ (windowPolicy s).cue = s.cue ∧
    (windowPolicy s).wsk = s.wsk ∧ (windowPolicy s).kbl = s.kbl ∧ (windowPolicy s).tst = s.tst ∧
    (windowPolicy s).mem = s.mem ∧ (windowPolicy s).pins = s.pins ∧
    (windowPolicy s).readData = s.readData ∧ (windowPolicy s).draw = s.draw ∧
    (windowPolicy s).pending = s.pending := by
  simp only [windowPolicy]; (repeat' split) <;> simp

@[simp] theorem windowStandard_frame (s : State) :
    (windowStandard s).tgn = s.tgn ∧ (windowStandard s).mpt = s.mpt ∧ (windowStandard s).cue = s.cue ∧
    (windowStandard s).wsk = s.wsk ∧ (windowStandard s).kbl = s.kbl ∧ (windowStandard s).tst = s.tst ∧
    (windowStandard s).mem = s.mem ∧ (windowStandard s).pins = s.pins ∧
    (windowStandard s).readData = s.readData ∧ (windowStandard s).draw = s.draw ∧
    (windowStandard s).pending = s.pending := by
  simp only [windowStandard]; (repeat' split) <;> simp

@[simp] theorem windowJudge_frame (s : State) :
    (windowJudge s).lll = s.lll ∧ (windowJudge s).fal = s.fal ∧ (windowJudge s).tgn = s.tgn ∧
    (windowJudge s).mpt = s.mpt ∧ (windowJudge s).cue = s.cue ∧ (windowJudge s).wsk = s.wsk ∧
    (windowJudge s).kbl = s.kbl ∧ (windowJudge s).rpw = s.rpw ∧ (windowJudge s).tst = s.tst ∧
    (windowJudge s).mem = s.mem ∧ (windowJudge s).pins = s.pins ∧
    (windowJudge s).readData = s.readData ∧ (windowJudge s).draw = s.draw ∧
    (windowJudge s).pending = s.pending := by
  simp [windowJudge]

@[simp] theorem windowWork_frame (s : State) :
    (windowWork s).tgn = s.tgn ∧ (windowWork s).mpt = s.mpt ∧ (windowWork s).cue = s.cue ∧
    (windowWork s).wsk = s.wsk ∧ (windowWork s).kbl = s.kbl ∧ (windowWork s).tst = s.tst ∧
    (windowWork s).mem = s.mem ∧ (windowWork s).pins = s.pins ∧ (windowWork s).readData = s.readData ∧
    (windowWork s).draw = s.draw ∧ (windowWork s).pending = s.pending := by
  simp [windowWork]

@[simp] theorem postCue_frame (r : Request) (s : State) :
    (postCue r s).rfe = s.rfe ∧ (postCue r s).lll = s.lll ∧ (postCue r s).fal = s.fal ∧
    (postCue r s).tgn = s.tgn ∧ (postCue r s).cue = s.cue ∧ (postCue r s).wsk = s.wsk ∧
    (postCue r s).kbl = s.kbl ∧ (postCue r s).rpw = s.rpw ∧ (postCue r s).tst = s.tst ∧
    (postCue r s).mem = s.mem ∧ (postCue r s).pins = s.pins ∧ (postCue r s).readData = s.readData ∧
    (postCue r s).draw = s.draw ∧ (postCue r s).pending = s.pending := by
  simp [postCue]

@[simp] theorem postTake_frame (s : State) :
    (postTake s).rfe = s.rfe ∧ (postTake s).lll = s.lll ∧ (postTake s).fal = s.fal ∧
    (postTake s).tgn = s.tgn ∧ (postTake s).cue = s.cue ∧ (postTake s).wsk = s.wsk ∧
    (postTake s).kbl = s.kbl ∧ (postTake s).rpw = s.rpw ∧ (postTake s).tst = s.tst ∧
    (postTake s).mem = s.mem ∧ (postTake s).pins = s.pins ∧ (postTake s).readData = s.readData ∧
    (postTake s).draw = s.draw ∧ (postTake s).pending = s.pending := by
  unfold postTake; split <;> simp

@[simp] theorem postKey_frame (a : Nat) (s : State) :
    (postKey a s).rfe = s.rfe ∧ (postKey a s).lll = s.lll ∧ (postKey a s).fal = s.fal ∧
    (postKey a s).tgn = s.tgn ∧ (postKey a s).cue = s.cue ∧ (postKey a s).wsk = s.wsk ∧
    (postKey a s).kbl = s.kbl ∧ (postKey a s).rpw = s.rpw ∧ (postKey a s).tst = s.tst ∧
    (postKey a s).mem = s.mem ∧ (postKey a s).pins = s.pins ∧ (postKey a s).readData = s.readData ∧
    (postKey a s).draw = s.draw ∧ (postKey a s).pending = s.pending := by
  simp [postKey]

@[simp] theorem postReport_frame (r : Request) (s : State) :
    (postReport r s).rfe = s.rfe ∧ (postReport r s).lll = s.lll ∧ (postReport r s).fal = s.fal ∧
    (postReport r s).tgn = s.tgn ∧ (postReport r s).cue = s.cue ∧ (postReport r s).wsk = s.wsk ∧
    (postReport r s).kbl = s.kbl ∧ (postReport r s).rpw = s.rpw ∧ (postReport r s).tst = s.tst ∧
    (postReport r s).mem = s.mem ∧ (postReport r s).pins = s.pins ∧
    (postReport r s).readData = s.readData ∧ (postReport r s).draw = s.draw ∧
    (postReport r s).pending = s.pending := by
  simp [postReport]

@[simp] theorem postStatus_frame (s : State) :
    (postStatus s).rfe = s.rfe ∧ (postStatus s).lll = s.lll ∧ (postStatus s).fal = s.fal ∧
    (postStatus s).tgn = s.tgn ∧ (postStatus s).cue = s.cue ∧ (postStatus s).wsk = s.wsk ∧
    (postStatus s).kbl = s.kbl ∧ (postStatus s).tst = s.tst ∧ (postStatus s).mem = s.mem ∧
    (postStatus s).pins = s.pins ∧ (postStatus s).readData = s.readData ∧
    (postStatus s).draw = s.draw ∧ (postStatus s).pending = s.pending := by
  unfold postStatus; (repeat' split) <;> simp

@[simp] theorem grant_frame (s : State) :
    (grant s).rfe = s.rfe ∧ (grant s).lll = s.lll ∧ (grant s).fal = s.fal ∧ (grant s).tgn = s.tgn ∧
    (grant s).cue = s.cue ∧ (grant s).wsk = s.wsk ∧ (grant s).kbl = s.kbl ∧ (grant s).rpw = s.rpw ∧
    (grant s).tst = s.tst ∧ (grant s).mem = s.mem ∧ (grant s).pins = s.pins ∧
    (grant s).readData = s.readData ∧ (grant s).draw = s.draw ∧ (grant s).pending = s.pending := by
  unfold grant; (repeat' split) <;> simp

@[simp] theorem freePort_frame (s : State) :
    (freePort s).rfe = s.rfe ∧ (freePort s).lll = s.lll ∧ (freePort s).fal = s.fal ∧
    (freePort s).tgn = s.tgn ∧ (freePort s).cue = s.cue ∧ (freePort s).wsk = s.wsk ∧
    (freePort s).kbl = s.kbl ∧ (freePort s).rpw = s.rpw ∧ (freePort s).tst = s.tst ∧
    (freePort s).mem = s.mem ∧ (freePort s).pins = s.pins ∧ (freePort s).readData = s.readData ∧
    (freePort s).draw = s.draw ∧ (freePort s).pending = s.pending := by
  simp [freePort]

@[simp] theorem openLoad_frame (b : Fin 4) (st c so : Nat) (t : Word) (s : State) :
    (openLoad b st c so t s).rfe = s.rfe ∧ (openLoad b st c so t s).lll = s.lll ∧
    (openLoad b st c so t s).fal = s.fal ∧ (openLoad b st c so t s).tgn = s.tgn ∧
    (openLoad b st c so t s).cue = s.cue ∧ (openLoad b st c so t s).wsk = s.wsk ∧
    (openLoad b st c so t s).rpw = s.rpw ∧ (openLoad b st c so t s).tst = s.tst ∧
    (openLoad b st c so t s).mem = s.mem ∧ (openLoad b st c so t s).pins = s.pins ∧
    (openLoad b st c so t s).readData = s.readData ∧ (openLoad b st c so t s).draw = s.draw ∧
    (openLoad b st c so t s).pending = s.pending := by
  simp [openLoad]

@[simp] theorem closeLoad_frame (s : State) :
    (closeLoad s).rfe = s.rfe ∧ (closeLoad s).lll = s.lll ∧ (closeLoad s).fal = s.fal ∧
    (closeLoad s).tgn = s.tgn ∧ (closeLoad s).cue = s.cue ∧ (closeLoad s).wsk = s.wsk ∧
    (closeLoad s).rpw = s.rpw ∧ (closeLoad s).tst = s.tst ∧ (closeLoad s).mem = s.mem ∧
    (closeLoad s).pins = s.pins ∧ (closeLoad s).readData = s.readData ∧ (closeLoad s).draw = s.draw ∧
    (closeLoad s).pending = s.pending := by
  simp [closeLoad]

@[simp] theorem abortLoad_frame (w : AbortReason) (s : State) :
    (abortLoad w s).rfe = s.rfe ∧ (abortLoad w s).lll = s.lll ∧ (abortLoad w s).fal = s.fal ∧
    (abortLoad w s).tgn = s.tgn ∧ (abortLoad w s).cue = s.cue ∧ (abortLoad w s).wsk = s.wsk ∧
    (abortLoad w s).tst = s.tst ∧ (abortLoad w s).mem = s.mem ∧ (abortLoad w s).pins = s.pins ∧
    (abortLoad w s).readData = s.readData ∧ (abortLoad w s).draw = s.draw ∧
    (abortLoad w s).pending = s.pending := by
  unfold abortLoad; split <;> simp

@[simp] theorem abortLoading_frame (w : AbortReason) (s : State) :
    (abortLoading w s).rfe = s.rfe ∧ (abortLoading w s).lll = s.lll ∧ (abortLoading w s).fal = s.fal ∧
    (abortLoading w s).tgn = s.tgn ∧ (abortLoading w s).cue = s.cue ∧ (abortLoading w s).wsk = s.wsk ∧
    (abortLoading w s).tst = s.tst ∧ (abortLoading w s).mem = s.mem ∧
    (abortLoading w s).pins = s.pins ∧ (abortLoading w s).readData = s.readData ∧
    (abortLoading w s).draw = s.draw ∧ (abortLoading w s).pending = s.pending := by
  unfold abortLoading; split <;> simp

@[simp] theorem swapTest_frame (s : State) :
    (swapTest s).rfe = s.rfe ∧ (swapTest s).lll = s.lll ∧ (swapTest s).fal = s.fal ∧
    (swapTest s).tgn = s.tgn ∧ (swapTest s).mpt = s.mpt ∧ (swapTest s).cue = s.cue ∧
    (swapTest s).wsk = s.wsk ∧ (swapTest s).tst = s.tst ∧ (swapTest s).mem = s.mem ∧
    (swapTest s).pins = s.pins ∧ (swapTest s).readData = s.readData ∧ (swapTest s).draw = s.draw ∧
    (swapTest s).pending = s.pending := by
  simp only [swapTest]; (repeat' split) <;> simp

@[simp] theorem rpwNext_frame (s : State) :
    (rpwNext s).rfe = s.rfe ∧ (rpwNext s).lll = s.lll ∧ (rpwNext s).fal = s.fal ∧
    (rpwNext s).tgn = s.tgn ∧ (rpwNext s).cue = s.cue ∧ (rpwNext s).wsk = s.wsk ∧
    (rpwNext s).kbl = s.kbl ∧ (rpwNext s).tst = s.tst ∧ (rpwNext s).mem = s.mem ∧
    (rpwNext s).pins = s.pins ∧ (rpwNext s).readData = s.readData ∧ (rpwNext s).draw = s.draw ∧
    (rpwNext s).pending = s.pending := by
  unfold rpwNext; (repeat' split) <;> simp

@[simp] theorem boundaryGet_frame (s : State) :
    (boundaryGet s).rfe = s.rfe ∧ (boundaryGet s).lll = s.lll ∧ (boundaryGet s).fal = s.fal ∧
    (boundaryGet s).tgn = s.tgn ∧ (boundaryGet s).cue = s.cue ∧ (boundaryGet s).wsk = s.wsk ∧
    (boundaryGet s).kbl = s.kbl ∧ (boundaryGet s).tst = s.tst ∧ (boundaryGet s).mem = s.mem ∧
    (boundaryGet s).pins = s.pins ∧ (boundaryGet s).readData = s.readData ∧
    (boundaryGet s).draw = s.draw ∧ (boundaryGet s).pending = s.pending := by
  unfold boundaryGet; split <;> simp

@[simp] theorem writeRecord_frame (s : State) :
    (writeRecord s).rfe = s.rfe ∧ (writeRecord s).lll = s.lll ∧ (writeRecord s).fal = s.fal ∧
    (writeRecord s).tgn = s.tgn ∧ (writeRecord s).cue = s.cue ∧ (writeRecord s).wsk = s.wsk ∧
    (writeRecord s).kbl = s.kbl ∧ (writeRecord s).rpw = s.rpw ∧ (writeRecord s).tst = s.tst ∧
    (writeRecord s).mem = s.mem ∧ (writeRecord s).pins = s.pins ∧
    (writeRecord s).readData = s.readData ∧ (writeRecord s).draw = s.draw ∧
    (writeRecord s).pending = s.pending := by
  unfold writeRecord; (repeat' split) <;> simp

@[simp] theorem putWritten_frame (p : Nat) (s : State) :
    (putWritten p s).rfe = s.rfe ∧ (putWritten p s).lll = s.lll ∧ (putWritten p s).fal = s.fal ∧
    (putWritten p s).tgn = s.tgn ∧ (putWritten p s).mpt = s.mpt ∧ (putWritten p s).cue = s.cue ∧
    (putWritten p s).wsk = s.wsk ∧ (putWritten p s).kbl = s.kbl ∧ (putWritten p s).tst = s.tst ∧
    (putWritten p s).mem = s.mem ∧ (putWritten p s).pins = s.pins ∧
    (putWritten p s).readData = s.readData ∧ (putWritten p s).draw = s.draw ∧
    (putWritten p s).pending = s.pending := by
  unfold putWritten; split <;> simp

@[simp] theorem triggerTest_frame (p : Nat) (s : State) :
    (triggerTest p s).rfe = s.rfe ∧ (triggerTest p s).lll = s.lll ∧ (triggerTest p s).fal = s.fal ∧
    (triggerTest p s).tgn = s.tgn ∧ (triggerTest p s).mpt = s.mpt ∧ (triggerTest p s).cue = s.cue ∧
    (triggerTest p s).wsk = s.wsk ∧ (triggerTest p s).kbl = s.kbl ∧ (triggerTest p s).tst = s.tst ∧
    (triggerTest p s).mem = s.mem ∧ (triggerTest p s).pins = s.pins ∧
    (triggerTest p s).readData = s.readData ∧ (triggerTest p s).draw = s.draw ∧
    (triggerTest p s).pending = s.pending := by
  unfold triggerTest; split <;> simp

@[simp] theorem matchTest_frame (w : Word) (s : State) :
    (matchTest w s).rfe = s.rfe ∧ (matchTest w s).lll = s.lll ∧ (matchTest w s).fal = s.fal ∧
    (matchTest w s).tgn = s.tgn ∧ (matchTest w s).mpt = s.mpt ∧ (matchTest w s).cue = s.cue ∧
    (matchTest w s).wsk = s.wsk ∧ (matchTest w s).kbl = s.kbl ∧ (matchTest w s).tst = s.tst ∧
    (matchTest w s).mem = s.mem ∧ (matchTest w s).pins = s.pins ∧
    (matchTest w s).readData = s.readData ∧ (matchTest w s).draw = s.draw ∧
    (matchTest w s).pending = s.pending := by
  unfold matchTest; split <;> simp

@[simp] theorem reportWritten_frame (r : Report) (g : Bool) (p : Nat) (s : State) :
    (reportWritten r g p s).rfe = s.rfe ∧ (reportWritten r g p s).lll = s.lll ∧
    (reportWritten r g p s).fal = s.fal ∧ (reportWritten r g p s).tgn = s.tgn ∧
    (reportWritten r g p s).cue = s.cue ∧ (reportWritten r g p s).wsk = s.wsk ∧
    (reportWritten r g p s).kbl = s.kbl ∧ (reportWritten r g p s).tst = s.tst ∧
    (reportWritten r g p s).mem = s.mem ∧ (reportWritten r g p s).pins = s.pins ∧
    (reportWritten r g p s).readData = s.readData ∧ (reportWritten r g p s).draw = s.draw ∧
    (reportWritten r g p s).pending = s.pending := by
  simp [reportWritten]

@[simp] theorem getRead_frame (f : Bool) (g t : Nat) (s : State) :
    (getRead f g t s).rfe = s.rfe ∧ (getRead f g t s).lll = s.lll ∧ (getRead f g t s).fal = s.fal ∧
    (getRead f g t s).tgn = s.tgn ∧ (getRead f g t s).cue = s.cue ∧ (getRead f g t s).wsk = s.wsk ∧
    (getRead f g t s).kbl = s.kbl ∧ (getRead f g t s).tst = s.tst ∧ (getRead f g t s).mem = s.mem ∧
    (getRead f g t s).pins = s.pins ∧ (getRead f g t s).readData = s.readData ∧
    (getRead f g t s).draw = s.draw ∧ (getRead f g t s).pending = s.pending := by
  simp only [getRead]; split <;> simp

@[simp] theorem statusCopy_frame (d : Nat) (s : State) :
    (statusCopy d s).rfe = s.rfe ∧ (statusCopy d s).lll = s.lll ∧ (statusCopy d s).fal = s.fal ∧
    (statusCopy d s).tgn = s.tgn ∧ (statusCopy d s).cue = s.cue ∧ (statusCopy d s).wsk = s.wsk ∧
    (statusCopy d s).kbl = s.kbl ∧ (statusCopy d s).tst = s.tst ∧ (statusCopy d s).mem = s.mem ∧
    (statusCopy d s).pins = s.pins ∧ (statusCopy d s).readData = s.readData ∧
    (statusCopy d s).draw = s.draw ∧ (statusCopy d s).pending = s.pending := by
  unfold statusCopy; split <;> simp

@[simp] theorem fieldstat_frame (s : State) :
    (fieldstat s).rfe = s.rfe ∧ (fieldstat s).lll = s.lll ∧ (fieldstat s).fal = s.fal ∧
    (fieldstat s).tgn = s.tgn ∧ (fieldstat s).mpt = s.mpt ∧ (fieldstat s).cue = s.cue ∧
    (fieldstat s).wsk = s.wsk ∧ (fieldstat s).kbl = s.kbl ∧ (fieldstat s).tst = s.tst ∧
    (fieldstat s).mem = s.mem ∧ (fieldstat s).pins = s.pins ∧ (fieldstat s).readData = s.readData ∧
    (fieldstat s).draw = s.draw ∧ (fieldstat s).pending = s.pending := by
  unfold fieldstat; split <;> simp

@[simp] theorem dropWriters_frame (s : State) :
    (dropWriters s).rfe = s.rfe ∧ (dropWriters s).lll = s.lll ∧ (dropWriters s).fal = s.fal ∧
    (dropWriters s).tgn = s.tgn ∧ (dropWriters s).cue = s.cue ∧ (dropWriters s).wsk = s.wsk ∧
    (dropWriters s).kbl = s.kbl ∧ (dropWriters s).tst = s.tst ∧ (dropWriters s).mem = s.mem ∧
    (dropWriters s).pins = s.pins ∧ (dropWriters s).readData = s.readData ∧
    (dropWriters s).draw = s.draw ∧ (dropWriters s).pending = s.pending := by
  simp [dropWriters]

@[simp] theorem enterHalted_frame (w : HaltReason) (s : State) :
    (enterHalted w s).rfe = s.rfe ∧ (enterHalted w s).lll = s.lll ∧ (enterHalted w s).fal = s.fal ∧
    (enterHalted w s).tgn = s.tgn ∧ (enterHalted w s).wsk = s.wsk ∧ (enterHalted w s).kbl = s.kbl ∧
    (enterHalted w s).rpw = s.rpw ∧ (enterHalted w s).tst = s.tst ∧ (enterHalted w s).mem = s.mem ∧
    (enterHalted w s).pins = s.pins ∧ (enterHalted w s).readData = s.readData ∧
    (enterHalted w s).draw = s.draw ∧ (enterHalted w s).pending = s.pending := by
  simp [enterHalted]

@[simp] theorem dropCueRequests_frame (s : State) :
    (dropCueRequests s).rfe = s.rfe ∧ (dropCueRequests s).lll = s.lll ∧
    (dropCueRequests s).fal = s.fal ∧ (dropCueRequests s).tgn = s.tgn ∧
    (dropCueRequests s).cue = s.cue ∧ (dropCueRequests s).wsk = s.wsk ∧
    (dropCueRequests s).kbl = s.kbl ∧ (dropCueRequests s).rpw = s.rpw ∧
    (dropCueRequests s).tst = s.tst ∧ (dropCueRequests s).mem = s.mem ∧
    (dropCueRequests s).pins = s.pins ∧ (dropCueRequests s).readData = s.readData ∧
    (dropCueRequests s).draw = s.draw ∧ (dropCueRequests s).pending = s.pending := by
  simp [dropCueRequests]

@[simp] theorem faultHalt_frame (k : FaultKind) (c : Copy) (s : State) :
    (faultHalt k c s).rfe = s.rfe ∧ (faultHalt k c s).lll = s.lll ∧ (faultHalt k c s).fal = s.fal ∧
    (faultHalt k c s).tgn = s.tgn ∧ (faultHalt k c s).wsk = s.wsk ∧ (faultHalt k c s).kbl = s.kbl ∧
    (faultHalt k c s).tst = s.tst ∧ (faultHalt k c s).mem = s.mem ∧ (faultHalt k c s).pins = s.pins ∧
    (faultHalt k c s).readData = s.readData ∧ (faultHalt k c s).draw = s.draw ∧
    (faultHalt k c s).pending = s.pending := by
  simp [faultHalt]

@[simp] theorem linkFault_frame (t : Word) (b : Bool) (n : Nat) (s : State) :
    (linkFault t b n s).rfe = s.rfe ∧ (linkFault t b n s).lll = s.lll ∧
    (linkFault t b n s).fal = s.fal ∧ (linkFault t b n s).tgn = s.tgn ∧
    (linkFault t b n s).wsk = s.wsk ∧ (linkFault t b n s).tst = s.tst ∧
    (linkFault t b n s).mem = s.mem ∧ (linkFault t b n s).pins = s.pins ∧
    (linkFault t b n s).readData = s.readData ∧ (linkFault t b n s).draw = s.draw ∧
    (linkFault t b n s).pending = s.pending := by
  simp [linkFault]

@[simp] theorem adoptDescriptors_frame (x : Image) (t p : Nat) (s : State) :
    (adoptDescriptors x t p s).rfe = s.rfe ∧ (adoptDescriptors x t p s).lll = s.lll ∧
    (adoptDescriptors x t p s).fal = s.fal ∧ (adoptDescriptors x t p s).tgn = s.tgn ∧
    (adoptDescriptors x t p s).wsk = s.wsk ∧ (adoptDescriptors x t p s).kbl = s.kbl ∧
    (adoptDescriptors x t p s).tst = s.tst ∧ (adoptDescriptors x t p s).mem = s.mem ∧
    (adoptDescriptors x t p s).pins = s.pins ∧ (adoptDescriptors x t p s).readData = s.readData ∧
    (adoptDescriptors x t p s).draw = s.draw ∧ (adoptDescriptors x t p s).pending = s.pending := by
  simp [adoptDescriptors]

@[simp] theorem checkIndices_frame (t : Word) (s : State) :
    (checkIndices t s).rfe = s.rfe ∧ (checkIndices t s).lll = s.lll ∧ (checkIndices t s).fal = s.fal ∧
    (checkIndices t s).tgn = s.tgn ∧ (checkIndices t s).wsk = s.wsk ∧ (checkIndices t s).kbl = s.kbl ∧
    (checkIndices t s).tst = s.tst ∧ (checkIndices t s).mem = s.mem ∧
    (checkIndices t s).pins = s.pins ∧ (checkIndices t s).readData = s.readData ∧
    (checkIndices t s).draw = s.draw ∧ (checkIndices t s).pending = s.pending := by
  simp only [checkIndices]; (repeat' split) <;> simp

@[simp] theorem testModeLoad_frame (m : TestMode) (s : State) :
    (testModeLoad m s).rfe = s.rfe ∧ (testModeLoad m s).tgn = s.tgn ∧ (testModeLoad m s).mpt = s.mpt ∧
    (testModeLoad m s).cue = s.cue ∧ (testModeLoad m s).wsk = s.wsk ∧ (testModeLoad m s).kbl = s.kbl ∧
    (testModeLoad m s).mem = s.mem ∧ (testModeLoad m s).pins = s.pins ∧
    (testModeLoad m s).readData = s.readData ∧ (testModeLoad m s).draw = s.draw ∧
    (testModeLoad m s).pending = s.pending := by
  unfold testModeLoad; (repeat' split) <;> simp

@[simp] theorem loadEffects_frame (o : Settings) (s : State) :
    (loadEffects o s).tgn = s.tgn ∧ (loadEffects o s).mpt = s.mpt ∧ (loadEffects o s).cue = s.cue ∧
    (loadEffects o s).wsk = s.wsk ∧ (loadEffects o s).kbl = s.kbl ∧ (loadEffects o s).mem = s.mem ∧
    (loadEffects o s).pins = s.pins ∧ (loadEffects o s).readData = s.readData ∧
    (loadEffects o s).draw = s.draw ∧ (loadEffects o s).pending = s.pending := by
  simp only [loadEffects]; split <;> simp

@[simp] theorem adoptLoad_frame (t : Word) (x : Image) (k p : Nat) (s : State) :
    (adoptLoad t x k p s).tgn = s.tgn ∧ (adoptLoad t x k p s).wsk = s.wsk ∧
    (adoptLoad t x k p s).kbl = s.kbl ∧ (adoptLoad t x k p s).mem = s.mem ∧
    (adoptLoad t x k p s).pins = s.pins ∧ (adoptLoad t x k p s).readData = s.readData ∧
    (adoptLoad t x k p s).draw = s.draw ∧ (adoptLoad t x k p s).pending = s.pending := by
  simp [adoptLoad]

@[simp] theorem startupLoaded_frame (l : Nat) (ws : List Word) (s : State) :
    (startupLoaded l ws s).tgn = s.tgn ∧ (startupLoaded l ws s).wsk = s.wsk ∧
    (startupLoaded l ws s).mem = s.mem ∧ (startupLoaded l ws s).pins = s.pins ∧
    (startupLoaded l ws s).readData = s.readData ∧ (startupLoaded l ws s).draw = s.draw ∧
    (startupLoaded l ws s).pending = s.pending := by
  simp only [startupLoaded]; split <;> simp

@[simp] theorem scanBegin_frame (s : State) :
    (scanBegin s).rfe = s.rfe ∧ (scanBegin s).lll = s.lll ∧ (scanBegin s).fal = s.fal ∧
    (scanBegin s).tgn = s.tgn ∧ (scanBegin s).wsk = s.wsk ∧ (scanBegin s).kbl = s.kbl ∧
    (scanBegin s).rpw = s.rpw ∧ (scanBegin s).tst = s.tst ∧ (scanBegin s).mem = s.mem ∧
    (scanBegin s).pins = s.pins ∧ (scanBegin s).readData = s.readData ∧ (scanBegin s).draw = s.draw ∧
    (scanBegin s).pending = s.pending := by
  unfold scanBegin; split <;> simp

@[simp] theorem postRecord_frame (n : Stamp) (i : Nat) (s : State) :
    (postRecord n i s).rfe = s.rfe ∧ (postRecord n i s).lll = s.lll ∧ (postRecord n i s).fal = s.fal ∧
    (postRecord n i s).tgn = s.tgn ∧ (postRecord n i s).cue = s.cue ∧ (postRecord n i s).wsk = s.wsk ∧
    (postRecord n i s).kbl = s.kbl ∧ (postRecord n i s).rpw = s.rpw ∧ (postRecord n i s).tst = s.tst ∧
    (postRecord n i s).mem = s.mem ∧ (postRecord n i s).pins = s.pins ∧
    (postRecord n i s).readData = s.readData ∧ (postRecord n i s).draw = s.draw ∧
    (postRecord n i s).pending = s.pending := by
  simp [postRecord]

@[simp] theorem fetchNext_frame (n : Stamp) (i : Nat) (s : State) :
    (fetchNext n i s).rfe = s.rfe ∧ (fetchNext n i s).lll = s.lll ∧ (fetchNext n i s).fal = s.fal ∧
    (fetchNext n i s).tgn = s.tgn ∧ (fetchNext n i s).wsk = s.wsk ∧ (fetchNext n i s).kbl = s.kbl ∧
    (fetchNext n i s).rpw = s.rpw ∧ (fetchNext n i s).tst = s.tst ∧ (fetchNext n i s).mem = s.mem ∧
    (fetchNext n i s).pins = s.pins ∧ (fetchNext n i s).readData = s.readData ∧
    (fetchNext n i s).draw = s.draw ∧ (fetchNext n i s).pending = s.pending := by
  unfold fetchNext; split <;> simp

@[simp] theorem fillRead_frame (n : Stamp) (f t : Nat) (s : State) :
    (fillRead n f t s).rfe = s.rfe ∧ (fillRead n f t s).lll = s.lll ∧ (fillRead n f t s).fal = s.fal ∧
    (fillRead n f t s).tgn = s.tgn ∧ (fillRead n f t s).wsk = s.wsk ∧ (fillRead n f t s).kbl = s.kbl ∧
    (fillRead n f t s).tst = s.tst ∧ (fillRead n f t s).mem = s.mem ∧
    (fillRead n f t s).pins = s.pins ∧ (fillRead n f t s).readData = s.readData ∧
    (fillRead n f t s).draw = s.draw ∧ (fillRead n f t s).pending = s.pending := by
  simp only [fillRead]; (repeat' split) <;> simp

@[simp] theorem recordRead_frame (n : Stamp) (i : Nat) (ws : List Word) (s : State) :
    (recordRead n i ws s).rfe = s.rfe ∧ (recordRead n i ws s).lll = s.lll ∧
    (recordRead n i ws s).fal = s.fal ∧ (recordRead n i ws s).tgn = s.tgn ∧
    (recordRead n i ws s).wsk = s.wsk ∧ (recordRead n i ws s).kbl = s.kbl ∧
    (recordRead n i ws s).rpw = s.rpw ∧ (recordRead n i ws s).tst = s.tst ∧
    (recordRead n i ws s).mem = s.mem ∧ (recordRead n i ws s).pins = s.pins ∧
    (recordRead n i ws s).readData = s.readData ∧ (recordRead n i ws s).draw = s.draw ∧
    (recordRead n i ws s).pending = s.pending := by
  simp only [recordRead]; (repeat' split) <;> simp

@[simp] theorem idleRead_frame (ws : List Word) (s : State) :
    (idleRead ws s).rfe = s.rfe ∧ (idleRead ws s).lll = s.lll ∧ (idleRead ws s).fal = s.fal ∧
    (idleRead ws s).tgn = s.tgn ∧ (idleRead ws s).wsk = s.wsk ∧ (idleRead ws s).kbl = s.kbl ∧
    (idleRead ws s).rpw = s.rpw ∧ (idleRead ws s).tst = s.tst ∧ (idleRead ws s).mem = s.mem ∧
    (idleRead ws s).pins = s.pins ∧ (idleRead ws s).readData = s.readData ∧
    (idleRead ws s).draw = s.draw ∧ (idleRead ws s).pending = s.pending := by
  simp only [idleRead]; split <;> simp

@[simp] theorem cueTriggerTest_frame (s : State) :
    (cueTriggerTest s).rfe = s.rfe ∧ (cueTriggerTest s).lll = s.lll ∧ (cueTriggerTest s).fal = s.fal ∧
    (cueTriggerTest s).tgn = s.tgn ∧ (cueTriggerTest s).mpt = s.mpt ∧ (cueTriggerTest s).cue = s.cue ∧
    (cueTriggerTest s).wsk = s.wsk ∧ (cueTriggerTest s).kbl = s.kbl ∧ (cueTriggerTest s).tst = s.tst ∧
    (cueTriggerTest s).mem = s.mem ∧ (cueTriggerTest s).pins = s.pins ∧
    (cueTriggerTest s).readData = s.readData ∧ (cueTriggerTest s).draw = s.draw ∧
    (cueTriggerTest s).pending = s.pending := by
  unfold cueTriggerTest; split <;> simp

@[simp] theorem advanceTake_frame (s : State) :
    (advanceTake s).rfe = s.rfe ∧ (advanceTake s).lll = s.lll ∧ (advanceTake s).fal = s.fal ∧
    (advanceTake s).tgn = s.tgn ∧ (advanceTake s).mpt = s.mpt ∧ (advanceTake s).wsk = s.wsk ∧
    (advanceTake s).kbl = s.kbl ∧ (advanceTake s).tst = s.tst ∧ (advanceTake s).mem = s.mem ∧
    (advanceTake s).pins = s.pins ∧ (advanceTake s).readData = s.readData ∧
    (advanceTake s).draw = s.draw ∧ (advanceTake s).pending = s.pending := by
  simp [advanceTake]

@[simp] theorem writeTake_frame (s : State) :
    (writeTake s).rfe = s.rfe ∧ (writeTake s).lll = s.lll ∧ (writeTake s).fal = s.fal ∧
    (writeTake s).tgn = s.tgn ∧ (writeTake s).cue = s.cue ∧ (writeTake s).wsk = s.wsk ∧
    (writeTake s).kbl = s.kbl ∧ (writeTake s).rpw = s.rpw ∧ (writeTake s).tst = s.tst ∧
    (writeTake s).mem = s.mem ∧ (writeTake s).pins = s.pins ∧ (writeTake s).readData = s.readData ∧
    (writeTake s).draw = s.draw ∧ (writeTake s).pending = s.pending := by
  simp [writeTake]

@[simp] theorem retire_frame (b : Bool) (s : State) :
    (retire b s).rfe = s.rfe ∧ (retire b s).lll = s.lll ∧ (retire b s).fal = s.fal ∧
    (retire b s).tgn = s.tgn ∧ (retire b s).wsk = s.wsk ∧ (retire b s).kbl = s.kbl ∧
    (retire b s).tst = s.tst ∧ (retire b s).mem = s.mem ∧ (retire b s).pins = s.pins ∧
    (retire b s).readData = s.readData ∧ (retire b s).draw = s.draw ∧ (retire b s).pending = s.pending := by
  unfold retire; split <;> simp

@[simp] theorem reportDone_frame (c : CueWords) (s : State) :
    (reportDone c s).rfe = s.rfe ∧ (reportDone c s).lll = s.lll ∧ (reportDone c s).fal = s.fal ∧
    (reportDone c s).tgn = s.tgn ∧ (reportDone c s).mpt = s.mpt ∧ (reportDone c s).cue = s.cue ∧
    (reportDone c s).wsk = s.wsk ∧ (reportDone c s).kbl = s.kbl ∧ (reportDone c s).tst = s.tst ∧
    (reportDone c s).mem = s.mem ∧ (reportDone c s).pins = s.pins ∧
    (reportDone c s).readData = s.readData ∧ (reportDone c s).draw = s.draw ∧
    (reportDone c s).pending = s.pending := by
  unfold reportDone; split <;> simp

end Sys2Proof.Machine
end

