-- ==== Sys2Proof/Laws/Engine.lean ====
section
/-!
SUPPORT. What executing cues leaves as it was: main memory, the pins and the queue always; TGN but for its cue
levels.
-/

set_option linter.all false

namespace Sys2Proof.Machine

@[simp] theorem deferLoad_frame (isIdle : Bool) (c : Copy) (s : State) :
    ((deferLoad isIdle c s).1).rfe = s.rfe ∧ ((deferLoad isIdle c s).1).lll = s.lll ∧
    ((deferLoad isIdle c s).1).fal = s.fal ∧ ((deferLoad isIdle c s).1).tgn = s.tgn ∧
    ((deferLoad isIdle c s).1).mpt = s.mpt ∧ ((deferLoad isIdle c s).1).wsk = s.wsk ∧
    ((deferLoad isIdle c s).1).kbl = s.kbl ∧ ((deferLoad isIdle c s).1).tst = s.tst ∧
    ((deferLoad isIdle c s).1).mem = s.mem ∧ ((deferLoad isIdle c s).1).pins = s.pins ∧
    ((deferLoad isIdle c s).1).readData = s.readData ∧ ((deferLoad isIdle c s).1).draw = s.draw ∧
    ((deferLoad isIdle c s).1).pending = s.pending := by
  simp only [deferLoad, onFault, skipWith, stackUnder, rangeCheck, lockdownCheck, badCue, withStack]; (repeat' split) <;> simp <;> (repeat' split) <;> simp

@[simp] theorem cuePush_frame (c : Copy) (s : State) :
    ((cuePush c s).1).rfe = s.rfe ∧ ((cuePush c s).1).lll = s.lll ∧ ((cuePush c s).1).fal = s.fal ∧
    ((cuePush c s).1).tgn = s.tgn ∧ ((cuePush c s).1).kbl = s.kbl ∧ ((cuePush c s).1).tst = s.tst ∧
    ((cuePush c s).1).mem = s.mem ∧ ((cuePush c s).1).pins = s.pins ∧
    ((cuePush c s).1).readData = s.readData ∧ ((cuePush c s).1).draw = s.draw ∧
    ((cuePush c s).1).pending = s.pending := by
  simp only [cuePush, onFault, skipWith, stackUnder, rangeCheck, lockdownCheck, badCue, withStack]; (repeat' split) <;> simp <;> (repeat' split) <;> simp

@[simp] theorem cuePop_frame (c : Copy) (s : State) :
    ((cuePop c s).1).rfe = s.rfe ∧ ((cuePop c s).1).lll = s.lll ∧ ((cuePop c s).1).fal = s.fal ∧
    ((cuePop c s).1).tgn = s.tgn ∧ ((cuePop c s).1).kbl = s.kbl ∧ ((cuePop c s).1).tst = s.tst ∧
    ((cuePop c s).1).mem = s.mem ∧ ((cuePop c s).1).pins = s.pins ∧
    ((cuePop c s).1).readData = s.readData ∧ ((cuePop c s).1).draw = s.draw ∧
    ((cuePop c s).1).pending = s.pending := by
  simp only [cuePop, onFault, skipWith, stackUnder, rangeCheck, lockdownCheck, badCue, withStack]; (repeat' split) <;> simp <;> (repeat' split) <;> simp

@[simp] theorem cueExch_frame (c : Copy) (s : State) :
    ((cueExch c s).1).rfe = s.rfe ∧ ((cueExch c s).1).lll = s.lll ∧ ((cueExch c s).1).fal = s.fal ∧
    ((cueExch c s).1).tgn = s.tgn ∧ ((cueExch c s).1).kbl = s.kbl ∧ ((cueExch c s).1).tst = s.tst ∧
    ((cueExch c s).1).mem = s.mem ∧ ((cueExch c s).1).pins = s.pins ∧
    ((cueExch c s).1).readData = s.readData ∧ ((cueExch c s).1).draw = s.draw ∧
    ((cueExch c s).1).pending = s.pending := by
  simp only [cueExch, onFault, skipWith, stackUnder, rangeCheck, lockdownCheck, badCue, withStack]; (repeat' split) <;> simp <;> (repeat' split) <;> simp

@[simp] theorem cueDrop_frame (c : Copy) (s : State) :
    ((cueDrop c s).1).rfe = s.rfe ∧ ((cueDrop c s).1).lll = s.lll ∧ ((cueDrop c s).1).fal = s.fal ∧
    ((cueDrop c s).1).tgn = s.tgn ∧ ((cueDrop c s).1).kbl = s.kbl ∧ ((cueDrop c s).1).tst = s.tst ∧
    ((cueDrop c s).1).mem = s.mem ∧ ((cueDrop c s).1).pins = s.pins ∧
    ((cueDrop c s).1).readData = s.readData ∧ ((cueDrop c s).1).draw = s.draw ∧
    ((cueDrop c s).1).pending = s.pending := by
  simp only [cueDrop, onFault, skipWith, stackUnder, rangeCheck, lockdownCheck, badCue, withStack]; (repeat' split) <;> simp <;> (repeat' split) <;> simp

@[simp] theorem cueShow_frame (c : Copy) (s : State) :
    ((cueShow c s).1).rfe = s.rfe ∧ ((cueShow c s).1).lll = s.lll ∧ ((cueShow c s).1).fal = s.fal ∧
    ((cueShow c s).1).tgn = s.tgn ∧ ((cueShow c s).1).kbl = s.kbl ∧ ((cueShow c s).1).tst = s.tst ∧
    ((cueShow c s).1).mem = s.mem ∧ ((cueShow c s).1).pins = s.pins ∧
    ((cueShow c s).1).readData = s.readData ∧ ((cueShow c s).1).draw = s.draw ∧
    ((cueShow c s).1).pending = s.pending := by
  simp only [cueShow, onFault, skipWith, stackUnder, rangeCheck, lockdownCheck, badCue, withStack]; (repeat' split) <;> simp <;> (repeat' split) <;> simp

@[simp] theorem cuePark_frame (c : Copy) (s : State) :
    ((cuePark c s).1).rfe = s.rfe ∧ ((cuePark c s).1).lll = s.lll ∧ ((cuePark c s).1).fal = s.fal ∧
    ((cuePark c s).1).tgn = s.tgn ∧ ((cuePark c s).1).kbl = s.kbl ∧ ((cuePark c s).1).tst = s.tst ∧
    ((cuePark c s).1).mem = s.mem ∧ ((cuePark c s).1).pins = s.pins ∧
    ((cuePark c s).1).readData = s.readData ∧ ((cuePark c s).1).draw = s.draw ∧
    ((cuePark c s).1).pending = s.pending := by
  simp only [cuePark, onFault, skipWith, stackUnder, rangeCheck, lockdownCheck, badCue, withStack]; (repeat' split) <;> simp <;> (repeat' split) <;> simp

@[simp] theorem cueEdit_frame (c : Copy) (s : State) :
    ((cueEdit c s).1).rfe = s.rfe ∧ ((cueEdit c s).1).lll = s.lll ∧ ((cueEdit c s).1).fal = s.fal ∧
    ((cueEdit c s).1).tgn = s.tgn ∧ ((cueEdit c s).1).kbl = s.kbl ∧ ((cueEdit c s).1).tst = s.tst ∧
    ((cueEdit c s).1).mem = s.mem ∧ ((cueEdit c s).1).pins = s.pins ∧
    ((cueEdit c s).1).readData = s.readData ∧ ((cueEdit c s).1).draw = s.draw ∧
    ((cueEdit c s).1).pending = s.pending := by
  simp only [cueEdit, onFault, skipWith, stackUnder, rangeCheck, lockdownCheck, badCue, withStack]; (repeat' split) <;> simp <;> (repeat' split) <;> simp

@[simp] theorem cueFade_frame (c : Copy) (s : State) :
    ((cueFade c s).1).rfe = s.rfe ∧ ((cueFade c s).1).lll = s.lll ∧ ((cueFade c s).1).fal = s.fal ∧
    ((cueFade c s).1).tgn = s.tgn ∧ ((cueFade c s).1).kbl = s.kbl ∧ ((cueFade c s).1).tst = s.tst ∧
    ((cueFade c s).1).mem = s.mem ∧ ((cueFade c s).1).pins = s.pins ∧
    ((cueFade c s).1).readData = s.readData ∧ ((cueFade c s).1).draw = s.draw ∧
    ((cueFade c s).1).pending = s.pending := by
  simp only [cueFade, onFault, skipWith, stackUnder, rangeCheck, lockdownCheck, badCue, withStack]; (repeat' split) <;> simp <;> (repeat' split) <;> simp

@[simp] theorem cueKeyload_frame (isIdle : Bool) (c : Copy) (s : State) :
    ((cueKeyload isIdle c s).1).rfe = s.rfe ∧ ((cueKeyload isIdle c s).1).lll = s.lll ∧
    ((cueKeyload isIdle c s).1).fal = s.fal ∧ ((cueKeyload isIdle c s).1).tgn = s.tgn ∧
    ((cueKeyload isIdle c s).1).wsk = s.wsk ∧ ((cueKeyload isIdle c s).1).tst = s.tst ∧
    ((cueKeyload isIdle c s).1).mem = s.mem ∧ ((cueKeyload isIdle c s).1).pins = s.pins ∧
    ((cueKeyload isIdle c s).1).readData = s.readData ∧ ((cueKeyload isIdle c s).1).draw = s.draw ∧
    ((cueKeyload isIdle c s).1).pending = s.pending := by
  simp only [cueKeyload, onFault, skipWith, stackUnder, rangeCheck, lockdownCheck, badCue, withStack]; (repeat' split) <;> simp <;> (repeat' split) <;> simp

@[simp] theorem cuePhase_frame (c : Copy) (s : State) :
    ((cuePhase c s).1).rfe = s.rfe ∧ ((cuePhase c s).1).tgn = s.tgn ∧ ((cuePhase c s).1).wsk = s.wsk ∧
    ((cuePhase c s).1).kbl = s.kbl ∧ ((cuePhase c s).1).tst = s.tst ∧ ((cuePhase c s).1).mem = s.mem ∧
    ((cuePhase c s).1).pins = s.pins ∧ ((cuePhase c s).1).readData = s.readData ∧
    ((cuePhase c s).1).draw = s.draw ∧ ((cuePhase c s).1).pending = s.pending := by
  simp only [cuePhase, onFault, skipWith, stackUnder, rangeCheck, lockdownCheck, badCue, withStack]; (repeat' split) <;> simp <;> (repeat' split) <;> simp

@[simp] theorem cueSelect_frame (isIdle : Bool) (c : Copy) (s : State) :
    ((cueSelect isIdle c s).1).tgn = s.tgn ∧ ((cueSelect isIdle c s).1).wsk = s.wsk ∧
    ((cueSelect isIdle c s).1).kbl = s.kbl ∧ ((cueSelect isIdle c s).1).tst = s.tst ∧
    ((cueSelect isIdle c s).1).mem = s.mem ∧ ((cueSelect isIdle c s).1).pins = s.pins ∧
    ((cueSelect isIdle c s).1).readData = s.readData ∧ ((cueSelect isIdle c s).1).draw = s.draw ∧
    ((cueSelect isIdle c s).1).pending = s.pending := by
  simp only [cueSelect, onFault, skipWith, stackUnder, rangeCheck, lockdownCheck, badCue, withStack]; (repeat' split) <;> simp <;> (repeat' split) <;> simp

@[simp] theorem cueSettings_frame (isIdle : Bool) (c : Copy) (s : State) :
    ((cueSettings isIdle c s).1).tgn = s.tgn ∧ ((cueSettings isIdle c s).1).wsk = s.wsk ∧
    ((cueSettings isIdle c s).1).mem = s.mem ∧ ((cueSettings isIdle c s).1).pins = s.pins ∧
    ((cueSettings isIdle c s).1).readData = s.readData ∧ ((cueSettings isIdle c s).1).draw = s.draw ∧
    ((cueSettings isIdle c s).1).pending = s.pending := by
  simp only [cueSettings, onFault, skipWith, stackUnder, rangeCheck, lockdownCheck, badCue, withStack]; (repeat' split) <;> simp <;> (repeat' split) <;> simp

@[simp] theorem cueOutput_frame (c : Copy) (s : State) :
    ((cueOutput c s).1).rfe = s.rfe ∧ ((cueOutput c s).1).lll = s.lll ∧
    ((cueOutput c s).1).fal = s.fal ∧ ((cueOutput c s).1).mpt = s.mpt ∧
    ((cueOutput c s).1).cue = s.cue ∧ ((cueOutput c s).1).wsk = s.wsk ∧
    ((cueOutput c s).1).kbl = s.kbl ∧ ((cueOutput c s).1).rpw = s.rpw ∧
    ((cueOutput c s).1).tst = s.tst ∧ ((cueOutput c s).1).mem = s.mem ∧
    ((cueOutput c s).1).pins = s.pins ∧ ((cueOutput c s).1).readData = s.readData ∧
    ((cueOutput c s).1).draw = s.draw ∧ ((cueOutput c s).1).pending = s.pending := by
  simp [cueOutput]

@[simp] theorem cueWaitlock_frame (isIdle : Bool) (c : Copy) (s : State) :
    ((cueWaitlock isIdle c s).1).rfe = s.rfe ∧ ((cueWaitlock isIdle c s).1).lll = s.lll ∧
    ((cueWaitlock isIdle c s).1).fal = s.fal ∧ ((cueWaitlock isIdle c s).1).tgn = s.tgn ∧
    ((cueWaitlock isIdle c s).1).mpt = s.mpt ∧ ((cueWaitlock isIdle c s).1).wsk = s.wsk ∧
    ((cueWaitlock isIdle c s).1).kbl = s.kbl ∧ ((cueWaitlock isIdle c s).1).rpw = s.rpw ∧
    ((cueWaitlock isIdle c s).1).tst = s.tst ∧ ((cueWaitlock isIdle c s).1).mem = s.mem ∧
    ((cueWaitlock isIdle c s).1).pins = s.pins ∧ ((cueWaitlock isIdle c s).1).readData = s.readData ∧
    ((cueWaitlock isIdle c s).1).draw = s.draw ∧ ((cueWaitlock isIdle c s).1).pending = s.pending := by
  simp only [cueWaitlock]; (repeat' split) <;> simp

@[simp] theorem cueSnapshot_frame (c : Copy) (s : State) :
    ((cueSnapshot c s).1).rfe = s.rfe ∧ ((cueSnapshot c s).1).lll = s.lll ∧
    ((cueSnapshot c s).1).fal = s.fal ∧ ((cueSnapshot c s).1).tgn = s.tgn ∧
    ((cueSnapshot c s).1).mpt = s.mpt ∧ ((cueSnapshot c s).1).wsk = s.wsk ∧
    ((cueSnapshot c s).1).kbl = s.kbl ∧ ((cueSnapshot c s).1).tst = s.tst ∧
    ((cueSnapshot c s).1).mem = s.mem ∧ ((cueSnapshot c s).1).pins = s.pins ∧
    ((cueSnapshot c s).1).readData = s.readData ∧ ((cueSnapshot c s).1).draw = s.draw ∧
    ((cueSnapshot c s).1).pending = s.pending := by
  unfold cueSnapshot; split <;> simp

@[simp] theorem kindEffect_frame (isIdle : Bool) (k : CueKind) (c : Copy) (s : State) :
    ((kindEffect isIdle k c s).1).mem = s.mem ∧ ((kindEffect isIdle k c s).1).pins = s.pins ∧
    ((kindEffect isIdle k c s).1).readData = s.readData ∧ ((kindEffect isIdle k c s).1).draw = s.draw ∧
    ((kindEffect isIdle k c s).1).pending = s.pending := by
  unfold kindEffect; split <;> simp

@[simp] theorem judgeCopy_frame (isIdle : Bool) (c : Copy) (s : State) :
    ((judgeCopy isIdle c s).1).mem = s.mem ∧ ((judgeCopy isIdle c s).1).pins = s.pins ∧
    ((judgeCopy isIdle c s).1).readData = s.readData ∧ ((judgeCopy isIdle c s).1).draw = s.draw ∧
    ((judgeCopy isIdle c s).1).pending = s.pending := by
  simp only [judgeCopy, onFault, skipWith, stackUnder, rangeCheck, lockdownCheck, badCue, withStack]; (repeat' split) <;> simp <;> (repeat' split) <;> simp

@[simp] theorem execCopy_frame (isIdle : Bool) (c : Copy) (s : State) :
    ((execCopy isIdle c s).1).mem = s.mem ∧ ((execCopy isIdle c s).1).pins = s.pins ∧
    ((execCopy isIdle c s).1).readData = s.readData ∧ ((execCopy isIdle c s).1).draw = s.draw ∧
    ((execCopy isIdle c s).1).pending = s.pending := by
  have h := judgeCopy_frame isIdle c s
  unfold execCopy
  split <;> simp_all

@[simp] theorem execDue_frame (cs : List Copy) (s : State) :
    ((execDue cs s).1).mem = s.mem ∧ ((execDue cs s).1).pins = s.pins ∧
    ((execDue cs s).1).readData = s.readData ∧ ((execDue cs s).1).draw = s.draw ∧
    ((execDue cs s).1).pending = s.pending := by
  induction cs generalizing s with
  | nil => simp [execDue]
  | cons c t ih =>
    have h := execCopy_frame false c s
    unfold execDue
    split <;> simp_all

@[simp] theorem execIdle_frame (c : Option Copy) (s : State) :
    ((execIdle c s).1).mem = s.mem ∧ ((execIdle c s).1).pins = s.pins ∧
    ((execIdle c s).1).readData = s.readData ∧ ((execIdle c s).1).draw = s.draw ∧
    ((execIdle c s).1).pending = s.pending := by
  unfold execIdle; split <;> simp

@[simp] theorem endScan_frame (s : State) :
    (endScan s).rfe = s.rfe ∧ (endScan s).lll = s.lll ∧ (endScan s).fal = s.fal ∧
    (endScan s).tgn = s.tgn ∧ (endScan s).wsk = s.wsk ∧ (endScan s).kbl = s.kbl ∧
    (endScan s).rpw = s.rpw ∧ (endScan s).tst = s.tst ∧ (endScan s).mem = s.mem ∧
    (endScan s).pins = s.pins ∧ (endScan s).readData = s.readData ∧ (endScan s).draw = s.draw ∧
    (endScan s).pending = s.pending := by
  simp [endScan]

@[simp] theorem clearDue_frame (s : State) :
    (clearDue s).rfe = s.rfe ∧ (clearDue s).lll = s.lll ∧ (clearDue s).fal = s.fal ∧
    (clearDue s).tgn = s.tgn ∧ (clearDue s).mpt = s.mpt ∧ (clearDue s).wsk = s.wsk ∧
    (clearDue s).kbl = s.kbl ∧ (clearDue s).rpw = s.rpw ∧ (clearDue s).tst = s.tst ∧
    (clearDue s).mem = s.mem ∧ (clearDue s).pins = s.pins ∧ (clearDue s).readData = s.readData ∧
    (clearDue s).draw = s.draw ∧ (clearDue s).pending = s.pending := by
  simp [clearDue]

@[simp] theorem runningBoundary_frame (s : State) :
    ((runningBoundary s).1).mem = s.mem ∧ ((runningBoundary s).1).pins = s.pins ∧
    ((runningBoundary s).1).readData = s.readData ∧ ((runningBoundary s).1).draw = s.draw ∧
    ((runningBoundary s).1).pending = s.pending := by
  unfold runningBoundary; (repeat' split) <;> simp

@[simp] theorem endWait_frame (b : Bool) (w : WaitRecord) (s : State) :
    (endWait b w s).rfe = s.rfe ∧ (endWait b w s).lll = s.lll ∧ (endWait b w s).fal = s.fal ∧
    (endWait b w s).tgn = s.tgn ∧ (endWait b w s).wsk = s.wsk ∧ (endWait b w s).kbl = s.kbl ∧
    (endWait b w s).tst = s.tst ∧ (endWait b w s).mem = s.mem ∧ (endWait b w s).pins = s.pins ∧
    (endWait b w s).readData = s.readData ∧ (endWait b w s).draw = s.draw ∧
    (endWait b w s).pending = s.pending := by
  simp [endWait]

@[simp] theorem waitTest_frame (w : WaitRecord) (s : State) :
    ((waitTest w s).1).rfe = s.rfe ∧ ((waitTest w s).1).lll = s.lll ∧ ((waitTest w s).1).fal = s.fal ∧
    ((waitTest w s).1).tgn = s.tgn ∧ ((waitTest w s).1).wsk = s.wsk ∧ ((waitTest w s).1).kbl = s.kbl ∧
    ((waitTest w s).1).tst = s.tst ∧ ((waitTest w s).1).mem = s.mem ∧
    ((waitTest w s).1).pins = s.pins ∧ ((waitTest w s).1).readData = s.readData ∧
    ((waitTest w s).1).draw = s.draw ∧ ((waitTest w s).1).pending = s.pending := by
  unfold waitTest; (repeat' split) <;> simp

@[simp] theorem engineBoundary_frame (s : State) :
    ((engineBoundary s).1).mem = s.mem ∧ ((engineBoundary s).1).pins = s.pins ∧
    ((engineBoundary s).1).readData = s.readData ∧ ((engineBoundary s).1).draw = s.draw ∧
    ((engineBoundary s).1).pending = s.pending := by
  unfold engineBoundary; (repeat' split) <;> simp

end Sys2Proof.Machine
end

