-- ==== Sys2Proof/Laws/Line.lean ====
section
/-!
SUPPORT. What the works of a line end, of a dot edge, of the memory port and of the pulses leave as it was.
-/

set_option linter.all false

namespace Sys2Proof.Machine

@[simp] theorem takeOffer_frame (o : Option Int) (s : State) :
    (takeOffer o s).rfe = s.rfe ∧ (takeOffer o s).lll = s.lll ∧ (takeOffer o s).fal = s.fal ∧
    (takeOffer o s).tgn = s.tgn ∧ (takeOffer o s).mpt = s.mpt ∧ (takeOffer o s).cue = s.cue ∧
    (takeOffer o s).wsk = s.wsk ∧ (takeOffer o s).kbl = s.kbl ∧ (takeOffer o s).rpw = s.rpw ∧
    (takeOffer o s).mem = s.mem ∧ (takeOffer o s).pins = s.pins ∧
    (takeOffer o s).readData = s.readData ∧ (takeOffer o s).draw = s.draw ∧
    (takeOffer o s).pending = s.pending := by
  unfold takeOffer; (repeat' split) <;> simp

@[simp] theorem evaluateLine_frame (s : State) :
    ((evaluateLine s).s).rfe = s.rfe ∧ ((evaluateLine s).s).fal = s.fal ∧
    ((evaluateLine s).s).tgn = s.tgn ∧ ((evaluateLine s).s).mpt = s.mpt ∧
    ((evaluateLine s).s).cue = s.cue ∧ ((evaluateLine s).s).wsk = s.wsk ∧
    ((evaluateLine s).s).kbl = s.kbl ∧ ((evaluateLine s).s).mem = s.mem ∧
    ((evaluateLine s).s).pins = s.pins ∧ ((evaluateLine s).s).readData = s.readData ∧
    ((evaluateLine s).s).draw = s.draw ∧ ((evaluateLine s).s).pending = s.pending := by
  simp [evaluateLine]

@[simp] theorem endLine_frame (b : Bool) (s : State) :
    ((endLine b s).s).rfe = s.rfe ∧ ((endLine b s).s).tgn = s.tgn ∧ ((endLine b s).s).mpt = s.mpt ∧
    ((endLine b s).s).cue = s.cue ∧ ((endLine b s).s).wsk = s.wsk ∧ ((endLine b s).s).kbl = s.kbl ∧
    ((endLine b s).s).mem = s.mem ∧ ((endLine b s).s).pins = s.pins ∧
    ((endLine b s).s).readData = s.readData ∧ ((endLine b s).s).draw = s.draw ∧
    ((endLine b s).s).pending = s.pending := by
  unfold endLine; (repeat' split) <;> simp

@[simp] theorem lineInstant_frame (x : LineInputs) (s : State) :
    (lineInstant x s).lll = s.lll ∧ (lineInstant x s).fal = s.fal ∧ (lineInstant x s).tgn = s.tgn ∧
    (lineInstant x s).mpt = s.mpt ∧ (lineInstant x s).cue = s.cue ∧ (lineInstant x s).wsk = s.wsk ∧
    (lineInstant x s).kbl = s.kbl ∧ (lineInstant x s).rpw = s.rpw ∧ (lineInstant x s).tst = s.tst ∧
    (lineInstant x s).mem = s.mem ∧ (lineInstant x s).readData = s.readData ∧
    (lineInstant x s).draw = s.draw ∧ (lineInstant x s).pending = s.pending := by
  simp [lineInstant]

@[simp] theorem tstLineStart_frame (s : State) :
    (tstLineStart s).rfe = s.rfe ∧ (tstLineStart s).lll = s.lll ∧ (tstLineStart s).fal = s.fal ∧
    (tstLineStart s).tgn = s.tgn ∧ (tstLineStart s).mpt = s.mpt ∧ (tstLineStart s).cue = s.cue ∧
    (tstLineStart s).wsk = s.wsk ∧ (tstLineStart s).kbl = s.kbl ∧ (tstLineStart s).rpw = s.rpw ∧
    (tstLineStart s).mem = s.mem ∧ (tstLineStart s).pins = s.pins ∧
    (tstLineStart s).readData = s.readData ∧ (tstLineStart s).draw = s.draw ∧
    (tstLineStart s).pending = s.pending := by
  unfold tstLineStart; split <;> simp

@[simp] theorem beginLine_frame (s : State) :
    (beginLine s).rfe = s.rfe ∧ (beginLine s).lll = s.lll ∧ (beginLine s).fal = s.fal ∧
    (beginLine s).mpt = s.mpt ∧ (beginLine s).cue = s.cue ∧ (beginLine s).wsk = s.wsk ∧
    (beginLine s).kbl = s.kbl ∧ (beginLine s).rpw = s.rpw ∧ (beginLine s).mem = s.mem ∧
    (beginLine s).pins = s.pins ∧ (beginLine s).readData = s.readData ∧ (beginLine s).draw = s.draw ∧
    (beginLine s).pending = s.pending := by
  simp [beginLine]

@[simp] theorem scanPoint_frame (s : State) :
    (scanPoint s).rfe = s.rfe ∧ (scanPoint s).lll = s.lll ∧ (scanPoint s).fal = s.fal ∧
    (scanPoint s).wsk = s.wsk ∧ (scanPoint s).kbl = s.kbl ∧ (scanPoint s).rpw = s.rpw ∧
    (scanPoint s).tst = s.tst ∧ (scanPoint s).mem = s.mem ∧ (scanPoint s).pins = s.pins ∧
    (scanPoint s).readData = s.readData ∧ (scanPoint s).draw = s.draw ∧
    (scanPoint s).pending = s.pending := by
  unfold scanPoint; split <;> simp

@[simp] theorem nextLine_frame (s : State) :
    (nextLine s).rfe = s.rfe ∧ (nextLine s).lll = s.lll ∧ (nextLine s).fal = s.fal ∧
    (nextLine s).mpt = s.mpt ∧ (nextLine s).cue = s.cue ∧ (nextLine s).wsk = s.wsk ∧
    (nextLine s).kbl = s.kbl ∧ (nextLine s).rpw = s.rpw ∧ (nextLine s).tst = s.tst ∧
    (nextLine s).mem = s.mem ∧ (nextLine s).pins = s.pins ∧ (nextLine s).readData = s.readData ∧
    (nextLine s).draw = s.draw ∧ (nextLine s).pending = s.pending := by
  simp [nextLine]

@[simp] theorem nextField_frame (s : State) :
    (nextField s).rfe = s.rfe ∧ (nextField s).lll = s.lll ∧ (nextField s).fal = s.fal ∧
    (nextField s).mpt = s.mpt ∧ (nextField s).cue = s.cue ∧ (nextField s).wsk = s.wsk ∧
    (nextField s).kbl = s.kbl ∧ (nextField s).rpw = s.rpw ∧ (nextField s).tst = s.tst ∧
    (nextField s).mem = s.mem ∧ (nextField s).pins = s.pins ∧ (nextField s).readData = s.readData ∧
    (nextField s).draw = s.draw ∧ (nextField s).pending = s.pending := by
  simp [nextField]

@[simp] theorem handStatistics_frame (e : Stamp) (s : State) :
    (handStatistics e s).rfe = s.rfe ∧ (handStatistics e s).fal = s.fal ∧
    (handStatistics e s).tgn = s.tgn ∧ (handStatistics e s).mpt = s.mpt ∧
    (handStatistics e s).cue = s.cue ∧ (handStatistics e s).wsk = s.wsk ∧
    (handStatistics e s).kbl = s.kbl ∧ (handStatistics e s).mem = s.mem ∧
    (handStatistics e s).pins = s.pins ∧ (handStatistics e s).readData = s.readData ∧
    (handStatistics e s).draw = s.draw ∧ (handStatistics e s).pending = s.pending := by
  unfold handStatistics; (repeat' split) <;> simp

@[simp] theorem countHoldover_frame (b : Bool) (s : State) :
    (countHoldover b s).rfe = s.rfe ∧ (countHoldover b s).tgn = s.tgn ∧
    (countHoldover b s).mpt = s.mpt ∧ (countHoldover b s).cue = s.cue ∧
    (countHoldover b s).wsk = s.wsk ∧ (countHoldover b s).kbl = s.kbl ∧
    (countHoldover b s).tst = s.tst ∧ (countHoldover b s).mem = s.mem ∧
    (countHoldover b s).pins = s.pins ∧ (countHoldover b s).readData = s.readData ∧
    (countHoldover b s).draw = s.draw ∧ (countHoldover b s).pending = s.pending := by
  unfold countHoldover; (repeat' split) <;> simp

@[simp] theorem keepEnded_frame (s : State) :
    (keepEnded s).rfe = s.rfe ∧ (keepEnded s).lll = s.lll ∧ (keepEnded s).fal = s.fal ∧
    (keepEnded s).tgn = s.tgn ∧ (keepEnded s).mpt = s.mpt ∧ (keepEnded s).cue = s.cue ∧
    (keepEnded s).rpw = s.rpw ∧ (keepEnded s).tst = s.tst ∧ (keepEnded s).mem = s.mem ∧
    (keepEnded s).pins = s.pins ∧ (keepEnded s).readData = s.readData ∧ (keepEnded s).draw = s.draw ∧
    (keepEnded s).pending = s.pending := by
  simp [keepEnded]

@[simp] theorem stepFades_frame (s : State) :
    (stepFades s).rfe = s.rfe ∧ (stepFades s).lll = s.lll ∧ (stepFades s).fal = s.fal ∧
    (stepFades s).tgn = s.tgn ∧ (stepFades s).mpt = s.mpt ∧ (stepFades s).cue = s.cue ∧
    (stepFades s).kbl = s.kbl ∧ (stepFades s).rpw = s.rpw ∧ (stepFades s).tst = s.tst ∧
    (stepFades s).mem = s.mem ∧ (stepFades s).pins = s.pins ∧ (stepFades s).readData = s.readData ∧
    (stepFades s).draw = s.draw ∧ (stepFades s).pending = s.pending := by
  simp [stepFades]

@[simp] theorem nolockTest_frame (s : State) :
    (nolockTest s).rfe = s.rfe ∧ (nolockTest s).lll = s.lll ∧ (nolockTest s).fal = s.fal ∧
    (nolockTest s).tgn = s.tgn ∧ (nolockTest s).mpt = s.mpt ∧ (nolockTest s).cue = s.cue ∧
    (nolockTest s).wsk = s.wsk ∧ (nolockTest s).kbl = s.kbl ∧ (nolockTest s).mem = s.mem ∧
    (nolockTest s).pins = s.pins ∧ (nolockTest s).readData = s.readData ∧
    (nolockTest s).draw = s.draw ∧ (nolockTest s).pending = s.pending := by
  unfold nolockTest; split <;> simp

@[simp] theorem boundaryHead_frame (o : WorkOrder) (b : Bool) (s : State) :
    (boundaryHead o b s).rfe = s.rfe ∧ (boundaryHead o b s).mpt = s.mpt ∧
    (boundaryHead o b s).cue = s.cue ∧ (boundaryHead o b s).mem = s.mem ∧
    (boundaryHead o b s).pins = s.pins ∧ (boundaryHead o b s).readData = s.readData ∧
    (boundaryHead o b s).draw = s.draw ∧ (boundaryHead o b s).pending = s.pending := by
  simp only [boundaryHead, atPlace]; (repeat' split) <;> simp

@[simp] theorem boundaryCues_frame (o : WorkOrder) (s : State) :
    ((boundaryCues o s).1).mem = s.mem ∧ ((boundaryCues o s).1).pins = s.pins ∧
    ((boundaryCues o s).1).readData = s.readData ∧ ((boundaryCues o s).1).draw = s.draw ∧
    ((boundaryCues o s).1).pending = s.pending := by
  simp only [boundaryCues, atPlace]; (repeat' split) <;> simp

@[simp] theorem swapAndStat_frame (o : WorkOrder) (s : State) :
    (swapAndStat o s).rfe = s.rfe ∧ (swapAndStat o s).lll = s.lll ∧ (swapAndStat o s).fal = s.fal ∧
    (swapAndStat o s).tgn = s.tgn ∧ (swapAndStat o s).mpt = s.mpt ∧ (swapAndStat o s).cue = s.cue ∧
    (swapAndStat o s).mem = s.mem ∧ (swapAndStat o s).pins = s.pins ∧
    (swapAndStat o s).readData = s.readData ∧ (swapAndStat o s).draw = s.draw ∧
    (swapAndStat o s).pending = s.pending := by
  simp only [swapAndStat, atPlace]; (repeat' split) <;> simp

@[simp] theorem boundaryTail_frame (o : WorkOrder) (d : Nat) (s : State) :
    (boundaryTail o d s).rfe = s.rfe ∧ (boundaryTail o d s).lll = s.lll ∧
    (boundaryTail o d s).fal = s.fal ∧ (boundaryTail o d s).cue = s.cue ∧
    (boundaryTail o d s).mem = s.mem ∧ (boundaryTail o d s).pins = s.pins ∧
    (boundaryTail o d s).readData = s.readData ∧ (boundaryTail o d s).draw = s.draw ∧
    (boundaryTail o d s).pending = s.pending := by
  simp only [boundaryTail, atPlace]; (repeat' split) <;> simp

@[simp] theorem fieldBoundary_frame (o : WorkOrder) (b : Bool) (s : State) :
    (fieldBoundary o b s).mem = s.mem ∧ (fieldBoundary o b s).pins = s.pins ∧
    (fieldBoundary o b s).readData = s.readData ∧ (fieldBoundary o b s).draw = s.draw ∧
    (fieldBoundary o b s).pending = s.pending := by
  simp [fieldBoundary]

@[simp] theorem gridStep_frame (x : LineInputs) (s : State) :
    ((gridStep x s).s).tgn = s.tgn ∧ ((gridStep x s).s).mpt = s.mpt ∧ ((gridStep x s).s).cue = s.cue ∧
    ((gridStep x s).s).wsk = s.wsk ∧ ((gridStep x s).s).kbl = s.kbl ∧ ((gridStep x s).s).mem = s.mem ∧
    ((gridStep x s).s).readData = s.readData ∧ ((gridStep x s).s).draw = s.draw ∧
    ((gridStep x s).s).pending = s.pending := by
  simp [gridStep]

@[simp] theorem lineEndWork_frame (x : LineInputs) (s : State) :
    (lineEndWork x s).mem = s.mem ∧ (lineEndWork x s).readData = s.readData ∧
    (lineEndWork x s).draw = s.draw ∧ (lineEndWork x s).pending = s.pending := by
  simp only [lineEndWork]; split <;> simp

@[simp] theorem dropEnded_frame (s : State) :
    (dropEnded s).rfe = s.rfe ∧ (dropEnded s).lll = s.lll ∧ (dropEnded s).fal = s.fal ∧
    (dropEnded s).tgn = s.tgn ∧ (dropEnded s).mpt = s.mpt ∧ (dropEnded s).cue = s.cue ∧
    (dropEnded s).rpw = s.rpw ∧ (dropEnded s).tst = s.tst ∧ (dropEnded s).mem = s.mem ∧
    (dropEnded s).pins = s.pins ∧ (dropEnded s).readData = s.readData ∧ (dropEnded s).draw = s.draw ∧
    (dropEnded s).pending = s.pending := by
  unfold dropEnded; split <;> simp

@[simp] theorem dotEdge_frame (b : Byte) (s : State) :
    (dotEdge b s).lll = s.lll ∧ (dotEdge b s).fal = s.fal ∧ (dotEdge b s).mpt = s.mpt ∧
    (dotEdge b s).cue = s.cue ∧ (dotEdge b s).rpw = s.rpw ∧ (dotEdge b s).tst = s.tst ∧
    (dotEdge b s).mem = s.mem ∧ (dotEdge b s).pins = s.pins ∧ (dotEdge b s).readData = s.readData ∧
    (dotEdge b s).draw = s.draw ∧ (dotEdge b s).pending = s.pending := by
  simp [dotEdge]

@[simp] theorem serveRead_frame (q : Request) (b : BusTraffic) (s : State) :
    ((serveRead q b s).1).rfe = s.rfe ∧ ((serveRead q b s).1).lll = s.lll ∧
    ((serveRead q b s).1).fal = s.fal ∧ ((serveRead q b s).1).tgn = s.tgn ∧
    ((serveRead q b s).1).cue = s.cue ∧ ((serveRead q b s).1).wsk = s.wsk ∧
    ((serveRead q b s).1).kbl = s.kbl ∧ ((serveRead q b s).1).rpw = s.rpw ∧
    ((serveRead q b s).1).tst = s.tst ∧ ((serveRead q b s).1).pins = s.pins ∧
    ((serveRead q b s).1).readData = s.readData ∧ ((serveRead q b s).1).draw = s.draw ∧
    ((serveRead q b s).1).pending = s.pending := by
  simp [serveRead]

@[simp] theorem serveWrite_frame (q : Request) (b : BusTraffic) (s : State) :
    (serveWrite q b s).rfe = s.rfe ∧ (serveWrite q b s).lll = s.lll ∧ (serveWrite q b s).fal = s.fal ∧
    (serveWrite q b s).tgn = s.tgn ∧ (serveWrite q b s).cue = s.cue ∧ (serveWrite q b s).wsk = s.wsk ∧
    (serveWrite q b s).kbl = s.kbl ∧ (serveWrite q b s).rpw = s.rpw ∧ (serveWrite q b s).tst = s.tst ∧
    (serveWrite q b s).pins = s.pins ∧ (serveWrite q b s).readData = s.readData ∧
    (serveWrite q b s).draw = s.draw ∧ (serveWrite q b s).pending = s.pending := by
  simp [serveWrite]

@[simp] theorem keyWordRead_frame (w : Word) (s : State) :
    (keyWordRead w s).rfe = s.rfe ∧ (keyWordRead w s).lll = s.lll ∧ (keyWordRead w s).fal = s.fal ∧
    (keyWordRead w s).tgn = s.tgn ∧ (keyWordRead w s).cue = s.cue ∧ (keyWordRead w s).wsk = s.wsk ∧
    (keyWordRead w s).rpw = s.rpw ∧ (keyWordRead w s).tst = s.tst ∧ (keyWordRead w s).mem = s.mem ∧
    (keyWordRead w s).pins = s.pins ∧ (keyWordRead w s).readData = s.readData ∧
    (keyWordRead w s).draw = s.draw ∧ (keyWordRead w s).pending = s.pending := by
  simp only [keyWordRead]; (repeat' split) <;> simp

@[simp] theorem memoryFault_frame (q : Request) (t : Tick) (n : Nat) (r : Bool) (b : BusTraffic) (s : State) :
    (memoryFault q t n r b s).lll = s.lll ∧ (memoryFault q t n r b s).fal = s.fal ∧
    (memoryFault q t n r b s).tgn = s.tgn ∧ (memoryFault q t n r b s).wsk = s.wsk ∧
    (memoryFault q t n r b s).tst = s.tst ∧ (memoryFault q t n r b s).pins = s.pins ∧
    (memoryFault q t n r b s).readData = s.readData ∧ (memoryFault q t n r b s).draw = s.draw ∧
    (memoryFault q t n r b s).pending = s.pending := by
  simp [memoryFault]

@[simp] theorem linePulse_frame (i : Input) (e : Pu) (u : Tick) (p : Byte) (s : State) :
    (linePulse i e u p s).fal = s.fal ∧ (linePulse i e u p s).tgn = s.tgn ∧
    (linePulse i e u p s).mpt = s.mpt ∧ (linePulse i e u p s).cue = s.cue ∧
    (linePulse i e u p s).wsk = s.wsk ∧ (linePulse i e u p s).kbl = s.kbl ∧
    (linePulse i e u p s).mem = s.mem ∧ (linePulse i e u p s).pins = s.pins ∧
    (linePulse i e u p s).readData = s.readData ∧ (linePulse i e u p s).draw = s.draw ∧
    (linePulse i e u p s).pending = s.pending := by
  unfold linePulse; split <;> simp

@[simp] theorem classified_frame (k : PulseClass) (i : Input) (e : Pu) (u : Tick) (p : Byte) (s : State) :
    (classified k i e u p s).mpt = s.mpt ∧ (classified k i e u p s).cue = s.cue ∧
    (classified k i e u p s).wsk = s.wsk ∧ (classified k i e u p s).kbl = s.kbl ∧
    (classified k i e u p s).mem = s.mem ∧ (classified k i e u p s).pins = s.pins ∧
    (classified k i e u p s).readData = s.readData ∧ (classified k i e u p s).draw = s.draw ∧
    (classified k i e u p s).pending = s.pending := by
  unfold classified; (repeat' split) <;> simp

end Sys2Proof.Machine
end

