-- ==== Sys2Proof/Laws/Memory.lean ====
section
/-!
SUPPORT. Main memory: every operation keeps the canonical form, a read after a write gives the byte
written, and a write leaves every other byte alone.
-/

namespace Sys2Proof.Machine

/-! ## Canonical form -/

/-- A write changes no key but the one written. -/
theorem Memory.mem_writeByte {m : Memory} {a : Nat} {b : Byte} {x : Host.Cell}
    (h : x ∈ m.writeByte a b) : x ∈ m ∨ (x = (a, b) ∧ b ≠ unlistedByte) := by
  induction m with
  | nil =>
    simp only [Memory.writeByte] at h
    split at h <;> simp_all
  | cons y t ih =>
    obtain ⟨k, c⟩ := y
    simp only [Memory.writeByte] at h
    split at h
    · split at h
      · exact .inl h
      · rcases List.mem_cons.1 h with rfl | h
        · exact .inr ⟨rfl, by assumption⟩
        · exact .inl h
    · split at h
      · split at h
        · exact .inl (List.mem_cons_of_mem _ h)
        · rcases List.mem_cons.1 h with rfl | h
          · exact .inr ⟨rfl, by assumption⟩
          · exact .inl (List.mem_cons_of_mem _ h)
      · rcases List.mem_cons.1 h with rfl | h
        · exact .inl List.mem_cons_self
        · rcases ih h with h | h
          · exact .inl (List.mem_cons_of_mem _ h)
          · exact .inr h

/-- Writing one byte inside the address space keeps the canonical form. -/
theorem Memory.wf_writeByte {m : Memory} {a : Nat} {b : Byte} (hm : m.wf) (ha : a < 2 ^ 24) :
    (m.writeByte a b).wf := by
  refine ⟨?_, ?_⟩
  · have hp := hm.1
    clear hm
    induction m with
    | nil => simp only [Memory.writeByte]; split <;> simp
    | cons y t ih =>
      obtain ⟨k, c⟩ := y
      have hk := List.pairwise_cons.1 hp
      simp only [Memory.writeByte]
      split
      · rename_i hlt
        split
        · exact hp
        · refine List.pairwise_cons.2 ⟨fun x hx => ?_, hp⟩
          rcases List.mem_cons.1 hx with rfl | hx
          · exact hlt
          · exact Nat.lt_trans hlt (hk.1 x hx)
      · split
        · rename_i heq
          split
          · exact hk.2
          · exact List.pairwise_cons.2 ⟨fun x hx => by have := hk.1 x hx; simp_all, hk.2⟩
        · refine List.pairwise_cons.2 ⟨fun x hx => ?_, ih hk.2⟩
          rcases Memory.mem_writeByte hx with hx | ⟨rfl, _⟩
          · exact hk.1 x hx
          · show k < a
            omega
  · intro x hx
    rcases Memory.mem_writeByte hx with hx | ⟨rfl, hb⟩
    · exact hm.2 x hx
    · exact ⟨ha, hb⟩

theorem wrapAddr_lt (a : Nat) : wrapAddr a < 2 ^ 24 := Nat.mod_lt _ (by decide)

theorem Memory.wf_writeWord {m : Memory} {a : Nat} {w : Word} (hm : m.wf) : (m.writeWord a w).wf :=
  Memory.wf_writeByte (Memory.wf_writeByte hm (wrapAddr_lt _)) (wrapAddr_lt _)

theorem Memory.wf_writeWords {m : Memory} (hm : m.wf) (ws : List (Nat × Word)) :
    (m.writeWords ws).wf := by
  induction ws generalizing m with
  | nil => exact hm
  | cons x t ih => exact ih (Memory.wf_writeWord hm)

theorem Memory.wf_hostWrites {m : Memory} (hm : m.wf) (ws : List HostWrite) : (m.hostWrites ws).wf :=
  Memory.wf_writeWords hm _

theorem Memory.wf_readRun {m : Memory} (hm : m.wf) (as : List Nat) (bus : BusTraffic) :
    (m.readRun as bus).1.wf := by
  induction as generalizing m bus with
  | nil => exact Memory.wf_hostWrites hm _
  | cons a t ih => exact ih (Memory.wf_hostWrites hm _) _

theorem Memory.wf_writeRun {m : Memory} (hm : m.wf) (ws : List (Nat × Word)) (bus : BusTraffic) :
    (m.writeRun ws bus).wf := by
  induction ws generalizing m bus with
  | nil => exact Memory.wf_hostWrites hm _
  | cons x t ih => exact ih (Memory.wf_writeWord (Memory.wf_hostWrites hm _)) _

/-! ## Reading back -/

/-- In canonical memory a byte below every listed address is unlisted. -/
theorem Memory.readByte_of_lt {m : Memory} {a : Nat} (h : ∀ x ∈ m, a < x.1) :
    m.readByte a = unlistedByte := by
  induction m with
  | nil => rfl
  | cons y t ih =>
    obtain ⟨k, c⟩ := y
    have hk : a < k := h (k, c) List.mem_cons_self
    simp only [Memory.readByte]
    rw [if_neg (by omega)]
    exact ih (fun x hx => h x (List.mem_cons_of_mem _ hx))

/-- A read after a write to one byte: the byte written there, every other byte as before. -/
theorem Memory.readByte_writeByte {m : Memory} (hm : m.wf) (a x : Nat) (b : Byte) :
    (m.writeByte a b).readByte x = if x = a then b else m.readByte x := by
  have hp := hm.1
  clear hm
  induction m with
  | nil =>
    simp only [Memory.writeByte]
    split
    · rename_i hb
      simp [Memory.readByte, hb]
    · by_cases hx : x = a
      · subst hx; simp [Memory.readByte]
      · simp only [Memory.readByte]
        rw [if_neg hx, if_neg (fun h => hx h.symm)]
  | cons y t ih =>
    obtain ⟨k, c⟩ := y
    have hk := List.pairwise_cons.1 hp
    simp only [Memory.writeByte]
    split
    · rename_i hlt
      split
      · rename_i hb
        by_cases hx : x = a
        · subst hx
          rw [if_pos rfl, hb]
          exact Memory.readByte_of_lt (fun z hz => by
            rcases List.mem_cons.1 hz with rfl | hz
            · exact hlt
            · exact Nat.lt_trans hlt (hk.1 z hz))
        · rw [if_neg hx]
      · by_cases hx : x = a
        · subst hx; simp [Memory.readByte]
        · rw [if_neg hx]
          simp only [Memory.readByte]
          rw [if_neg (fun h => hx h.symm)]
    · split
      · rename_i heq
        subst heq
        split
        · rename_i hb
          by_cases hx : x = a
          · subst hx
            rw [if_pos rfl, hb]
            exact Memory.readByte_of_lt (fun z hz => hk.1 z hz)
          · rw [if_neg hx]
            simp only [Memory.readByte]
            rw [if_neg (fun h => hx h.symm)]
        · by_cases hx : x = a
          · subst hx; simp [Memory.readByte]
          · rw [if_neg hx]
            simp only [Memory.readByte]
            rw [if_neg (fun h => hx h.symm), if_neg (fun h => hx h.symm)]
      · rename_i hne
        simp only [Memory.readByte]
        by_cases hkx : k = x
        · subst hkx
          rw [if_pos rfl, if_pos rfl, if_neg (fun h => hne h.symm)]
        · rw [if_neg hkx, if_neg hkx]
          exact ih hk.2

/-- A word is its two bytes. -/
theorem joinBytes (w : Word) : (w.extractLsb' 8 8 ++ w.extractLsb' 0 8 : BitVec 16) = w := by
  apply BitVec.eq_of_getLsbD_eq
  intro i hi
  simp only [BitVec.getLsbD_append, BitVec.getLsbD_extractLsb']
  by_cases h : i < 8
  · simp [h]
  · have h2 : i - 8 < 8 := by omega
    have h3 : 8 + (i - 8) = i := by omega
    simp [h, h2, h3]

/-- The word written is read back. -/
theorem Memory.readWord_writeWord {m : Memory} (hm : m.wf) (a : Nat) (w : Word) :
    (m.writeWord a w).readWord a = w := by
  have h1 := Memory.wf_writeByte (b := w.extractLsb' 0 8) hm (wrapAddr_lt a)
  have hne : wrapAddr (a + 1) ≠ wrapAddr a := by
    simp only [wrapAddr]
    omega
  simp only [Memory.readWord, Memory.writeWord]
  rw [Memory.readByte_writeByte h1, Memory.readByte_writeByte h1, if_pos rfl,
    if_neg (fun h => hne h.symm), Memory.readByte_writeByte hm, if_pos rfl]
  exact joinBytes w

/-- A word written leaves every byte but its two as it was. -/
theorem Memory.readByte_writeWord {m : Memory} (hm : m.wf) (a x : Nat) (w : Word)
    (h0 : x ≠ wrapAddr a) (h1 : x ≠ wrapAddr (a + 1)) :
    (m.writeWord a w).readByte x = m.readByte x := by
  have hw := Memory.wf_writeByte (b := w.extractLsb' 0 8) hm (wrapAddr_lt a)
  simp only [Memory.writeWord]
  rw [Memory.readByte_writeByte hw, if_neg h1, Memory.readByte_writeByte hm, if_neg h0]

/-- Words written leave every byte outside them as it was. -/
theorem Memory.readByte_writeWords {m : Memory} (hm : m.wf) (ws : List (Nat × Word)) (x : Nat)
    (h : ∀ p ∈ ws, x ≠ wrapAddr p.1 ∧ x ≠ wrapAddr (p.1 + 1)) :
    (m.writeWords ws).readByte x = m.readByte x := by
  induction ws generalizing m with
  | nil => rfl
  | cons p t ih =>
    simp only [Memory.writeWords]
    rw [ih (Memory.wf_writeWord hm) (fun q hq => h q (List.mem_cons_of_mem _ hq))]
    exact Memory.readByte_writeWord hm _ _ _ (h p List.mem_cons_self).1 (h p List.mem_cons_self).2

/-- With no computer writes in between, a run of writes is the words written in order. -/
theorem Memory.writeRun_nil (m : Memory) (ws : List (Nat × Word)) :
    m.writeRun ws [] = m.writeWords ws := by
  induction ws generalizing m with
  | nil => rfl
  | cons p t ih =>
    simp only [Memory.writeRun, Memory.writeWords, List.headD_nil, List.tail_nil]
    exact ih _

/-- With no computer writes in between, a run of reads changes no memory. -/
theorem Memory.readRun_nil (m : Memory) (as : List Nat) :
    m.readRun as [] = (m, as.map m.readWord) := by
  induction as with
  | nil => rfl
  | cons a t ih =>
    have hh : m.hostWrites (([] : BusTraffic).headD []) = m := rfl
    simp only [Memory.readRun, hh, List.tail_nil, ih, List.map_cons]

/-- A run of reads gives one word per address. -/
theorem Memory.readRun_length (m : Memory) (as : List Nat) (bus : BusTraffic) :
    (m.readRun as bus).2.length = as.length := by
  induction as generalizing m bus with
  | nil => rfl
  | cons a t ih => simp only [Memory.readRun, List.length_cons, ih]

end Sys2Proof.Machine
end

