-- ==== Sys2Proof/Laws/Spec.lean ====
section
/-!
SUPPORT. What the shared operations do, said once each: the arms of `exec`, the report FIFO, the causes, the
window stack, the checks of a copy, what of TGN's state the works of a boundary leave, the port, and a load's
effects.
-/

namespace Sys2Proof.Machine

/-! ## The arms of `exec` that are one shared operation -/

theorem exec_lineEnd (x : LineInputs) (s : State) : exec (.lineEnd x) s = .next (lineEndWork x s) := rfl
theorem exec_flywheelLimit (x : LineInputs) (s : State) :
    exec (.flywheelLimit x) s = .next (if s.flywheelHere x then lineEndWork x s else s) := rfl
theorem exec_missedFields (x : LineInputs) (s : State) :
    exec (.missedFields x) s = .next (if s.missedHere x then lineEndWork x s else s) := rfl
theorem exec_scanPoint (x : LineInputs) (s : State) :
    exec (.scanPoint x) s = .next (if s.scanNow x then lineEndWork x s else s) := rfl
theorem exec_fieldBoundary (x : LineInputs) (s : State) :
    exec (.fieldBoundary x) s = .next (if (gridStep x s).s.endsField then lineEndWork x s else s) := rfl
theorem exec_holdoverExpiry (x : LineInputs) (s : State) :
    exec (.holdoverExpiry x) s = .next (if s.expiresHere x then lineEndWork x s else s) := rfl
theorem exec_testNolock (x : LineInputs) (s : State) :
    exec (.testNolock x) s = .next (if s.nolockNow x then lineEndWork x s else s) := rfl
theorem exec_waitendExpired (x : LineInputs) (s : State) :
    exec (.waitendExpired x) s = .next (if s.waitendHere x then lineEndWork x s else s) := rfl
theorem exec_dotEdge (b : Byte) (s : State) :
    exec (.dotEdge b) s = .next (if s.dotIssued then dotEdge b s else s) := rfl
theorem exec_requestGrant (s : State) : exec .requestGrant s = .next (grant s) := rfl
theorem exec_recordWrite (s : State) : exec .recordWrite s = .next (writeRecord s) := rfl

/-! ## Arithmetic -/

theorem satSucc_le {cap n : Nat} (_h : n ≤ cap) : satSucc cap n ≤ cap := by
  unfold satSucc; split <;> omega
theorem clampN_bounds {x lo hi : Nat} (h : lo ≤ hi) : lo ≤ clampN x lo hi ∧ clampN x lo hi ≤ hi := by
  unfold clampN; (repeat' split) <;> omega
theorem clampI_bounds {x lo hi : Int} (h : lo ≤ hi) : lo ≤ clampI x lo hi ∧ clampI x lo hi ≤ hi := by
  unfold clampI; (repeat' split) <;> omega
/-- A slew step never leaves the span between where it is and its goal (R25). -/
theorem moveToward_between (x goal : Int) (step : Nat) :
    min x goal ≤ moveToward x goal step ∧ moveToward x goal step ≤ max x goal := by
  unfold moveToward; (repeat' split) <;> omega

/-! ## The report FIFO and the causes (R165, R166, R175) -/

@[simp] theorem Rpw.produce_frame (r : Rpw) (rec : Report) :
    (r.produce rec).base = r.base ∧ (r.produce rec).len = r.len ∧ (r.produce rec).put = r.put ∧
    (r.produce rec).lastGet = r.lastGet ∧ (r.produce rec).trigger = r.trigger ∧
    (r.produce rec).matchList = r.matchList ∧ (r.produce rec).fullWait = r.fullWait ∧
    (r.produce rec).badGet = r.badGet ∧ (r.produce rec).suspended = r.suspended ∧
    (r.produce rec).getDue = r.getDue ∧ (r.produce rec).putDue = r.putDue ∧
    (r.produce rec).ended = r.ended ∧ (r.produce rec).status = r.status ∧
    (r.produce rec).latched = r.latched ∧ (r.produce rec).seen = r.seen ∧
    (r.produce rec).enabled = r.enabled := by
  unfold Rpw.produce; split <;> simp

/-- The FIFO after a record: with it behind the newest, or as it was when full (R165). -/
theorem Rpw.produce_fifo (r : Rpw) (rec : Report) :
    (r.produce rec).fifo =
      if r.fifo.length < 8 then r.fifo ++ [⟨rec, r.closingGap rec.stamp⟩] else r.fifo := by
  unfold Rpw.produce Rpw.accepts
  by_cases h : r.fifo.length < 8 <;> simp [h]

/-- The FIFO never holds more than eight records (R165). -/
theorem Rpw.produce_length {r : Rpw} (rec : Report) (h : r.fifo.length ≤ 8) :
    (r.produce rec).fifo.length ≤ 8 := by
  rw [Rpw.produce_fifo]
  split
  · simp; omega
  · exact h

@[simp] theorem Rpw.latch_frame (r : Rpw) (c : Cause) :
    (r.latch c).fifo = r.fifo ∧ (r.latch c).withheld = r.withheld ∧ (r.latch c).openGap = r.openGap ∧
    (r.latch c).openStamp = r.openStamp ∧ (r.latch c).gapPending = r.gapPending ∧
    (r.latch c).base = r.base ∧ (r.latch c).len = r.len ∧ (r.latch c).put = r.put ∧
    (r.latch c).lastGet = r.lastGet ∧ (r.latch c).trigger = r.trigger ∧
    (r.latch c).matchList = r.matchList ∧ (r.latch c).fullWait = r.fullWait ∧
    (r.latch c).badGet = r.badGet ∧ (r.latch c).suspended = r.suspended ∧
    (r.latch c).getDue = r.getDue ∧ (r.latch c).putDue = r.putDue ∧ (r.latch c).ended = r.ended ∧
    (r.latch c).status = r.status ∧ (r.latch c).enabled = r.enabled ∧
    (r.latch c).latched = r.latched ||| c.bit := by
  simp [Rpw.latch]

@[simp] theorem Rpw.acknowledge_frame (r : Rpw) (b : Bool) :
    (r.acknowledge b).fifo = r.fifo ∧ (r.acknowledge b).withheld = r.withheld ∧
    (r.acknowledge b).openGap = r.openGap ∧ (r.acknowledge b).openStamp = r.openStamp ∧
    (r.acknowledge b).gapPending = r.gapPending ∧ (r.acknowledge b).put = r.put ∧
    (r.acknowledge b).len = r.len := by
  simp [Rpw.acknowledge]

/-- Records handed in order only add to the FIFO, and keep it within eight (R165). -/
theorem produceAll_fifo (rs : List Report) (s : State) :
    ∃ t, (produceAll rs s).rpw.fifo = s.rpw.fifo ++ t := by
  induction rs generalizing s with
  | nil => exact ⟨[], by simp [produceAll]⟩
  | cons r rs ih =>
    obtain ⟨t, ht⟩ := ih (produce r s)
    rw [show produceAll (r :: rs) s = produceAll rs (produce r s) from rfl, ht,
      show (produce r s).rpw.fifo = _ from Rpw.produce_fifo _ _]
    split
    · exact ⟨[⟨r.stamped s.tgn.stamp, s.rpw.closingGap s.tgn.stamp⟩] ++ t, by simp [Report.stamped]⟩
    · exact ⟨t, rfl⟩

theorem produceAll_length (rs : List Report) (s : State) (h : s.rpw.fifo.length ≤ 8) :
    (produceAll rs s).rpw.fifo.length ≤ 8 := by
  induction rs generalizing s with
  | nil => exact h
  | cons r rs ih => exact ih _ (Rpw.produce_length _ h)

/-- Production leaves the causes, the descriptor and the writer's flags alone. -/
@[simp] theorem produceAll_rpw_frame (rs : List Report) (s : State) :
    (produceAll rs s).rpw.latched = s.rpw.latched ∧ (produceAll rs s).rpw.seen = s.rpw.seen ∧
    (produceAll rs s).rpw.enabled = s.rpw.enabled ∧ (produceAll rs s).rpw.put = s.rpw.put ∧
    (produceAll rs s).rpw.len = s.rpw.len ∧ (produceAll rs s).rpw.base = s.rpw.base ∧
    (produceAll rs s).rpw.lastGet = s.rpw.lastGet ∧ (produceAll rs s).rpw.trigger = s.rpw.trigger ∧
    (produceAll rs s).rpw.matchList = s.rpw.matchList ∧
    (produceAll rs s).rpw.fullWait = s.rpw.fullWait ∧ (produceAll rs s).rpw.badGet = s.rpw.badGet ∧
    (produceAll rs s).rpw.suspended = s.rpw.suspended ∧ (produceAll rs s).rpw.status = s.rpw.status ∧
    (produceAll rs s).rpw.getDue = s.rpw.getDue ∧ (produceAll rs s).rpw.putDue = s.rpw.putDue ∧
    (produceAll rs s).rpw.ended = s.rpw.ended := by
  induction rs generalizing s with
  | nil => simp [produceAll]
  | cons r t ih => simp [produceAll, ih, produce]

/-! ## The window stack (R127, R128, R138, R139) -/

@[simp] theorem Slot.window_update (f : Window → Window) (x : Slot) :
    (x.update f).window = x.window.map f := by cases x <;> rfl
@[simp] theorem Slot.isEmpty_update (f : Window → Window) (x : Slot) : (x.update f).isEmpty = x.isEmpty := by
  cases x <;> rfl
theorem Slot.window_eq_none {x : Slot} : x.window = none ↔ x.isEmpty = true := by
  cases x <;> simp [Slot.window, Slot.isEmpty]

@[simp] theorem Stack.put_top (st : Stack) (i : Fin 8) (x : Slot) : (st.put i x).top = st.top := rfl
@[simp] theorem Stack.slot_put_self (st : Stack) (i : Fin 8) (x : Slot) : (st.put i x).slot i = x := by
  simp [Stack.slot, Stack.put, Stack.at]
theorem Stack.slot_put_of_ne (st : Stack) {i j : Fin 8} (x : Slot) (h : j ≠ i) :
    (st.put i x).slot j = st.slot j := by
  have h' : (st.top + i).val ≠ (st.top + j).val := by
    intro e
    exact h (add_left_cancel (Fin.ext e)).symm
  simp [Stack.slot, Stack.put, Stack.at, h']

@[simp] theorem Stack.stepAll_top (g : Stamp) (st : Stack) : (st.stepAll g).top = st.top := rfl
/-- WSK's boundary work steps the window at every depth (R139). -/
@[simp] theorem Stack.stepAll_slot (g : Stamp) (st : Stack) (i : Fin 8) :
    (st.stepAll g).slot i = (st.slot i).update (Window.stepFor g) := by
  simp [Stack.slot, Stack.stepAll, Stack.at]

@[simp] theorem Window.stepFor_mark (g : Stamp) (w : Window) : (w.stepFor g).mark = g := by
  unfold Window.stepFor; split <;> simp_all
/-- A window's step for a boundary is taken once (R139). -/
@[simp] theorem Window.stepFor_stepFor (g : Stamp) (w : Window) :
    (w.stepFor g).stepFor g = w.stepFor g := by
  rw [Window.stepFor, if_pos (Window.stepFor_mark g w)]

/-- A step leaves geometry, mode, bank, target, tag and mark (R138). -/
@[simp] theorem Window.fadeStep_frame (w : Window) :
    w.fadeStep.top = w.top ∧ w.fadeStep.bottom = w.bottom ∧ w.fadeStep.left = w.left ∧
    w.fadeStep.right = w.right ∧ w.fadeStep.mode = w.mode ∧ w.fadeStep.bank = w.bank ∧
    w.fadeStep.target = w.target ∧ w.fadeStep.tag = w.tag ∧ w.fadeStep.mark = w.mark := by
  unfold Window.fadeStep; split <;> simp

/-! ## The checks of a copy (R179 to R182) -/

theorem onFault_masked {k : FaultKind} {c : Copy} {s : State} {f : State → CopyResult}
    (h : s.masked k = true) : onFault k c s f = f s := by simp [onFault, h]
theorem onFault_unmasked {k : FaultKind} {c : Copy} {s : State} {f : State → CopyResult}
    (h : s.masked k = false) : onFault k c s f = (faultHalt k c s, .halted) := by simp [onFault, h]

/-! ## TGN's state at a boundary (R60, R64, R65) -/

/-- A BROAD arrival moves nothing of TGN but the length of the field in progress (R51). -/
theorem broadArrival_tgn (e : Pu) (s : State) :
    ∃ n, (broadArrival e s).tgn = { s.tgn with length := n } := by
  unfold broadArrival
  simp only
  split
  · exact ⟨s.tgn.length, rfl⟩
  · exact ⟨s.tgn.length, rfl⟩
  · exact ⟨s.tgn.length, rfl⟩
  · split
    · rw [(produceAll_frame _ _).2.2.2.1]
      exact ⟨_, rfl⟩
    · exact ⟨s.tgn.length, rfl⟩
/-- FAL's boundary work sets the length of the field that begins (R50). -/
theorem falBoundary_tgn (s : State) : ∃ n, (falBoundary s).tgn = { s.tgn with length := n } := ⟨_, rfl⟩

theorem kindEffect_tgn (isIdle : Bool) (k : CueKind) (c : Copy) (s : State) :
    ∃ a b, (kindEffect isIdle k c s).1.tgn = { s.tgn with out1 := a, out2 := b } := by
  cases k <;> simp only [kindEffect] <;>
    first
      | exact ⟨_, _, rfl⟩
      | exact ⟨s.tgn.out1, s.tgn.out2, by simp⟩

theorem judgeCopy_tgn (isIdle : Bool) (c : Copy) (s : State) :
    ∃ a b, (judgeCopy isIdle c s).1.tgn = { s.tgn with out1 := a, out2 := b } := by
  have late : ∀ r, ∃ a b, (kindEffect isIdle r c (produce (repLate c.words) s)).1.tgn =
      { s.tgn with out1 := a, out2 := b } := fun r => by
    simpa using kindEffect_tgn isIdle r c (produce (repLate c.words) s)
  simp only [judgeCopy, badCue, onFault, skipWith]
  (repeat' split) <;>
    first
      | exact kindEffect_tgn isIdle _ c s
      | exact late _
      | exact ⟨s.tgn.out1, s.tgn.out2, by simp⟩

/-- A copy moves nothing of TGN but the cue levels of the OUT lines (R124). -/
theorem execCopy_tgn (isIdle : Bool) (c : Copy) (s : State) :
    ∃ a b, (execCopy isIdle c s).1.tgn = { s.tgn with out1 := a, out2 := b } := by
  obtain ⟨a, b, h⟩ := judgeCopy_tgn isIdle c s
  refine ⟨a, b, ?_⟩
  unfold execCopy
  split <;> rename_i e <;> rw [e] at h <;> simpa using h

theorem execDue_tgn (cs : List Copy) (s : State) :
    ∃ a b, (execDue cs s).1.tgn = { s.tgn with out1 := a, out2 := b } := by
  induction cs generalizing s with
  | nil => exact ⟨s.tgn.out1, s.tgn.out2, rfl⟩
  | cons c cs ih =>
    obtain ⟨a, b, h⟩ := execCopy_tgn false c s
    unfold execDue
    split <;> rename_i s1 n e <;> rw [e] at h
    · obtain ⟨a', b', h'⟩ := ih s1
      exact ⟨a', b', by simp only at h ⊢; rw [h', h]⟩
    · exact ⟨a, b, h⟩

theorem execIdle_tgn (c : Option Copy) (s : State) :
    ∃ a b, (execIdle c s).1.tgn = { s.tgn with out1 := a, out2 := b } := by
  unfold execIdle
  split
  · exact execCopy_tgn _ _ _
  · exact ⟨s.tgn.out1, s.tgn.out2, rfl⟩

/-- The cue engine's boundary work moves nothing of TGN but the cue levels of the OUT lines. -/
theorem engineBoundary_tgn (s : State) :
    ∃ a b, (engineBoundary s).1.tgn = { s.tgn with out1 := a, out2 := b } := by
  have run : ∃ a b, (runningBoundary s).1.tgn = { s.tgn with out1 := a, out2 := b } := by
    unfold runningBoundary
    split
    · exact ⟨s.tgn.out1, s.tgn.out2, by simp⟩
    · obtain ⟨a, b, h⟩ := execDue_tgn s.cue.due (clearDue (endScan s))
      obtain ⟨c, d, k⟩ := execIdle_tgn s.cue.idle (execDue s.cue.due (clearDue (endScan s))).1
      simp only
      split
      · exact ⟨c, d, by rw [k, h]; simp⟩
      · exact ⟨a, b, by rw [h]; simp⟩
  unfold engineBoundary
  (repeat' split) <;> first | exact run | exact ⟨s.tgn.out1, s.tgn.out2, by simp⟩

/-! ## A leading edge's fraction, STOP and grants at the port -/

/-- The fraction of an edge is one of R4's 0..16, the free value too. -/
theorem edgeFrac_le (level : Int) (s0 s1 : Byte) : edgeFrac level s0 s1 ≤ 16 := by
  unfold edgeFrac
  have : Config.edgeFraction level s0 s1 % 17 < 17 := Nat.mod_lt _ (by decide)
  dsimp only
  repeat' split
  all_goals omega

/-- An edge whose sample is S itself comes at the end of its tick. -/
@[simp] theorem edgeFrac_at_level (s0 s1 : Byte) : edgeFrac (s1.toNat : Int) s0 s1 = 16 := by simp [edgeFrac]

/-- R4's formula gives the fraction wherever it stays in 0..16. -/
theorem edgeFrac_formula (level : Int) (s0 s1 : Byte) (h : level ≠ s1.toNat) (d : s0 ≠ s1)
    (lo : 0 ≤ (16 * ((s0.toNat : Int) - level)).fdiv ((s0.toNat : Int) - s1.toNat))
    (hi : (16 * ((s0.toNat : Int) - level)).fdiv ((s0.toNat : Int) - s1.toNat) ≤ 16) :
    (edgeFrac level s0 s1 : Int) = (16 * ((s0.toNat : Int) - level)).fdiv ((s0.toNat : Int) - s1.toNat) := by
  simp [edgeFrac, h, d, lo, hi]

/-- All that STOP does at the port: no request waits at the cue engine or the key loader, and one of theirs
in service is gone or is cut to its word in flight, its first cut standing. -/
theorem Mpt.stop_spec (m : Mpt) (n : Nat) :
    (m.stop n).cueQ = [] ∧ (m.stop n).key = none ∧ (m.stop n).rpw = m.rpw ∧ (m.stop n).sta = m.sta ∧
    (∀ x, m.service = some x →
      (x.req.requester = .cue ∨ x.req.requester = .key →
        (m.stop n).service =
          if x.cut = none ∧ n = 0 then none else some { x with discard := true, cut := some (x.cut.getD n) }) ∧
      (¬(x.req.requester = .cue ∨ x.req.requester = .key) → (m.stop n).service = some x)) ∧
    (m.service = none → (m.stop n).service = none) := by
  refine ⟨rfl, rfl, rfl, rfl, fun x h => ⟨fun k => ?_, fun k => ?_⟩, fun h => ?_⟩ <;> simp [Mpt.stop, h]
  · rcases k with k | k <;> simp [k]
  · simp only [not_or] at k; simp [k]

/-- When a request in service can fail at word n. -/
theorem State.canFail_iff (s : State) (x : Service) (why : BusFailure) (n : Nat) (bus : BusTraffic) :
    s.canFail x why n bus = true ↔
      (x.cut = none → n < (s.runAddrs x.req bus).length) ∧
      ∀ k, x.cut = some k → n + 1 = k ∧ n < x.req.addrs.length ∧ why ≠ .notGranted := by
  unfold State.canFail
  cases h : x.cut <;> simp

/-- The words a request goes through are its first ones. -/
theorem State.runAddrs_prefix (s : State) (req : Request) (bus : BusTraffic) :
    s.runAddrs req bus <+: req.addrs := by
  unfold State.runAddrs
  split
  · split
    · exact List.prefix_rfl
    · exact List.prefix_append _ _
  · dsimp only
    split
    · exact (List.take_prefix _ _).trans (List.prefix_append _ _)
    · split
      · exact List.prefix_rfl
      · exact List.prefix_append _ _
  · exact List.prefix_rfl

/-- A word that a STOP leaves in flight is one that can still fail (R95, R96). -/
theorem State.stop_leaves_a_word (s : State) (x y : Service) (why : BusFailure) (bus : BusTraffic)
    (hx : s.mpt.service = some x) (fresh : x.cut = none) (k : Nat) (hy : (s.mpt.stop s.wordsAtStop).service = some y)
    (cut : y.cut = some k) (bussed : why ≠ .notGranted) (t : State) : t.canFail y why (k - 1) bus = true := by
  have len := (s.runAddrs_prefix x.req []).length_le
  have hk : s.wordsAtStop ≤ (s.runAddrs x.req []).length := by simp [State.wordsAtStop, hx]
  simp only [Mpt.stop, hx, fresh, Option.bind_some, Option.getD_none, true_and] at hy
  split at hy
  · split at hy
    · cases hy
    · cases hy
      cases cut
      simp [State.canFail, bussed]; omega
  · cases hy; simp [fresh] at cut

/-- An idle port grants what `Mpt.choose` gives it; any other grants nothing. -/
theorem grant_spec (s : State) :
    (∀ r m, s.mpt.service = none → s.mpt.choose = some (r, m) →
      grant s = { s with mpt := { m with service := some ⟨r, false, s.rfe.tick, none⟩ } }) ∧
    (s.mpt.service ≠ none ∨ s.mpt.choose = none → grant s = s) := by
  refine ⟨fun r m h k => by simp [grant, h, k], fun h => ?_⟩
  unfold grant
  split
  · rfl
  · rename_i e
    simp [e] at h
    simp [h]

/-! ## The effects of a load (R91) -/

/-- Records handed to RPW change nothing of the state but RPW's own part (R165). -/
theorem produceAll_eq (rs : List Report) (s : State) :
    produceAll rs s = { s with rpw := (produceAll rs s).rpw } := by
  induction rs generalizing s with
  | nil => rfl
  | cons r rs ih => rw [produceAll, ih]; rfl

/-- A source notice leaves LLL and FAL as a switch does, and the rest but the FIFO as it was (R42, R56, R190). -/
theorem sourceNotice_spec (s : State) :
    sourceNotice s = { s with
      lll := s.lll.switch.1, fal := (s.fal.enterSeek .switch).1, rpw := (sourceNotice s).rpw } := by
  conv_lhs => rw [sourceNotice, falSeek, produceAll_eq]
  simp [State.withLoop, sourceNotice, falSeek]

/-- An input policy that differs and names the other input makes it active; any other changes at most the
absence count (R16). -/
theorem policyArrival_spec (old new : Policy) (s : State) :
    (new = old → policyArrival old new s = s) ∧
    (new = .auto → new ≠ old → policyArrival old new s = { s with rfe := { s.rfe with absence := 0 } }) ∧
    (∀ i, new = .named i → new ≠ old → policyArrival old new s =
      if s.rfe.active = i then s else changeActive i .select s) := by
  unfold policyArrival
  refine ⟨fun h => by simp [h], fun h k => ?_, fun i h k => ?_⟩ <;> subst h <;> simp [k]

end Sys2Proof.Machine
end

