-- ==== Sys2Proof/Tests/Slice0.lean ====
section
/-!
SUPPORT. Tests on small states, each against a figure of the spec or a hand calculation from it, and the
witnesses: for each obligation with hypotheses a concrete state that meets them.
-/

namespace Sys2Proof.Tests

open Sys2Proof Sys2Proof.Machine

/-! ## Small states -/

/-- The part after strap-done. -/
def up : State := { State.reset with tgn := { State.reset.tgn with strapDone := true } }

/-- The state a command leaves. -/
def after (c : Instr) (s : State) : State :=
  match exec c s with
  | .next t => t
  | _ => s

def withLll (f : Lll → Lll) (s : State) : State := { s with lll := f s.lll }
def withFal (f : Fal → Fal) (s : State) : State := { s with fal := f s.fal }
def withTgn (f : Tgn → Tgn) (s : State) : State := { s with tgn := f s.tgn }
def withCue (f : Cue → Cue) (s : State) : State := { s with cue := f s.cue }
def withRpw (f : Rpw → Rpw) (s : State) : State := { s with rpw := f s.rpw }
def withSet (f : Settings → Settings) (s : State) : State :=
  { s with cue := { s.cue with settings := f s.cue.settings } }
def onA (f : RefInput → RefInput) (s : State) : State := s.setInput .a (f (s.input .a))
def serving (r : Request) (s : State) : State := { s with mpt := { s.mpt with service := some ⟨r, false, 0, none⟩ } }

/-- The engine RUNNING on a valid link with a queue of 8 at 16384 and a ring of 4 at 32768. -/
def live : State :=
  { up with
    cue := { up.cue with
      engine := .running, linkValid := true, link := 4096, qBase := 16384, qLen := 8, seenEmpty := false }
    rpw := { up.rpw with base := 32768, len := 4, lastGet := 3 } }

/-- The last line of the field in progress. -/
def lastLine (s : State) : State := withTgn (fun t => { t with line := t.length }) s

/-- The line end's inputs with HOLD and TALLY released. -/
def quiet : LineInputs := {}

/-- A report whose only content is its first word. -/
def rep (w0 : Word) : Report := { w0 := w0 }

/-! ## Well-formed operands: each check refuses an ill-formed term -/

theorem wf_blank_samples :
    (Instr.slicerUpdate .a [1, 2, 3]).wf = false ∧
    (Instr.slicerUpdate .a [1, 2, 3, 4, 5, 6, 7, 8]).wf = true := by decide
theorem wf_words_issued :
    (Instr.softReset false false 45).wf = false ∧ (Instr.softReset false false 44).wf = true := by decide
theorem wf_failing_word :
    (Instr.memoryFault .notGranted 44 false []).wf = false ∧
    (Instr.memoryFault .notGranted 43 false []).wf = true := by decide
theorem wf_even_addresses :
    (Instr.startupLoadComplete [[⟨5, 0⟩]]).wf = false ∧
    (Instr.startupLoadComplete [[⟨4, 0⟩]]).wf = true ∧
    (Instr.memoryFault .notGranted 0 false [[⟨5, 0⟩]]).wf = false := by decide
theorem wf_even_addresses_reads :
    (Instr.fillReadComplete [[⟨5, 0⟩]]).wf = false ∧ (Instr.cueRecordRead [[⟨5, 0⟩]]).wf = false ∧
    (Instr.idleCueRead [[⟨5, 0⟩]]).wf = false ∧ (Instr.keySourceWordRead [[⟨5, 0⟩]]).wf = false ∧
    (Instr.getReadComplete [[⟨5, 0⟩]]).wf = false := by decide
theorem wf_even_addresses_writes :
    (Instr.takeWriteComplete [[⟨5, 0⟩]]).wf = false ∧ (Instr.reportWriteComplete [[⟨5, 0⟩]]).wf = false ∧
    (Instr.lonePutWriteComplete [[⟨5, 0⟩]]).wf = false ∧
    (Instr.statusWordWriteComplete [[⟨5, 0⟩]]).wf = false := by decide

/-! ## Port words (spec/12_formats.md section 12.2, R196) -/

theorem test_decode_run_start : decodePortWrite 1 0x0101#16 0 = .run true false := by decide
theorem test_decode_stop_clear : decodePortWrite 1 0x0202#16 0 = .stop false true := by decide
theorem test_decode_continue : decodePortWrite 1 0x0003#16 0 = .continueRun false false := by decide
theorem test_decode_soft_reset : decodePortWrite 1 0x0004#16 3 = .softReset false false 3 := by decide
theorem test_decode_both_bits : decodePortWrite 1 0x0300#16 0 = .clear := by decide
theorem test_decode_start : decodePortWrite 1 0x0100#16 0 = .start := by decide
theorem test_decode_codes_5_to_7 :
    decodePortWrite 1 0xfcfd#16 0 = .noneFunction ∧ decodePortWrite 1 0x0106#16 0 = .start ∧
    decodePortWrite 1 0x0207#16 0 = .clear := by decide
theorem test_decode_other_ports :
    decodePortWrite 0 0x1234#16 0 = .linkAddressWrite 0x1234#16 ∧
    decodePortWrite 2 0x0001#16 0 = .ignoredPortWrite 0x0001#16 ∧
    decodePortRead 0 = some .linkAddressRead ∧ decodePortRead 2 = some .causePortRead ∧
    decodePortRead 1 = none ∧ decodePortRead 3 = none := by decide
/-- The table gives its rows no bits: no word spells a command. -/
theorem test_table_words : decodeTableWord 16 0x0101 = none := rfl

/-! ## Arithmetic (spec/00_scope.md) -/

/-- Ties go away from zero: 40 / 16 = 2.5 gives 3, −2.5 gives −3. -/
theorem test_round_ties : roundDiv 40 4 = 3 ∧ roundDiv (-40) 4 = -3 ∧ roundDiv 640 8 = 3 := by decide
theorem test_asr_floors : asr (-1) 3 = -1 ∧ asr (-8) 3 = -1 ∧ asr 7 3 = 0 := by decide
theorem test_move_toward : moveToward 2410 0 8 = 2402 ∧ moveToward (-3) 0 8 = 0 := by decide

/-! ## Main memory -/

theorem test_word_bytes :
    (Memory.writeWord [] 6 0x1234#16).readByte 6 = 0x34#8 ∧
    (Memory.writeWord [] 6 0x1234#16).readByte 7 = 0x12#8 := by decide
theorem test_zero_is_unlisted : (Memory.writeWord [(6, 0x34#8)] 6 0x1200#16) = [(7, 0x12#8)] := by decide
theorem test_wrap_at_the_top : (Memory.writeWord [] (2 ^ 24 - 2) 0xabcd#16).wf := by decide
/-- A write of the computer that lands before the second word is read is seen by it (R109). -/
theorem test_read_run_traffic :
    (Memory.readRun [] [0, 2] [[], [⟨2, 7⟩]]).2 = [0, 7] ∧
    (Memory.readRun [] [0, 2] [[], [⟨0, 7⟩]]).2 = [0, 0] := by decide

/-! ## Start-up and ports -/

theorem test_power_on_strap_standard :
    (after (.powerOn ⟨3, 0⟩) up).rfe.working = .s525 ∧
    (after (.powerOn ⟨3, 0⟩) up).cue.settings.stdMode = .force .s525 := by decide
theorem test_power_on_test_strap :
    (after (.powerOn ⟨0, 1⟩) up).tst.lockTime = some 0 ∧ (after (.powerOn ⟨0, 3⟩) up).tst.mode = .bars := by
  decide
theorem test_strap_done :
    (after .strapDone State.reset).tgn.strapDone = true ∧
    (after .strapDone State.reset).rfe.tick = 1024 := by decide
/-- Two writes load 24 bits, the second half's bits 8 to 15 disregarded (R78, R196). -/
theorem test_link_address_write :
    (after (.linkAddressWrite 0xff20#16) (after (.linkAddressWrite 0x8000#16) up)).cue.link = 0x208000#24 := by
  decide
theorem test_link_address_write_running :
    (after (.linkAddressWrite 0x8000#16) live).cue.link = 4096 := by decide
theorem test_link_address_read :
    (after .linkAddressRead (withCue (fun c => { c with link := 0x208000#24, second := true }) up)).readData
      = 0x0020#16 := by decide
theorem test_run_starts :
    (after (.run false false) up).cue.startup = true ∧
    (after (.run false false) up).mpt.cueQ = [.startupLoad 0] := by decide
theorem test_run_before_strap_done : (after (.run false false) State.reset).cue.engine = .stopped := by decide
theorem test_stop_drops_requests :
    (after (.stop false false) (postCue (.fillRead 0 0) live)).mpt.cueQ = [] ∧
    (after (.stop false false) live).cue.engine = .stopped := by decide
theorem test_continue_posts_take :
    (after (.continueRun false false)
      (withCue (fun c => { c with engine := .halted, haltReason := some .halt, take := 5 }) live)).mpt.cueQ
      = [.takeWrite 4104 5] := by decide
theorem test_continue_needs_link :
    (after (.continueRun false false)
      (withCue (fun c => { c with engine := .halted, linkValid := false }) live)).cue.engine = .halted := by
  decide
theorem test_soft_reset_slicer :
    ((after (.softReset true true 0) live).input .b).slicer = ⟨0, 255, 255, 127⟩ ∧
    (after (.softReset true true 0) live).rpw.enabled = false := by decide
/-- One word of a take write already on the bus lands; none otherwise (R96). -/
theorem test_soft_reset_word_issued :
    (after (.softReset false false 1) (serving (.takeWrite 8 5) live)).mem = [(8, 5)] ∧
    (after (.softReset false false 0) (serving (.takeWrite 8 5) live)).mem = [] := by decide
theorem test_none_function : (after .noneFunction (withCue (fun c => { c with second := true }) up)).cue.second = false := by
  decide
/-- Section 9.6.1: REPORT_TRIGGER acknowledged, MATCH latched again after the read survives. -/
theorem test_acknowledge_survivor :
    (after .start (latch .matched (after .causePortRead
      (latch .matched (latch .reportTrigger up))))).rpw.latched = 0x08#8 := by decide
theorem test_start_enables : (after .start (latch .halt up)).irq = true := by decide
theorem test_clear_inhibits : (after .clear (latch .halt up)).irq = false := by decide
theorem test_cause_read_clears_input_change :
    (after .causePortRead (latch .inputChange (latch .memory up))).readData = 0x00a0#16 ∧
    (after .causePortRead (latch .inputChange (latch .memory up))).rpw.latched = 0x20#8 := by decide
theorem test_ignored_port_write : (after (.ignoredPortWrite 0x0004#16) live).cue.engine = .running := by decide
/-- Section 12.2: RUNNING with a valid link, and HALTED for BUSY, code 14. -/
theorem test_summary :
    live.summary = 0x0012#16 ∧
    (withCue (fun c => { c with engine := .halted, haltReason := some (.fault .busy) }) live).summary
      = 0x001e#16 := by decide
theorem test_identity : (after .strapDone State.reset).identity = 0x8001#16 := by decide

/-! ## The reference front end (spec/01, section 1.2.1) -/

/-- Section 1.2.1: S = 48, T = 16, B = 80. -/
def figSlicer : RefInput → RefInput := fun r => { r with slicer := ⟨16, 80, 64, 48⟩, classifier := .armed }

theorem test_classifier_armed :
    ((after (.classifierArmed .a 999 49) (onA (fun r => { r with slicer := ⟨16, 80, 64, 48⟩ }) up)).input .a).classifier
      = .armed ∧
    ((after (.classifierArmed .a 999 48) (onA (fun r => { r with slicer := ⟨16, 80, 64, 48⟩ }) up)).input .a).classifier
      = .disarmed := by decide
theorem test_leading_edge :
    ((after (.leadingEdge .a 1000 72 30) (onA figSlicer up)).input .a).classifier = .inPulse 16009 30 ∧
    (after (.leadingEdge .a 1000 72 30) (onA figSlicer up)).rfe.tick = 1001 := by decide
theorem test_leading_edge_at_the_level :
    ((after (.leadingEdge .a 1000 72 48) (onA figSlicer up)).input .a).classifier = .inPulse 16016 48 := by
  decide
/-- A new pulse at tick 1190 abandons the update of u = 1170. -/
theorem test_leading_edge_abandons :
    ((after (.leadingEdge .a 1189 72 30)
      (onA (fun r => { figSlicer r with measure := some ⟨14, 1170⟩ }) up)).input .a).measure = none := by decide

/-- S raised past s0 at u + 23 since s0 was compared: the edge is found all the same (R4, log 39). -/
theorem test_leading_edge_after_an_update :
    (match ((after (.leadingEdge .a 1000 40 30) (onA figSlicer up)).input .a).classifier with
      | .inPulse _ tip => tip.toNat
      | _ => 0) = 30 := by decide

/-- The ends of R4's range with S raised to s0 or past it: s0 = S gives 0, and s1 = S gives 16. -/
theorem test_leading_edge_ends :
    ((after (.leadingEdge .a 1000 48 30) (onA figSlicer up)).input .a).classifier = .inPulse 16000 30 ∧
    ((after (.leadingEdge .a 1000 40 48) (onA figSlicer up)).input .a).classifier = .inPulse 16016 48 := by decide

/-- The pulse of section 1.2.1, with an earlier LINE edge one nominal line before it. -/
def inPulse : State :=
  onA (fun r => { figSlicer r with classifier := .inPulse 16009 30, lastEdge := some (16009 - 36864) }) up

theorem test_pulse_line :
    ((after (.pulseClassification .a 1170 49 14) inPulse).input .a).measure = some ⟨14, 1170⟩ ∧
    ((after (.pulseClassification .a 1170 49 14) inPulse).input .a).spacingSum = 2304 ∧
    (after (.pulseClassification .a 1170 49 14) inPulse).lll.capture = some ⟨.free, 16009, 1170, none⟩ := by
  decide
/-- The widths at the class limits (R5). -/
theorem test_pulse_widths :
    [39, 40, 127, 128, 255, 256, 599, 600, 1500].map pulseClass =
      [.noise, .equalising, .equalising, .line, .line, .noise, .noise, .broad, .broad] := by decide
theorem test_pulse_overrun :
    ((after (.pulseOverrun .a) inPulse).input .a).classifier = .disarmed ∧
    (after (.pulseOverrun .a) inPulse).rfe.tick = 2501 := by decide
theorem test_slicer_update :
    ((after (.slicerUpdate .a [98, 98, 98, 98, 98, 99, 99, 99])
      (onA (fun r => { figSlicer r with measure := some ⟨14, 1170⟩ }) up)).input .a).slicer
      = ⟨15, 82, 67, 48⟩ := by decide

/-- Input A with 312 LINE pulses of 2304 ticks, present before. -/
def counted : State :=
  onA (fun r => { r with present := true, lineCount := 312, spacingCount := 311, spacingSum := 311 * 2304 }) up

theorem test_window_present :
    ((after .windowEnd counted).input .a).present = true ∧
    ((after .windowEnd counted).input .a).detected = some .s625 ∧
    (after .windowEnd counted).rfe.windowAt = 1440000 := by decide
theorem test_window_lost :
    ((after .windowEnd (onA (fun r => { r with present := true, lineCount := 199 }) up)).rpw.fifo.map
      (fun x => x.report.w0)) = [0x0102#16] ∧
    (after .windowEnd (onA (fun r => { r with present := true, lineCount := 199 }) up)).rpw.latched = 0x80#8 := by
  decide
theorem test_detect_525 :
    detectStandard 100 228800 = some .s525 ∧ detectStandard 99 228096 = none ∧
    detectStandard 100 229500 = none := by decide

/-! ## The line lock loop (spec/02, sections 2.3.1, 2.4.1, 2.5.1) -/

/-- A loop in TRACK with an accepted error. -/
def tracking (e : Int) (s : State) : State :=
  withLll (fun l => { l with loop := .track, accepted := some e }) s

/-- The three lines of section 2.3.1. -/
def line1 : State := after (.lineEnd quiet) (withLll (fun l => { l with nextIdeal := 0 }) (tracking 40 up))
def line2 : State := after (.lineEnd quiet) (tracking 30 line1)
def line3 : State := after (.lineEnd quiet) (tracking (-24) line2)

theorem test_line_1 : line1.lll.p = 589827 ∧ line1.lll.nextIdeal = 589907 := by decide
theorem test_line_2 : line2.lll.p = 589829 ∧ line2.lll.nextIdeal = 1179796 := by decide
theorem test_line_3 : line3.lll.p = 589827 ∧ line3.lll.nextIdeal = 1769575 := by decide
theorem test_line_tick : line2.tgn.lineStart = 2304 ∧ line2.tgn.line = 3 := by decide
theorem test_pull_limit :
    let s := after (.lineEnd quiet) (withSet (fun t => { t with ki := 4 })
      (withLll (fun l => { l with p := 598900, nextIdeal := 0 }) (tracking 600 up)))
    s.lll.p = 599040 ∧ s.lll.nextIdeal = 600240 ∧ s.rpw.fifo.map (fun x => x.report.w6) = [1] := by decide

/-- A line in TRACK or COAST whose first stray has this offset. -/
def straying (o : Int) (s : State) : State := withLll (fun l => { l with lineStray := some o }) s

def stray1 : State := after (.lineEnd quiet) (straying 2400 (withLll (fun l => { l with loop := .track }) up))
def stray2 : State := after (.lineEnd quiet) (straying 2390 stray1)
def stray3 : State := after (.lineEnd quiet) (straying 2410 stray2)

theorem test_stray_record :
    stray1.lll.stray = some ⟨1, 2400⟩ ∧ stray2.lll.stray = some ⟨2, 2390⟩ ∧ stray2.lll.flywheel = 2 := by decide
theorem test_slewed_step :
    stray3.lll.c = 2402 ∧ stray3.lll.loop = .track ∧
    stray3.rpw.fifo.map (fun x => (x.report.w5, x.report.w6)) = [(2410, 2410)] := by decide

/-- Section 2.5.1 before pulse 5. -/
def capturing : Lll :=
  { up.lll with
    loop := .capture, ideal := 4718592, nextIdeal := 5308416
    capture := some ⟨.free, 270891, 17100, some 36859⟩ }

theorem test_capture_snap :
    (capturing.arrive up.cue.settings .s625 9 307757 19404).1.p = 589856 ∧
    (capturing.arrive up.cue.settings .s625 9 307757 19404).1.nextIdeal = 5513968 ∧
    (capturing.arrive up.cue.settings .s625 9 307757 19404).1.settling = true := by decide
theorem test_capture_restarts :
    (capturing.arrive up.cue.settings .s625 9 308053 19404).1.capture = some ⟨.free, 308053, 19404, some 37162⟩ := by
  decide
theorem test_capture_abandon :
    (after .captureAbandon { up with lll := capturing }).lll.loop = .free ∧
    (after .captureAbandon { up with lll := capturing }).rfe.tick = 19440 := by decide
/-- Pulse 6: E = 344623, the edge at 344631 is accepted with e = +8. -/
theorem test_arrival_accepted :
    (({ up.lll with loop := .track, ideal := 5513968, p := 589856 } : Lll).arrive up.cue.settings .s625 10
      344631 21709).1.accepted = some 8 := by decide
theorem test_pull_range : Standard.s625.pMax = 599040 ∧ Standard.s625.pMin = 580608 ∧
    Standard.s625.lenMax = 608256 := by decide

/-- The flywheel limit of 16: the sixteenth line without a pulse. -/
def coasting (n : Nat) : State := withLll (fun l => { l with loop := .coast, flywheel := n }) up

theorem test_flywheel_limit :
    (after (.flywheelLimit quiet) (coasting 15)).lll.loop = .holdover ∧
    (after (.flywheelLimit quiet) (coasting 14)).lll.loop = .coast ∧
    (after (.flywheelLimit quiet) (coasting 14)).tgn.line = 1 := by decide
theorem test_holdover_expiry :
    let s := lastLine (withLll (fun l => { l with loop := .holdover, p := 590000, holdover := 49 }) up)
    (after (.holdoverExpiry quiet) s).lll.loop = .free ∧ (after (.holdoverExpiry quiet) s).lll.p = 589824 := by
  decide

/-! ## The field aligner (spec/03, section 3.4.1) -/

/-- Field 1000 of section 3.4.1: field 1 of 313 lines, line 7 in progress. -/
def field1000 : FieldCtx :=
  { std := .s625, parity := .one, length := 313, line := 7, vOffset := 0, vert := .jump }

/-- The start detected at line 7: reference field 2, anchor 5. -/
def start1000 : BroadRecord := { first := 0, anchor := 5, parity := .two, count := 2 }

theorem test_start_mismatch :
    field1000.misalignment .two (start1000.aligned field1000) = -307 ∧
    (({} : Fal).handleStart field1000 start1000).fal.shift = -307 ∧
    (({} : Fal).handleStart field1000 start1000).length = 313 := by decide
theorem test_field_1001_length :
    ({ field := .align, shift := -307 } : Fal).nextLength .s625 .two false = (20, -15) := by decide
theorem test_start_confirmed :
    ({ field1000 with parity := .two, length := 20 } : FieldCtx).misalignment .one 5 = -15 := by decide
theorem test_field_1002_length :
    ({ field := .align, shift := -15 } : Fal).nextLength .s625 .one false = (298, 0) := by decide
theorem test_start_locks :
    (({ field := .align } : Fal).handleStart { field1000 with parity := .two, length := 312, line := 1 }
      { start1000 with anchor := -1 }).fal.field = .lock := by decide
/-- The trick-mode field: Δ = −3 with line 311 in progress stays pending. -/
theorem test_trick_mode_adjust :
    let r := ({ field := .lock } : Fal).handleStart { field1000 with parity := .two, length := 312, line := 311 }
      { first := 0, anchor := 309, parity := .one, count := 2 }
    r.fal.shift = -3 ∧ r.length = 312 ∧ r.reports.map (fun x => (x.w0, x.w5, x.w6)) = [(0x0302#16, 0xfffd#16, 0)] := by
  decide
/-- Section 3.3: a WHOLE shift of −9 at line 303 of 313 ends the field after line 304. -/
theorem test_whole_shift_applied :
    (({} : Fal).applyShift { field1000 with line := 303 } (-9) .whole).length = 304 := by decide

/-- F_ALIGN with three misses, line 16 ending. -/
def missing : State :=
  withFal (fun f => { f with field := .align, miss := 3 }) (withTgn (fun t => { t with line := 16 }) up)

theorem test_missed_fields :
    (after (.missedFields quiet) missing).fal.field = .seek ∧
    (after (.missedFields quiet) missing).rpw.fifo.map (fun x => (x.report.w5, x.report.w7)) = [(0, 4)] := by
  decide
theorem test_missed_fields_not_yet :
    (after (.missedFields quiet) (withFal (fun f => { f with miss := 2 }) missing)).tgn.line = 16 := by decide

/-! ## Generated timing (spec/04, sections 4.2.1 and 4.3.1) -/

/-- Field 1000 of 313 lines, scan lines 8: the scan point is the end of line 305. -/
theorem test_scan_point :
    (after (.scanPoint quiet) (withTgn (fun t => { t with line := 305 }) live)).cue.scan = some ⟨1, 0⟩ ∧
    (after (.scanPoint quiet) (withTgn (fun t => { t with line := 304 }) live)).tgn.line = 304 := by decide
theorem test_field_boundary :
    (after (.fieldBoundary quiet) (lastLine up)).tgn.stamp = 1 ∧
    (after (.fieldBoundary quiet) (lastLine up)).tgn.parity = .two ∧
    (after (.fieldBoundary quiet) (lastLine up)).tgn.length = 312 := by decide
theorem test_line_end_inside_the_field : (after (.lineEnd quiet) up).tgn.line = 2 := by decide

/-- Section 4.3.1: the second measured line. -/
def dotLine (x : Nat) : State :=
  withTgn (fun t => { t with lineStart := 2304, nextDot := x, delay := 0 })
    (withLll (fun l => { l with ideal := 589907, nextIdeal := 1179796 }) up)

theorem test_dot_instants :
    (dotLine 0).dotInstant 0 = 42917 ∧ (dotLine 0).dotInstant 1 = 42962 ∧
    (dotLine 0).dotInstant 639 = 71672 := by decide
theorem test_dot_edge :
    (after (.dotEdge 0) (dotLine 639)).rfe.tick = 4479 ∧ (after (.dotEdge 0) (dotLine 639)).tgn.keyUntil = 4482 ∧
    (after (.dotEdge 0) (dotLine 640)).tgn.edgeCount = 0 := by decide
theorem test_bars_bands :
    barsLevel 640 79 = 0 ∧ barsLevel 640 80 = 9 ∧ barsLevel 640 639 = 64 ∧ barsLevel 300 37 = 0 ∧
    barsLevel 300 38 = 9 := by decide
theorem test_blank_and_hs :
    (({ dotLine 0 with rfe := { up.rfe with tick := 2472 } } : State)).hs = true ∧
    (({ dotLine 0 with rfe := { up.rfe with tick := 2473 } } : State)).hs = false ∧
    (({ withTgn (fun t => { t with line := 24 }) (dotLine 0) with rfe := { up.rfe with tick := 2682 } } : State)).blank
      = false ∧
    (({ withTgn (fun t => { t with line := 24 }) (dotLine 0) with rfe := { up.rfe with tick := 4482 } } : State)).blank
      = true := by decide

/-! ## The test unit (spec/11) -/

/-- A line cut short at tick 2304 inside its active span keeps KEY until the span's end (R71). -/
def shortLine (until_ : Tick) : State := withTgn (fun t => { t with key := 40, keyUntil := until_ }) up

theorem test_key_across_a_short_line :
    (after (.lineEnd quiet) (shortLine 2305)).tgn.key = 40 ∧ (after (.lineEnd quiet) (shortLine 2305)).keyPin = 40 ∧
    (after (.lineEnd quiet) (shortLine 2304)).tgn.key = 0 := by decide

/-- INTERNAL_LOOP with both records open. -/
def looping : State :=
  { up with tst := { mode := .internalLoop, count := some ⟨0, 0⟩, lockTime := some 0, lines := [0], run := [1600] } }

theorem test_tst_line_arrival :
    (after .tstLineArrival looping).lll.capture = some ⟨.free, 0, 170, none⟩ ∧
    (after .tstLineArrival looping).tst.lines = [] := by decide
/-- The arrival of tick 170 is still to come at a soft reset, and at a line end, of that very tick. -/
theorem test_tst_arrival_kept :
    (after (.softReset false false 0) { withTgn (fun t => { t with straps := ⟨0, 1⟩ }) looping with
      rfe := { up.rfe with tick := 170 } }).tst.lines = [0] ∧
    (after (.lineEnd quiet) (withLll (fun l => { l with nextIdeal := 170 * 256 }) looping)).tst.lines
      = [0, 2720] := by decide
theorem test_tst_broad_arrival :
    (after .tstBroadArrival looping).rfe.tick = 1100 ∧ (after .tstBroadArrival looping).tst.run = [] ∧
    (after .tstBroadArrival looping).fal.broad.map (fun r => r.count) = some 1 := by decide
theorem test_tst_nolock :
    let s := lastLine (withTgn (fun t => { t with stamp := 7 }) looping)
    (after (.testNolock quiet) s).tst.lockTime = none ∧
    (after (.testNolock quiet) (lastLine (withTgn (fun t => { t with stamp := 6 }) looping))).tgn.stamp = 6 := by
  decide
/-- The run for a field 2 is placed at the middle of the field's last line: P / 32 = 18432 pu (R192). -/
theorem test_tst_run_placed :
    (tstLineStart (lastLine { looping with tst := { looping.tst with run := [] } })).tst.run
      = [18432, 36864, 55296] := by decide

/-! ## The memory port (spec/05) -/

theorem test_grant_rank :
    (after .requestGrant (postKey 64 (postCue (.fillRead 0 0) live))).mpt.service
      = some ⟨.fillRead 0 0, false, 0, none⟩ ∧
    (after .requestGrant (postReport (.lonePut 0 0) (postKey 64 live))).mpt.service
      = some ⟨.keySource 64, false, 0, none⟩ := by decide
/-- The bus not granted: the tick of the asking and 1152 more, and the first word's address. -/
theorem test_memory_fault :
    let s := after (.memoryFault .notGranted 5 false []) (serving (.fillRead 4096 1) live)
    s.rfe.tick = 1152 ∧ s.cue.haltReason = some .memory ∧
    s.rpw.fifo.map (fun x => (x.report.w0, x.report.w4, x.report.w5)) = [(0x0702#16, 1, 4102)] := by decide
/-- A take write whose word did not reach memory, and one whose word did (R173). -/
theorem test_memory_fault_reached :
    (after (.memoryFault (.busError 9) 0 false []) (serving (.takeWrite 8 5) live)).mem = [] ∧
    (after (.memoryFault (.busError 9) 0 true []) (serving (.takeWrite 8 5) live)).mem = [(8, 5)] := by decide

/-- The fourth byte past the top of memory is address 2 (24-bit addresses). -/
theorem test_memory_fault_wraps :
    (after (.memoryFault (.busError 9) 2 false []) (serving (.startupLoad (2 ^ 24 - 2)) live)).rpw.fifo.map
      (fun x => (x.report.w5, x.report.w6)) = [(2, 0)] := by decide
/-- A take write that one STOP has cut to its one word keeps it over a second STOP (R96). -/
theorem test_stop_keeps_a_cut :
    let s := { live with mpt := { live.mpt with service := some ⟨.takeWrite 4104 5, true, 0, some 1⟩ } }
    (after (.stop false false) s).mpt.service = some ⟨.takeWrite 4104 5, true, 0, some 1⟩ := by decide
/-- Word 10 of a SETTINGS record still read after its boundary ended the scan (R107, R184). -/
theorem test_memory_fault_in_an_image :
    let s := { serving (.cueRecord 16384 0 1 4096) live with mem := [(16384, 13), (16386, 1)] }
    (after (.memoryFault (.busError 9) 10 false []) s).cue.haltReason = some .memory := by decide

/-- The link block of section 5.8.1 at 1048576, the words that are not 0. -/
def startMemory : Memory :=
  Memory.writeWords []
    [(1048576, 0x0400#16), (1048578, 0x0010#16), (1048580, 64), (1048604, 0x0800#16), (1048606, 0x0010#16),
     (1048608, 128), (1048610, 130), (1048632, 640), (1048636, 0x1403#16), (1048638, 0x2008#16),
     (1048640, 0x3210#16), (1048646, 0x0228#16), (1048648, 0x0008#16), (1048656, 0x007f#16)]

def starting : State :=
  { serving (.startupLoad 1048576) (withCue (fun c => { c with engine := .running, startup := true, link := 1048576 }) up)
    with mem := startMemory }

def started : State := after (.startupLoadComplete []) starting

theorem test_startup_descriptors :
    started.cue.qBase = 1049600 ∧ started.cue.qLen = 64 ∧ started.rpw.base = 1050624 ∧ started.rpw.put = 0 := by
  decide
theorem test_startup_warnings :
    started.rpw.fifo.map (fun x => (x.report.w0, x.report.w4, x.report.w5, x.report.w6)) =
      [(0x0902#16, 1, 130, 128), (0x0903#16, 3, 20, 14)] ∧ started.cue.linkValid = true := by decide
/-- A ring length of 1 fails the fifth test (R82). -/
theorem test_startup_link_fault :
    (after (.startupLoadComplete []) { starting with mem := startMemory.writeWord 1048608 1 }).cue.haltReason
      = some .link ∧
    (after (.startupLoadComplete []) { starting with mem := startMemory.writeWord 1048608 1 }).rpw.fifo.map
      (fun x => x.report.w5) = [4] := by decide

/-! ## The scan (spec/06, sections 6.3.1 and 6.4.1) -/

/-- Section 6.3.1: standings for N = 2. -/
def aimed (g : Nat) : CueWords :=
  { w0 := 1, w1 := BitVec.ofNat 16 g, w2 := BitVec.ofNat 16 (g / 65536), w3 := 0, w4 := 0, w5 := 0, w6 := 0, w7 := 0 }

theorem test_standings :
    [2, 3, 8388609, 8388610, 16777215, 1].map (fun g => (aimed g).standing 2 false) =
      [some .due, none, none, some .past, some .past, some .past] ∧
    (aimed 1).standing 2 true = some .due := by decide

def scanning : State := withCue (fun c => { c with scan := some ⟨1, 0⟩ }) live

theorem test_fill_read :
    let s := { serving (.fillRead 4096 1) scanning with mem := [(4102, 3), (4106, 2)] }
    (after (.fillReadComplete []) s).cue.lastFill = 3 ∧ (after (.fillReadComplete []) s).cue.trigger = some 2 ∧
    (after (.fillReadComplete []) s).mpt.cueQ = [.cueRecord 16384 0 1 4096] := by decide
theorem test_fill_read_empty :
    let s := after (.fillReadComplete []) (serving (.fillRead 4096 1) scanning)
    s.rpw.latched = 0x04#8 ∧ s.mpt.cueQ = [.idleCue 4096] := by decide
/-- A MARK for stamp 1 is DUE for N = 1; its tag and value are words 3 and 4. -/
theorem test_cue_record :
    let s := { serving (.cueRecord 16384 0 1 4096) (withCue (fun c => { c with lastFill := 1 }) scanning) with
      mem := [(16384, 1), (16386, 1), (16390, 101), (16392, 7)] }
    (after (.cueRecordRead []) s).cue.due.map (fun c => (c.index, c.standing, c.words.w4)) =
      [(some 0, .due, 7)] := by decide
theorem test_cue_record_future :
    let s := { serving (.cueRecord 16384 0 1 4096) scanning with mem := [(16384, 1), (16386, 2)] }
    (after (.cueRecordRead []) s).cue.due = [] ∧ (after (.cueRecordRead []) s).cue.scan = none := by decide
theorem test_idle_cue :
    (after (.idleCueRead []) { serving (.idleCue 4096) scanning with mem := [(4108, 1)] }).cue.idle.map
      (fun c => c.standing) = some .immediate ∧
    (after (.idleCueRead []) (serving (.idleCue 4096) scanning)).cue.idle = none := by decide
theorem test_take_write :
    (after (.takeWriteComplete []) (serving (.takeWrite 4104 5) live)).mem = [(4104, 5)] := by decide
theorem test_lone_put_write :
    (after (.lonePutWriteComplete []) (serving (.lonePut 4130 0) live)).mem = [] ∧
    (after (.lonePutWriteComplete [[⟨4130, 9⟩]]) (serving (.lonePut 4130 0) live)).mem = [] := by decide
theorem test_status_word_write :
    let s := withRpw (fun r => { r with status := [(4194, 3)] }) (serving (.statusWord 4192 2) live)
    (after (.statusWordWriteComplete []) s).mem = [(4192, 2)] ∧
    (after (.statusWordWriteComplete []) s).mpt.sta = some (.statusWord 4194 3) := by decide

/-! ## The cues (spec/06, spec/07, spec/08, spec/10) -/

/-- A DUE copy at index 0 with this kind and operands. -/
def copyOf (kind w4 w5 w6 w7 : Nat) : Copy :=
  { index := some 0, standing := .due
    words := { w0 := BitVec.ofNat 16 kind, w1 := 0, w2 := 0, w3 := 77, w4 := BitVec.ofNat 16 w4
               w5 := BitVec.ofNat 16 w5, w6 := BitVec.ofNat 16 w6, w7 := BitVec.ofNat 16 w7 }
    image := none }

/-- The state after a copy is judged and, when performed, acted on. -/
def judged (c : Copy) (s : State) : State := (judgeCopy false c s).1

/-- The window operands: lines 1 to 100, dots 0 to 99. -/
def pushCopy (mode bank fade : Nat) (show_ : Bool) : Copy :=
  copyOf 2 (1 + 512 * mode + 2048 * bank + 8192 * bitOf show_) (100 + 512 * fade) 0 99

/-- Tags at depths 0 to 7 and TOP. -/
def tags (s : State) : Nat × List Nat := (s.wsk.stack.top.val, depths.map (fun i => (s.wsk.stack.slot i).code))

/-- Section 7.2.1. -/
def holes : State :=
  judged (copyOf 4 1 0 0 0) (judged (copyOf 5 1 0 0 0)
    (judged (pushCopy 2 0 64 true) (judged (pushCopy 0 0 64 false) (judged (pushCopy 0 0 64 true) live))))

theorem test_stack_with_holes : tags holes = (5, [0, 2, 2, 0, 0, 0, 0, 0]) := by decide
theorem test_pop_on_a_hole :
    tags (judged (copyOf 3 0 0 0 0) holes) = (5, [0, 2, 2, 0, 0, 0, 0, 0]) ∧
    (judged (copyOf 3 0 0 0 0) holes).rpw.fifo.map (fun x => (x.report.w0, x.report.w6)) = [(0x0906#16, 5)] := by
  decide
theorem test_push_after_pop :
    tags (judged (pushCopy 1 0 0 true) (judged (copyOf 3 0 0 0 0) holes)) = (4, [2, 0, 2, 2, 0, 0, 0, 0]) := by
  decide

/-- A window of section 7.3.1: f, t and m. -/
def fading (f t m : Nat) : Window :=
  { top := 1, bottom := 100, left := 0, right := 99, mode := .index, bank := 1, fade := f, target := t,
    steps := m, tag := 0, mark := 0 }

theorem test_fade_in :
    [1, 2, 3, 4, 5].map (fun k => (Window.fadeStep^[k] (fading 0 64 5)).fade) = [12, 25, 38, 51, 64] := by decide
theorem test_fade_turned_back :
    (fading 25 0 2).fadeStep.fade = 13 ∧ (fading 64 0 3).fadeStep.fade = 43 ∧ (fading 43 0 2).fadeStep.fade = 22 := by
  decide
/-- A FADE at a boundary acts on the window already stepped there: f = 38, then t = 0, m = 2. -/
theorem test_fade_after_the_step :
    ((fading 25 64 3).startFade 203 0 2).fade = 38 ∧ ((fading 25 64 3).startFade 203 0 2).steps = 2 := by decide
theorem test_edit_ends_the_fade :
    ((fading 25 64 3).edit 203 .bank 2).fade = 38 ∧ ((fading 25 64 3).edit 203 .bank 2).target = 38 ∧
    ((fading 25 64 3).edit 203 .bank 2).bank = 2 := by decide
theorem test_range_clamped :
    (judged (copyOf 2 400 (0 + 512 * 64) 0 0) live).rpw.fifo.map
      (fun x => (x.report.w5, x.report.w6, x.report.w7)) = [(3, 400, 329)] := by decide
/-- Section 7.5.1. -/
theorem test_key_scale :
    [48, 0, 1].map (fun k => keyScale k 40) = [30, 0, 1] ∧ keyScale 64 64 = 64 ∧ keyScale 64 40 = 40 := by decide

theorem test_bad_depth :
    (copyOf 4 0 0 0 0).words.badField = some (4, 0) ∧ (copyOf 5 9 0 0 0).words.badField = some (4, 9) ∧
    (copyOf 18 0 0 0 0).words.badField = some (0, 18) := by decide
/-- Bits 14 and 15 of w4 are disregarded (R197). -/
theorem test_push_unused_bits : (copyOf 2 (49152 + 400) 512 0 0).words.badField = none := by decide

def exec1 (c : Copy) (s : State) : State := (execCopy false c s).1

theorem test_mark : (exec1 (copyOf 1 0x1207 0 0 0) live).rpw.fifo.map (fun x => (x.report.w0, x.report.w4)) =
    [(0x0607#16, 0x1207#16)] ∧ (exec1 (copyOf 1 7 0 0 0) live).cue.take = 1 := by decide
theorem test_output :
    (exec1 (copyOf 14 2 0 0 0) live).tgn.out1 = true ∧ (exec1 (copyOf 14 2 0 0 0) live).tgn.out2 = false := by decide
theorem test_halt_cue :
    (exec1 (copyOf 17 0 0 0 0) live).cue.haltReason = some .halt ∧ (exec1 (copyOf 17 0 0 0 0) live).cue.take = 1 := by
  decide
theorem test_phase :
    (exec1 (copyOf 11 0xfff0 3 4 0) live).lll.hTarget = -16 ∧
    (exec1 (copyOf 11 0xfff0 3 4 0) live).cue.settings.vOffset = 3 := by decide
/-- H target 18433 is beyond half a 625 line: BAD_CUE at stage 3 (R121, R180). -/
theorem test_phase_out_of_range :
    (exec1 (copyOf 11 18433 3 4 0) live).rpw.fifo.map (fun x => (x.report.w0, x.report.w6, x.report.w7)) =
      [(0x0908#16, 4, 18433)] := by decide
theorem test_select : (exec1 (copyOf 12 2 0 0 0) live).rfe.active = .b := by decide
/-- SELECT's own CUE/DONE comes before the reports of the switch (R122). -/
theorem test_select_reports :
    (exec1 (copyOf (12 + 1024) 2 0 0 0) live).rpw.fifo.map (fun x => x.report.w0) = [0x0404#16, 0x0103#16] := by
  decide
theorem test_waitlock : (exec1 (copyOf 15 1 3 0 0) live).cue.engine = .waiting ∧ (exec1 (copyOf 15 1 3 0 0) live).cue.take = 0 := by
  decide
theorem test_snapshot_mask_all :
    (exec1 (copyOf 16 1 0 0 0) (withCue (fun c => { c with masks := 0 }) live)).cue.masks = 0x7f#7 ∧
    (exec1 (copyOf 16 1 0 0 0) live).rpw.fifo.map (fun x => x.report.w0) = [0x0A01#16, 0x0A02#16, 0x0A03#16] := by
  decide
/-- Section 10.4.1: an unmasked STACK_UNDER halts with take on the cue. -/
theorem test_stack_under_halts :
    let s := exec1 (copyOf 5 3 0 0 0) (withCue (fun c => { c with masks := 0x6f#7, take := 21, qLen := 64 }) live)
    s.cue.haltReason = some (.fault .stackUnder) ∧ s.cue.take = 21 ∧
    s.rpw.fifo.map (fun x => (x.report.w0, x.report.tag, x.report.w5)) = [(0x0707#16, 77, 21)] := by decide
/-- Section 10.4.1: the copy before it moved take to 21, whose write the idle port has in service. -/
theorem test_stack_under_after_a_mark :
    let s := withCue (fun c => { c with
      masks := 0x6f#7, take := 20, qLen := 64, due := [copyOf 1 7 0 0 0, copyOf 5 3 0 0 0] }) (lastLine live)
    (after (.lineEnd quiet) s).cue.haltReason = some (.fault .stackUnder) ∧ (after (.lineEnd quiet) s).cue.take = 21 ∧
    (after (.lineEnd quiet) s).mpt.service.map (fun x => x.req) = some (.takeWrite 4104 21) := by decide
theorem test_late_skipped :
    (exec1 { copyOf 1 7 0 0 0 with standing := .past } live).rpw.fifo.map (fun x => x.report.w0) = [0x0402#16] := by
  decide

/-- Section 6.9.1 at the boundary into field 504. -/
def waiting (n : Nat) : State :=
  lastLine (withCue (fun c => { c with engine := .waiting, wait := some ⟨copyOf 15 1 3 0 0, .field, 3, n, false⟩ }) live)

theorem test_waitend_expired :
    (after (.waitendExpired quiet) (waiting 2)).cue.engine = .running ∧
    (after (.waitendExpired quiet) (waiting 2)).cue.take = 1 ∧
    (after (.waitendExpired quiet) (waiting 1)).tgn.stamp = 0 := by decide
theorem test_wait_counts_under_hold :
    (after (.lineEnd { hold := true }) (waiting 0)).cue.engine = .held ∧
    (after (.lineEnd { hold := true }) (waiting 0)).cue.wait.map (fun w => w.count) = some 1 := by decide

/-! ## The key banks (spec/08, section 8.3.1) -/

/-- The load of section 8.3.1: bank 2, start 254, count 5. -/
def loadOf (n : Nat) : LoadRecord :=
  { bank := 2, start := 254, count := 5, source := 2097152, wordsRead := n, saturated := 0, tag := 9, held := 0
    heldRep := false }

def loading (n : Nat) : State := { live with kbl := { live.kbl with loader := .loading, load := some (loadOf n) } }

theorem test_keyload :
    (exec1 (copyOf 10 (2 + 16 * 5) 254 0 0x20) live).kbl.load = some { loadOf 0 with tag := 77 } ∧
    (exec1 (copyOf 10 (2 + 16 * 5) 254 0 0x20) live).mpt.key = some (.keySource 2097152) := by decide
theorem test_keyload_busy_deferred :
    (exec1 (copyOf 10 (2 + 16 * 5) 254 0 0x20) (loading 0)).cue.deferral = some 0 ∧
    (exec1 (copyOf 10 (2 + 16 * 5) 254 0 0x20) (loading 0)).cue.take = 0 := by decide
theorem test_key_word :
    let s := after (.keySourceWordRead []) { serving (.keySource 2097152) (loading 0) with
      mem := [(2097152, 12), (2097153, 80)] }
    s.kbl.load.map (fun r => r.saturated) = some 1 ∧ s.mpt.key = some (.keySource 2097154) := by decide
theorem test_key_word_entries :
    let s := after (.keySourceWordRead []) { serving (.keySource 2097152) (loading 0) with
      mem := [(2097152, 12), (2097153, 80)] }
    s.kbl.shadow[(254 : Fin 256)] = 12 ∧ s.kbl.shadow[(255 : Fin 256)] = 64 := by decide
theorem test_last_key_word :
    let s := after (.keySourceWordRead []) { serving (.keySource 2097156) (loading 2) with
      mem := [(2097156, 33), (2097157, 99)] }
    s.kbl.loader = .ready ∧ s.kbl.shadow[(2 : Fin 256)] = 33 ∧ s.kbl.shadow[(3 : Fin 256)] = 0 := by decide

/-- A READY load of bank 1 with a LIVE INDEX window of fade f on bank 1 at depth 0. -/
def guarded (f : Nat) : State :=
  { live with
    wsk := { stack := live.wsk.stack.put 0 (.live { fading f f 0 with bank := 1 }) }
    kbl := { live.kbl with loader := .ready, load := some { loadOf 3 with bank := 1 } } }

theorem test_swap_held :
    (swapTest (guarded 43)).kbl.loader = .ready ∧
    (swapTest (guarded 43)).rpw.fifo.map (fun x => (x.report.w0, x.report.w4, x.report.w5)) = [(0x0802#16, 9, 0)] := by
  decide
theorem test_swap_made :
    (swapTest (guarded 0)).kbl.loader = .idle ∧
    (swapTest (guarded 0)).rpw.fifo.map (fun x => x.report.w0) = [0x0801#16] := by decide
/-- TEST/NOLOCK between SWAP/DONE and FIELDSTAT of one boundary (R165, assumption log 6). -/
theorem test_nolock_between :
    let s := withSet (fun t => { t with fieldstat := true }) (withTgn (fun t => { t with stamp := 8 })
      { guarded 0 with tst := { live.tst with lockTime := some 0 } })
    (swapAndStat { stat := .middle, tst := .between } s).rpw.fifo.map (fun x => x.report.w0)
      = [0x0801#16, 0x0B03#16, 0x0C02#16] := by decide
theorem test_protect_levels :
    [0, 1, 2, 3, 4].map (fun p => [0, 1, 2, 3].map (isProtected p)) =
      [[false, false, false, false], [false, false, false, true], [false, false, true, true],
       [false, true, true, true], [true, true, true, true]] := by decide

/-! ## Reports (spec/09, section 9.3.1) -/

/-- The FIFO with n records. -/
def filled (n : Nat) (s : State) : State :=
  withRpw (fun r => { r with fifo := (List.range n).map (fun k => ⟨rep (BitVec.ofNat 16 k), none⟩) }) s

theorem test_withheld :
    (produce (rep 1) (produce (rep 1) (filled 8 live))).rpw.withheld = 2 ∧
    (produce (rep 1) (filled 8 (withTgn (fun t => { t with stamp := 109 }) live))).rpw.openStamp = some 109 := by
  decide
/-- The record accepted in field 112 after three withheld from field 109. -/
theorem test_gap_part :
    (produce (rep 1) (withRpw (fun r => { r with openGap := 3, openStamp := some 109 })
      (withTgn (fun t => { t with stamp := 112 }) live))).rpw.fifo.map (fun x => x.gap) = [some ⟨3, 109, 112⟩] := by
  decide
/-- put 2, last get 2 of 4: S101 goes to entry 2, put becomes 3. -/
theorem test_record_write :
    (after .recordWrite (withRpw (fun r => { r with put := 2, lastGet := 2 }) (filled 1 live))).mpt.rpw
      = some (.reportWrite 32800 (rep 0) false 4130 3) := by decide
theorem test_record_write_full :
    (after .recordWrite (withRpw (fun r => { r with put := 2, lastGet := 3 }) (filled 1 live))).mpt.rpw
      = some (.getRead 4132 true) := by decide
theorem test_report_trigger :
    let s := withRpw (fun r => { r with trigger := some 1 })
      (filled 2 (serving (.reportWrite 32768 (rep 0) false 4130 1) live))
    (after (.reportWriteComplete []) s).rpw.latched = 0x01#8 ∧ (after (.reportWriteComplete []) s).rpw.put = 1 := by
  decide
theorem test_match :
    (matchTest 0x0801#16 (withRpw (fun r => { r with matchList := #v[⟨0xff00#16, 0x0800#16⟩, ⟨0, 0⟩, ⟨0, 0⟩, ⟨0, 0⟩] })
      live)).rpw.latched = 0x08#8 ∧ (matchTest 0#16 live).rpw.latched = 0 := by decide
theorem test_get_read :
    let s := { withRpw (fun r => { r with put := 2 }) (serving (.getRead 4132 true) live) with mem := [(4132, 3)] }
    (after (.getReadComplete []) s).rpw.fullWait = true ∧ (after (.getReadComplete []) s).rpw.lastGet = 3 := by decide
/-- Section 9.4: errors +3, −4 and −6 give least −6, greatest +3, mean −2. -/
theorem test_fieldstat :
    (repFieldstat ((({} : FieldStats).addError 3).addError (-4) |>.addError (-6))).toWords.drop 4
      = [3, 0xfffa#16, 3, 0xfffe#16] ∧
    (repFieldstat {}).toWords = [0x0C02#16, 0, 0, 0, 0, 0x8000#16, 0x8000#16, 0x8000#16] := by decide
theorem test_gap_record :
    (repGap ⟨3, 109, 112⟩).toWords = [0x0D01#16, 112, 0, 0, 3, 109, 0, 0] ∧
    (repGap ⟨65535, 0, 0⟩).w0 = 0x0D02#16 := by decide
/-- Word 30 holding 1403h: KP 3 and KI 20, clamped to 14 with code 3. -/
theorem test_setting_clamp :
    ((clampsOf [640, 0, 0x1403#16, 0x2008#16, 0x3210#16, 0, 0, 0x0228#16, 8, 0, 0, 0, 0] .s625).filter
      (fun c => decide (c.read ≠ c.adopted))).map (fun c => (c.code, c.read, c.adopted)) = [(3, 20, 14)] := by decide

/-! ## The queue -/

theorem test_step_takes_the_front :
    (match step { up with pending := [.run false false, .stop false false] } with
      | .next t => (t.cue.engine, t.pending)
      | _ => (.halted, [])) = (.running, [.stop false false]) := by decide
/-- Nothing is due at tick 5: the tick passes. -/
theorem test_idle_tick :
    (match step { up with rfe := { up.rfe with tick := 5 } } with
      | .next t => (t.rfe.tick, t.pending)
      | _ => (0, [])) = (6, []) := by decide

/-- A SETTINGS cue with a queue base of 16384 and a ring at 32768, both of length 8, KI 20. -/
def settingsCopy (qBase : Nat) : Copy :=
  { copyOf 13 0 0 0 0 with
    image := some
      { qBase := qBase, qLen := 8, rBase := 32768, rLen := 8, get := 0, repTrigger := 2
        matchList := Vector.replicate 4 ⟨0, 0⟩
        settings := [640, 0, 0x1403#16, 0x2008#16, 0x3210#16, 0, 0, 0x0228#16, 8, 0, 0, 0, 0x7f#16] } }

theorem test_settings_cue :
    let s := exec1 (settingsCopy 16384) live
    s.cue.settings.ki = 14 ∧ s.cue.take = 1 ∧ s.rpw.len = 8 ∧ s.rpw.trigger = some 2 ∧
    s.rpw.fifo.map (fun x => (x.report.w0, x.report.tag)) = [(0x0903#16, 77)] := by decide
/-- An odd queue base fails the second test (R82): take stays on the cue. -/
theorem test_settings_cue_link_fault :
    let s := exec1 (settingsCopy 16385) live
    s.cue.haltReason = some .link ∧ s.cue.linkValid = false ∧ s.cue.take = 0 ∧
    s.rpw.fifo.map (fun x => (x.report.w0, x.report.w4, x.report.w5)) = [(0x0701#16, 1, 1)] := by decide

/-! ## Witnesses: states and operands that meet an obligation's hypotheses, clause by clause -/

theorem witness_StepRunsTheQueue :
    ({ up with pending := [.start, .stop true false] } : State).pending = .start :: [.stop true false] ∧
    (({ up with rfe := { up.rfe with tick := 377 } } : State).dueEvents = [] ∧ up.pending = []) ∧
    ({ up with rfe := { up.rfe with tick := 378 } } : State).dueEvents ≠ [] := by decide
theorem witness_PortBitsWithoutMeaning :
    5 ≤ ((0x0305#16 : Word) &&& 7#16).toNat ∧ 5 ≤ ((0x0007#16 : Word) &&& 7#16).toNat ∧
    up.tgn.strapDone = true ∧ (withCue (fun c => { c with second := true }) up).cue.second = true := by decide
theorem witness_StrapDoneGatesThePorts :
    State.reset.tgn.strapDone = false ∧ up.tgn.strapDone = true := by decide
theorem witness_LinkAddressAccesses :
    (up.tgn.strapDone = true ∧ up.cue.engine = .stopped ∧ up.cue.second = false) ∧
    (withCue (fun c => { c with second := true }) up).cue.second = true ∧
    State.reset.tgn.strapDone = false ∧ live.cue.engine ≠ .stopped := by decide
theorem witness_RunStartsAndContinueResumes :
    (up.tgn.strapDone = true ∧ up.cue.engine = .stopped) ∧
    (live.tgn.strapDone = true ∧ live.cue.engine ≠ .stopped) := by decide
theorem witness_StopStops :
    (live.tgn.strapDone = true ∧ live.cue.engine ≠ .stopped ∧ live.kbl.load = none) ∧
    (loading 0).kbl.load = some (loadOf 0) ∧ (loading 0).rpw.fifo.length < 8 ∧ up.cue.engine = .stopped := by decide
/-- START and CLEAR in a STOP write that is taken, with one of two causes seen (R99, R177). -/
theorem witness_StopStops_bits :
    let s := withRpw (fun r => { r with latched := 3, seen := 1 }) live
    let r (a b : Bool) := (after (.stop a b) s).rpw
    ((r false false).latched, (r true false).latched, (r false true).latched, (r true true).latched) = (3, 2, 2, 2) ∧
    ((r true false).enabled, (r false true).enabled, (r true true).enabled, (r true true).seen)
      = (true, false, false, 0) := by decide
theorem witness_StopStops_service :
    (serving (.fillRead 0 0) live).mpt.service = some ⟨.fillRead 0 0, false, 0, none⟩ ∧
    (Request.fillRead 0 0).requester = .cue ∧ (Request.lonePut 0 0).requester = .report ∧
    (Request.statusWord 0 0).requester = .status := by decide

/-- A service that a STOP has cut, and one that no STOP has. -/
theorem witness_StopStops_cut :
    let x : Service := ⟨.startupLoad 4096, true, 0, some 3⟩
    { live with mpt := { live.mpt with service := some x } }.mpt.service = some x ∧ x.req.requester = .cue ∧
    x.cut ≠ none ∧ (serving (.fillRead 0 0) live).mpt.service.map Service.cut = some none := by decide

def halted : State := withCue (fun c => { c with engine := .halted, haltReason := some .halt }) live

theorem witness_RunStartsAndContinueResumes_continue :
    (halted.tgn.strapDone = true ∧ halted.cue.engine = .halted ∧ halted.cue.linkValid = true) ∧
    live.cue.engine ≠ .halted ∧ (withCue (fun c => { c with linkValid := false }) halted).cue.linkValid = false := by
  decide
theorem witness_SoftResetResets :
    live.tgn.strapDone = true ∧ live.mpt.service = none ∧
    (serving (.takeWrite 8 5) live).mpt.service = some ⟨.takeWrite 8 5, false, 0, none⟩ := by decide
/-- The four codes of either pair of straps (R76, spec/04 section 4.6). -/
theorem witness_SoftResetResets_straps :
    let s (n : BitVec 2) : State := after (.softReset false false 0) (withTgn (fun t => { t with straps := ⟨n, n⟩ }) live)
    [s 0, s 1, s 2, s 3].map (fun t => (t.cue.settings.stdMode, t.rfe.working, t.tst.mode)) =
      [(.auto, .s625, .normal), (.auto, .s525, .internalLoop), (.force .s625, .s625, .bypass),
       (.force .s525, .s525, .bars)] := by decide
theorem witness_SoftResetResets_test_mode :
    let s (mode : TestMode) (tick : Tick) : State :=
      { withTgn (fun t => { t with straps := ⟨0, 1⟩ }) looping with
        tst := { looping.tst with mode := mode }, rfe := { up.rfe with tick := tick } }
    (after (.softReset false false 0) (s .normal 171)).tst.mode = .internalLoop ∧
    (after (.softReset false false 0) (s .normal 170)).tst.lines = [0] ∧
    (after (.softReset false false 0) (s .normal 171)).tst.lines = [] ∧
    (after (.softReset false false 0) (s .internalLoop 171)).tst.lines = [0] ∧
    (after (.softReset false false 0) looping).tst.mode ≠ .internalLoop := by decide
theorem witness_StartAndClearAcknowledge : up.tgn.strapDone = true := by decide
theorem witness_CausePortReads :
    (withRpw (fun r => { r with enabled := true }) (latch .inputChange up)).irq = true ∧
    Cause.memory ≠ Cause.inputChange ∧ up.tgn.strapDone = true := by decide
theorem witness_BusWritesTouchTheirBytes :
    Memory.wf [] ∧
    (∀ w ∈ ([(8, 5)] : List (Nat × Word)), 10 ≠ wrapAddr w.1 ∧ 10 ≠ wrapAddr (w.1 + 1)) ∧
    (∀ h ∈ ([[⟨4, 7⟩], [⟨12, 1⟩]] : BusTraffic).flatten,
      10 ≠ wrapAddr h.addr.toNat ∧ 10 ≠ wrapAddr (h.addr.toNat + 1)) ∧
    (∀ v ∈ ([(10, 6)] : List (Nat × Word)), ∀ i < 2, ∀ j < 2, wrapAddr (8 + i) ≠ wrapAddr (v.1 + j)) := by decide

/-! ### The reference inputs -/

theorem witness_ClassifierFollowsTheSlice :
    (up.input .a).classifier = .disarmed ∧ (up.input .a).slicer.s < ((57#8).toNat : Int) ∧
    ((56#8).toNat : Int) ≤ (up.input .a).slicer.s ∧
    ((onA figSlicer up).input .a).classifier = .armed ∧
    ((onA figSlicer up).input .a).slicer.s < ((49#8).toNat : Int) ∧
    ((48#8).toNat : Int) ≤ ((onA figSlicer up).input .a).slicer.s ∧
    ((onA figSlicer up).input .a).classifier ≠ .disarmed ∧ (up.input .a).classifier ≠ .armed := by decide
/-- S at 48 with the samples 48 and 30, where the formula gives 0, and 72 and 30, where it gives 9. -/
theorem witness_ClassifierFollowsTheSlice_formula :
    (30#8).toNat ≠ 48 ∧ (48#8 : Byte) ≠ 30#8 ∧ (16 * ((48 : Int) - 48)).fdiv (48 - 30) = 0 ∧
    (16 * ((72 : Int) - 48)).fdiv (72 - 30) = 9 := by decide
/-- A measurement into whose last tick, u + 23, the edge of t + 1 falls, and one it comes after. -/
theorem witness_ClassifierFollowsTheSlice_measure :
    0 ≤ ((977#32 : Tick) + 23 - (999 + 1)).toInt ∧ ((977#32 : Tick) + 23 - (1000 + 1)).toInt < 0 ∧
    ((onA (fun r => { figSlicer r with measure := some ⟨14, 977⟩ }) up).input .a).measure = some ⟨14, 977⟩ := by
  decide

/-- The width of the pulse of section 1.2.1 when it ends at tick u. -/
def widthAt (u : Tick) : Nat := (u - BitVec.ofNat 32 ((16009#36 : Pu).toNat / 16)).toNat

theorem witness_widths :
    [1040, 1127, 1128, 1255, 1256, 1599, 1600, 2500, 2501].map (fun u => widthAt (BitVec.ofNat 32 u)) =
      [40, 127, 128, 255, 256, 599, 600, 1500, 1501] := by decide
theorem witness_PulsesAreClassified :
    (inPulse.input .a).classifier = .inPulse 16009 30 ∧ (inPulse.input .a).slicer.s < ((49#8).toNat : Int) ∧
    widthAt 1127 < 128 ∧ (256 ≤ widthAt 1256 ∧ widthAt 1599 < 600) ∧ 600 ≤ widthAt 1600 ∧ widthAt 2500 ≤ 1500 ∧
    1500 < widthAt 2501 ∧ ((48#8).toNat : Int) ≤ (inPulse.input .a).slicer.s := by decide
theorem witness_PulsesAreClassified_broad :
    ({ inPulse with rfe := { inPulse.rfe with active := .b } } : State).rfe.active ≠ .a ∧
    ({ inPulse with tst := { inPulse.tst with mode := .internalLoop } } : State).tst.mode = .internalLoop := by decide

/-- The pulse of section 1.2.1 with the last LINE edge d ticks before it. -/
def spaced (d : Nat) : State := onA (fun r => { r with lastEdge := some (16009 - BitVec.ofNat 36 (16 * d)) }) inPulse

theorem witness_PulsesAreClassified_line :
    (inPulse.input .a).classifier = .inPulse 16009 30 ∧ (inPulse.input .a).slicer.s < ((49#8).toNat : Int) ∧
    128 ≤ widthAt 1128 ∧ widthAt 1255 ≤ 255 ∧ inPulse.rfe.active = .a ∧ inPulse.rfe.active ≠ .b ∧
    ((onA (fun r => { r with lastEdge := none }) inPulse).input .a).lastEdge = none := by decide
theorem witness_PulsesAreClassified_spacing :
    [2199, 2200, 2400, 2401].map (fun d =>
      (((spaced d).input .a).lastEdge.map (fun last => ((16009#36 : Pu) - last).toNat / 16))) =
      [some 2199, some 2200, some 2400, some 2401] := by decide
theorem witness_SlicerFollowsTheSignal :
    ((onA (fun r => { figSlicer r with measure := some ⟨16, 1170⟩ }) up).input .a).measure = some ⟨16, 1170⟩ ∧
    ([80, 80, 80, 80, 80, 80, 80, 80] : List Byte).length = 8 ∧
    ((onA figSlicer up).input .a).slicer.t = ((16#8).toNat : Int) ∧
    ((onA figSlicer up).input .a).slicer.b =
      ((([80, 80, 80, 80, 80, 80, 80, 80] : List Byte).map (fun b => b.toNat)).sum / 8 : Nat) := by decide

/-- Input A's counts for a window: LINE pulses, spacings and their mean. -/
def tallied (n count mean : Nat) (s : State) : State :=
  onA (fun r => { r with lineCount := n, spacingCount := count, spacingSum := count * mean }) s
def tallied' (n count mean : Nat) (s : State) : State :=
  s.setInput .b { s.input .b with lineCount := n, spacingCount := count, spacingSum := count * mean }

/-- The detected standards at the limits of R12. -/
theorem witness_WindowEndJudges :
    [2281, 2282, 2294, 2295, 2297, 2298, 2310, 2311].map (fun m =>
      ((after .windowEnd (tallied 200 100 m up)).input .a).detected) =
      [none, some .s525, some .s525, none, none, some .s625, some .s625, none] := by decide
theorem witness_WindowEndJudges_presence :
    ((after .windowEnd (tallied 200 100 2304 up)).input .a).present = true ∧
    ((after .windowEnd (tallied 199 100 2304 up)).input .a).present = false ∧
    8 ≤ (filled 8 up).rpw.fifo.length ∧ (filled 4 up).rpw.fifo.length ≤ 4 ∧
    ((after .windowEnd (filled 8 (onA (fun r => { r with present := true }) up))).input .a).lossLatch = true := by
  decide

/-- Under AUTO with switch windows 2: B present, A absent for one window before. -/
def switching (absence : Nat) : State :=
  let s := tallied' 200 100 2304 up
  { s with rfe := { s.rfe with absence := absence } }

theorem witness_WindowEndSwitchesInputs :
    (switching 1).cue.settings.policy = .auto ∧ (switching 1).cue.settings.switchWin = 2 ∧
    ((after .windowEnd (switching 1)).input .a).present = false ∧
    ((after .windowEnd (switching 1)).input .b).present = true ∧
    (after .windowEnd (switching 1)).rfe.active = .b ∧ (after .windowEnd (switching 0)).rfe.active = .a := by decide
/-- A switch under AUTO with the loop in FREE, in HOLDOVER and in TRACK (R42). -/
theorem witness_WindowEndSwitchesInputs_loop :
    let s (l : LoopState) := withLll (fun x => { x with loop := l, holdover := 9 }) (switching 1)
    let t (l : LoopState) := (after .windowEnd (s l)).lll
    (s .track).cue.settings.stdMode = .auto ∧
    [t .free, t .holdover, t .track].map (fun l => (l.loop, l.holdover)) =
      [(.free, 9), (.holdover, 0), (.holdover, 0)] := by decide
theorem witness_WindowEndSwitchesInputs_named :
    (withSet (fun t => { t with policy := .named .a }) (switching 1)).cue.settings.policy = .named .a ∧
    (after .windowEnd (withSet (fun t => { t with policy := .named .a }) (switching 1))).rfe.active = .a ∧
    (withSet (fun t => { t with stdMode := .force .s625 }) (switching 1)).cue.settings.stdMode ≠ .auto ∧
    ((after .windowEnd (tallied 200 100 2304 up)).input .a).present = true ∧ up.rfe.active = .a := by decide

/-- Input A at the 525 rate under a 625 standard. -/
def differing (differ : Nat) : State :=
  let s := tallied 200 100 2288 up
  { s with rfe := { s.rfe with differ := differ } }

theorem witness_WindowEndSettlesTheStandard :
    (differing 0).cue.settings.stdMode = .auto ∧
    ((after .windowEnd (differing 0)).input (after .windowEnd (differing 0)).rfe.active).detected = some .s525 ∧
    (after .windowEnd (differing 0)).rfe.active = (differing 0).rfe.active ∧ (differing 0).rfe.working = .s625 ∧
    (after .windowEnd (differing 1)).rfe.active = (differing 1).rfe.active ∧
    ((after .windowEnd (differing 1)).input .a).detected = some .s525 := by decide
theorem witness_WindowEndSettlesTheStandard_same :
    ((after .windowEnd (tallied 200 100 2304 up)).input .a).detected = some up.rfe.working ∧
    ((after .windowEnd up).input .a).detected = none ∧
    (withSet (fun t => { t with stdMode := .force .s625 }) (differing 1)).cue.settings.stdMode = .force .s625 := by
  decide

/-- The forced mode, an unchanged standard, a changed one and a changed input, each from an empty FIFO. -/
theorem witness_WindowEndReports :
    (up.rpw.openGap = 0 ∧ up.rpw.fifo = [] ∧ (after .windowEnd up).rfe.active = up.rfe.active ∧
      (after .windowEnd up).rfe.working = up.rfe.working ∧ up.cue.settings.stdMode = .auto) ∧
    (after .windowEnd (differing 1)).rfe.working ≠ (differing 1).rfe.working ∧ (differing 1).rpw.fifo.length ≤ 1 ∧
    (withSet (fun t => { t with stdMode := .force .s625 }) (differing 0)).cue.settings.stdMode = .force .s625 ∧
    (after .windowEnd (switching 1)).rfe.active ≠ (switching 1).rfe.active ∧ (switching 1).rpw.fifo = [] := by decide

/-! ### The line lock loop -/

theorem witness_LineEndMovesTheGrid_key :
    0 ≤ ((after (.lineEnd quiet) (shortLine 2304)).tgn.lineStart - (shortLine 2304).tgn.keyUntil).toInt ∧
    ((after (.lineEnd quiet) (shortLine 2305)).tgn.lineStart - (shortLine 2305).tgn.keyUntil).toInt < 0 := by decide
theorem witness_LineEndMovesTheGrid :
    (withLll (fun l => { l with p := 580608 }) up).lll.p = up.rfe.working.pMin ∧
    (withLll (fun l => { l with p := 599040 }) up).lll.p = up.rfe.working.pMax ∧
    up.cue.settings.stepMode = .slew := by decide
theorem witness_MeasuredLineSteersTheLoop :
    (tracking 40 up).lll.loop = .track ∧ (tracking 40 up).lll.settling = false ∧
    (tracking 40 up).cue.settings.inCoast (tracking 40 up).tgn.line = false ∧
    (tracking 40 up).lll.accepted = some 40 ∧ (tracking 40 up).tgn.line < (tracking 40 up).tgn.length := by decide
/-- TST's record of the field in progress at an error of 2 and at 1022 and 1023 counted. -/
theorem witness_MeasuredLineSteersTheLoop_count :
    let s (n : Nat) : State := { tracking 2 up with tst := { up.tst with count := some ⟨0, n⟩ } }
    (s 1022).tst.count = some ⟨0, 1022⟩ ∧ (s 0).tgn.stamp = 0 ∧ 1 < (2 : Int).natAbs ∧
    ((after (.lineEnd quiet) (s 1022)).tst.count, (after (.lineEnd quiet) (s 1023)).tst.count)
      = (some ⟨0, 1023⟩, some ⟨0, 1023⟩) ∧
    (withLll (fun l => { l with stats := l.stats.addError 3 }) (s 0)).lll.stats.errors = some ⟨3, 3, 3⟩ ∧
    (s 0).lll.stats.errors = none ∧ up.tst.count = none := by decide
/-- A tie, at either sign, and a quotient that is none (spec/00_scope.md, Arithmetic). -/
theorem witness_MeasuredLineSteersTheLoop_rounding :
    [(40 : Int), -40, 39].map (fun v => 2 * (2 ^ 4 * roundDiv v 4 - v).natAbs) = [16, 16, 14] := by decide
theorem witness_MeasuredLineSteersTheLoop_limit :
    let s := withLll (fun l => { l with p := 599040 }) (tracking 1024 up)
    (s.rfe.working.pMax : Int) < s.lll.p + roundDiv (16 * 1024) s.cue.settings.ki ∧ s.lll.pullLimit = false ∧
    s.rpw.fifo.length < 8 ∧ s.tgn.line ≠ 16 := by decide
theorem witness_FlywheelAndHoldoverRunOut :
    ((coasting 14).lll.loop = .coast ∧ (coasting 14).lll.settling = false ∧
      (coasting 14).cue.settings.inCoast (coasting 14).tgn.line = false ∧ (coasting 14).lll.accepted = none ∧
      (coasting 14).lll.lineStray = none) ∧
    (coasting 14).lll.flywheel + 1 < (coasting 14).cue.settings.flyLimit ∧
    (coasting 15).cue.settings.flyLimit ≤ (coasting 15).lll.flywheel + 1 ∧
    (coasting 14).tgn.line < (coasting 14).tgn.length ∧ up.lll.loop = .free := by decide

/-- LOCK/HOLDOVER at the limit, with the period, reason FLYWHEEL and the last error (R45). -/
theorem witness_FlywheelAndHoldoverRunOut_reported :
    (coasting 15).tgn.line ≠ 16 ∧ (coasting 15).rpw.fifo.length < 8 ∧
    (after (.flywheelLimit quiet) (coasting 15)).rpw.fifo.map (fun x => (x.report.w0, x.report.w4, x.report.w5, x.report.w6))
      = [(0x0204#16, 0, 9, 0)] := by decide
/-- At the limit but for a line that settles, or lies in the coast window: the loop in TRACK stays, and goes to
COAST, with the flywheel count and the stray record as they were (R28). -/
theorem witness_FlywheelAndHoldoverRunOut_unmeasured :
    let s := withLll (fun l => { l with loop := .track, stray := some ⟨1, 2400⟩ }) (coasting 15)
    let settles := withLll (fun l => { l with settling := true }) s
    let window := withSet (fun c => { c with coastFirst := s.tgn.line, coastLast := s.tgn.line }) s
    let f (s : State) := let l := (after (.lineEnd quiet) s).lll; (l.loop, l.flywheel, l.stray, l.settling)
    settles.lll.settling = true ∧ window.cue.settings.inCoast window.tgn.line = true ∧ window.lll.settling = false ∧
    f settles = (.track, 15, some ⟨1, 2400⟩, false) ∧ f window = (.coast, 15, some ⟨1, 2400⟩, false) := by decide
/-- Strays that are no phase step: the second that agrees, at the tolerance of 32, and one that does not; at the
limit the loop is in HOLDOVER all the same (R31, R33). -/
theorem witness_FlywheelAndHoldoverRunOut_strays :
    let s (o : Int) (n : Nat) := withLll (fun l => { l with lineStray := some o, stray := some ⟨1, 2400⟩ }) (coasting n)
    let f (s : State) := let l := (after (.lineEnd quiet) s).lll; (l.loop, l.stray)
    (s 2432 14).lll.lineStray = some 2432 ∧ f (s 2432 14) = (.coast, some ⟨2, 2432⟩) ∧
    f (s 2433 14) = (.coast, some ⟨1, 2433⟩) ∧ f (s 2432 15) = (.holdover, none) := by decide

/-- INTERNAL_LOOP, capturing, with the last edge d pu before this line's. -/
def recapturing (d : Nat) (first : Option Nat) : State :=
  withLll (fun l => { l with loop := .capture, ideal := 4718592, nextIdeal := 5308416
                             capture := some ⟨.holdover, 294912 - BitVec.ofNat 36 d, 17000, first⟩ })
    (withTgn (fun t => { t with lineStart := 18432 })
      { looping with tst := { looping.tst with lines := [294912] } })

/-- Spacings at both ends of the pull range, and one beyond each. -/
theorem witness_CapturesOpenSnapAndEnd :
    [36287, 36288, 37440, 37441].map (fun d =>
      ((recapturing d none).lll.capture.map (fun r =>
        ((BitVec.ofNat 36 ((recapturing d none).lll.ideal.toNat / 16) : Pu) - r.lastEdge).toNat))) =
      [some 36287, some 36288, some 37440, some 37441] ∧
    Standard.s625.pMin / 16 = 36288 ∧ Standard.s625.pMax / 16 = 37440 := by decide
theorem witness_CapturesOpenSnapAndEnd_due :
    let s := recapturing 36864 (some 36832)
    s.tst.mode = .internalLoop ∧ s.tst.lines = 294912 :: [] ∧
    0 ≤ (BitVec.ofNat 32 (s.lll.nextIdeal.toNat / 256) - (BitVec.ofNat 32 ((294912#36).toNat / 16) + 170)).toInt ∧
    (BitVec.ofNat 32 ((5308416#40).toNat / 256) - (BitVec.ofNat 32 ((331665#36).toNat / 16) + 170)).toInt < 0 ∧
    (s.lll.loop = .capture ∧ s.cue.settings.captureTol = 32 ∧ s.rpw.fifo.length < 8) ∧
    (after .tstLineArrival s).lll.loop = .track ∧
    (after .tstLineArrival (recapturing 36864 (some 36831))).lll.loop = .capture ∧
    (after .tstLineArrival (recapturing 36864 none)).lll.loop = .capture := by decide
theorem witness_CapturesOpenSnapAndEnd_others :
    looping.lll.loop = .free ∧ up.lll.loop ≠ .capture ∧ up.tst.mode ≠ .internalLoop ∧
    ({ up with lll := capturing } : State).lll.capture = some ⟨.free, 270891, 17100, some 36859⟩ := by decide

/-- A loop in TRACK whose line has its expected edge at 344623 pu. -/
def measured : Lll := { up.lll with loop := .track, ideal := 5513968, p := 589856 }

/-- Offsets at the acceptance window and a quarter line, and one beyond each. -/
theorem witness_ArrivalsAreMeasured :
    [344623 + 1024, 344623 + 1025, 344623 + 9216, 344623 + 9217].map measured.offset = [1024, 1025, 9216, 9217] ∧
    Standard.s625.quarter = 9216 ∧ measured.loop = .track ∧ measured.settling = false ∧
    up.cue.settings.inCoast 10 = false := by decide
theorem witness_ThirdStrayIsAStep :
    let s := straying 2410 stray2
    (s.lll.loop = .coast ∧ s.lll.settling = false ∧ s.cue.settings.inCoast s.tgn.line = false ∧
      s.lll.accepted = none ∧ s.lll.lineStray = some 2410 ∧ s.tgn.line < s.tgn.length ∧
      s.lll.flywheel + 1 < s.cue.settings.flyLimit) ∧
    s.lll.stray = some ⟨2, 2390⟩ ∧ s.cue.settings.stepMode = .slew ∧
    (2422 - 2390 : Int).natAbs ≤ s.cue.settings.captureTol ∧ s.cue.settings.captureTol < (2423 - 2390 : Int).natAbs := by
  decide
theorem witness_ThirdStrayIsAStep_snap :
    let s := withSet (fun t => { t with stepMode := .snap }) (straying 2410 stray2)
    s.cue.settings.stepMode = .snap ∧ (0 : Int) ≤ s.lll.p + 16 * 2410 ∧
    (straying 2390 stray1).lll.stray = some ⟨1, 2400⟩ ∧
    (straying 2400 (withLll (fun l => { l with loop := .track }) up)).lll.stray = none := by decide

/-- HOLDOVER at the end of a field with this holdover count, of the limit 50. -/
def holding (n : Nat) : State := lastLine (withLll (fun l => { l with loop := .holdover, holdover := n }) up)

theorem witness_FlywheelAndHoldoverRunOut_holdover :
    (holding 49).lll.loop = .holdover ∧ (holding 49).tgn.length ≤ (holding 49).tgn.line ∧
    (holding 49).cue.settings.holdLimit ≤ (holding 49).lll.holdover + 1 ∧
    (holding 48).lll.holdover + 1 < (holding 48).cue.settings.holdLimit := by decide
/-- LOCK/FREE at the expiry and, out of F_LOCK, FIELD/LOST with reason FREE behind it. -/
theorem witness_FlywheelAndHoldoverRunOut_free :
    let s := withFal (fun f => { f with field := .lock }) (holding 49)
    s.rpw.fifo.length ≤ 5 ∧ s.fal.field ≠ .seek ∧
    (after (.holdoverExpiry quiet) s).rpw.fifo.map (fun x => (x.report.w0, x.report.w5))
      = [(0x0205#16, 9), (0x0304#16, 1)] := by decide
theorem witness_FlywheelAndHoldoverRunOut_capture :
    let s := withLll (fun l => { l with loop := .capture, capture := some ⟨.holdover, 0, 0, none⟩ }) (holding 49)
    s.lll.loop = .capture ∧ s.lll.capture = some ⟨.holdover, 0, 0, none⟩ ∧ s.tgn.length ≤ s.tgn.line ∧
    s.cue.settings.holdLimit ≤ s.lll.holdover + 1 ∧ s.cue.engine = .stopped := by decide

/-! ### The field aligner and the generated fields -/

/-- A broad record opened d pu before the pulse of section 1.2.1, with c pulses, and a lockout. -/
def aligning (d c : Nat) (lock : Option Pu) : State :=
  withFal (fun f => { f with broad := some ⟨16009 - BitVec.ofNat 36 d, 0, .one, c⟩, lockout := lock }) inPulse

theorem witness_BroadPulsesDetectStarts :
    (inPulse.input .a).classifier = .inPulse 16009 30 ∧ (inPulse.input .a).slicer.s < ((49#8).toNat : Int) ∧
    600 ≤ widthAt 1600 ∧ widthAt 2500 ≤ 1500 ∧ inPulse.rfe.active = .a ∧ inPulse.tst.mode ≠ .internalLoop ∧
    inPulse.lll.loop ≠ .track ∧ inPulse.lll.loop ≠ .coast ∧ inPulse.lll.p / 16 = 36864 ∧
    inPulse.fal.lockout = none ∧ inPulse.fal.broad = none := by decide
theorem witness_BroadPulsesDetectStarts_spans :
    ((16009#36 : Pu) - (16009 - BitVec.ofNat 36 (16 * 36864 - 1))).toNat < 16 * 36864 ∧
    16 * 36864 ≤ ((16009#36 : Pu) - (16009 - BitVec.ofNat 36 (16 * 36864))).toNat ∧
    (aligning (3 * 36864) 2 none).fal.broad.map (fun r => ((16009#36 : Pu) - r.first).toNat) = some (3 * 36864) ∧
    (aligning (3 * 36864 + 1) 2 none).fal.broad.map (fun r => ((16009#36 : Pu) - r.first).toNat)
      = some (3 * 36864 + 1) := by decide

/-- A third BROAD edge, 1600 lines into a locked field. -/
theorem witness_BroadPulsesDetectStarts_locked :
    let s := withLll (fun l => { l with loop := .track }) (aligning 36864 2 none)
    (s.lll.loop = .track ∧ s.fal.broad.map (fun r => r.count) = some 2 ∧ s.fal.lockout = none ∧
      s.tst.lockTime = none ∧ ((16009#36 : Pu) - (16009 - 36864)).toNat ≤ 3 * (s.lll.p / 16)) ∧
    (after (.pulseClassification .a 2000 49 14) s).fal.startSeen = true := by decide
/-- The lines at whose start a run is placed: line 313 and line 1 of field 1 with V offset 0, line 312 of
field 1 and line 312 of field 2 with V offset 1. -/
theorem witness_TestRunsReachTheAligner_placed :
    let before_ (q : Parity) (line length v : Nat) : State :=
      withSet (fun t => { t with vOffset := v }) (withTgn (fun t => { t with parity := q, line := line, length := length })
        { looping with tst := { looping.tst with run := [] } })
    let placed (s : State) : Nat := (after (.lineEnd quiet) s).tst.run.length
    (after (.lineEnd quiet) (before_ .one 312 313 0)).lll.p ≤ 2 ^ 20 ∧
    (after (.lineEnd quiet) (before_ .one 312 313 0)).tst.mode = .internalLoop ∧
    [placed (before_ .one 312 313 0), placed (before_ .two 312 312 0), placed (before_ .one 311 313 1),
     placed (before_ .two 311 312 1), placed (before_ .two 311 312 0), placed (before_ .one 100 313 1)]
      = [3, 3, 3, 3, 0, 0] := by decide

/-- A run of one edge left, its first two counted, in a locked loop. -/
def lastOfRun (loop : LoopState) : State :=
  withLll (fun l => { l with loop := loop })
    (withFal (fun f => { f with broad := some ⟨1600 - 36864, 0, .one, 2⟩ }) looping)

theorem witness_TestRunsReachTheAligner :
    looping.tst.run = 1600 :: [] ∧ looping.tst.mode = .internalLoop ∧ looping.fal.lockout = none ∧
    looping.fal.broad = none ∧ (lastOfRun .track).fal.broad = some ⟨1600 - 36864, 0, .one, 2⟩ ∧
    ((1600#36 : Pu) - (1600 - 36864)).toNat ≤ 3 * ((lastOfRun .track).lll.p / 16) ∧
    (lastOfRun .track).lll.locked = true ∧ (lastOfRun .free).lll.locked = false ∧
    ({ looping with tst := { looping.tst with mode := .normal } } : State).tst.mode ≠ .internalLoop := by decide
/-- The second arrival of a run; a lockout that is just over at the edge, and one that is not (R46). -/
theorem witness_TestRunsReachTheAligner_second :
    let s (ago : Nat) := withFal (fun f => { f with
      broad := some ⟨1600 - 18432, 0, .one, 1⟩, lockout := some (1600 - BitVec.ofNat 36 ago) }) looping
    looping.lll.p / 16 = 36864 ∧
    (after .tstBroadArrival (s 589824)).fal.broad = some ⟨1600 - 18432, 0, .one, 2⟩ ∧
    (after .tstBroadArrival (s 589823)).fal = (s 589823).fal := by decide
theorem witness_TestRunsReachTheAligner_lock :
    (after .tstBroadArrival (lastOfRun .track)).fal.lastDelta = 0 ∧
    (after .tstBroadArrival (lastOfRun .track)).fal.field = .lock ∧ (lastOfRun .track).fal.field = .seek := by decide

/-- A start of reference field 1 in a field 2 of 312 lines, at this distance from its end. -/
def startAt (d : Int) : BroadRecord := { first := 0, anchor := 312 + d, parity := .one, count := 2 }
def field2 (v : VertMode) : FieldCtx :=
  { std := .s625, parity := .two, length := 312, line := 7, vOffset := 0, vert := v }

/-- Δ at 0, at the correction limit of 8 and beyond it, and at its own bounds. -/
theorem witness_StartsAndShiftsSetTheLength :
    [0, 8, 9, -8, -9, -156, 312, 313].map (fun d => (field2 .jump).misalignment .one ((startAt d).aligned (field2 .jump)))
      = [0, 8, 9, -8, -9, -156, 312, -312] ∧
    [0, 8, -8, -156, -157].map (fun d => (field2 .jump).agrees .one ((startAt d).aligned (field2 .jump)))
      = [true, true, true, false, false] := by decide
theorem witness_StartsAndShiftsSetTheLength_pending :
    ((8 : Int) - 8) % 625 = 0 ∧ ((8 : Int) - 0) % 625 ≠ 0 ∧ (field2 .slip).vert = .slip ∧
    ((({ field := .lock, shift := 8 } : Fal).handleStart (field2 .jump) (startAt 8)).length,
     (({ field := .align } : Fal).handleStart (field2 .slip) (startAt 8)).length,
     (({ field := .lock } : Fal).handleStart (field2 .jump) (startAt 8)).length) = (312, 313, 320) := by decide
/-- R51's test at its ends in field 2 of 312 lines with line 7 in progress: 20 lines and one fewer, Ls + 16 and
one more as an adjustment in a field already longer, a jump of 16 and of 17, which becomes one back, and SLIP. -/
theorem witness_StartsAndShiftsSetTheLength_taken :
    let r (f : FieldState) (v : VertMode) (len : Nat) (d : Int) : Nat × Int :=
      let a := ({ field := f } : Fal).handleStart { field2 v with length := len } { startAt d with anchor := len + d }
      (a.length, a.fal.shift)
    [r .align .jump 312 (-292), r .align .jump 312 (-293)] = [(20, 0), (312, -293)] ∧
    [r .lock .jump 320 8, r .lock .jump 321 8] = [(328, 0), (321, 8)] ∧
    [r .align .jump 312 16, r .align .jump 312 17, r .align .slip 312 17] = [(328, 0), (312, -608), (313, 16)] ∧
    ((field2 .jump).agrees .one 328, (field2 .jump).line) = (true, 7) := by decide
/-- FIELD/LOCKED from F_ALIGN at Δ = 0, none in F_LOCK, FIELD/ADJUST at 8 and FIELD/REALIGN at 9 (R62). -/
theorem witness_StartsAndShiftsSetTheLength_reports :
    let w (f : FieldState) (d : Int) : List (Word × Word × Word × Word) :=
      ((({ field := f } : Fal).handleStart (field2 .jump) (startAt d)).reports).map
        (fun r => (r.w0, r.w4, r.w5, r.w6))
    w .align 0 = [(0x0301#16, 6, 2, 0)] ∧ w .lock 0 = [] ∧ w .lock 8 = [(0x0302#16, 6, 8, 320)] ∧
    w .lock 9 = [(0x0303#16, 5, 0, 9)] ∧ w .align 9 = [] := by decide
theorem witness_StartsAndShiftsSetTheLength_next :
    let f : Fal := { field := .align, shift := 16 }
    f.field ≠ .seek ∧ f.kind = .whole ∧ f.shift ≤ 16 ∧ 20 < (f.nextLength .s625 .one false).1 ∧
    (f.nextLength .s625 .one false).1 = 313 + 16 ∧
    ({ field := .align, shift := -2, kind := .slip } : Fal).kind = .slip ∧
    (({ field := .align, shift := -293 } : Fal).nextLength .s625 .one false) = (20, 0) ∧
    (({ field := .align, shift := -294 } : Fal).nextLength .s625 .one false) = (20, -1) := by decide
theorem witness_FourMissesLoseTheField :
    (missing.tgn.line = 16 ∧ missing.fal.field ≠ .seek ∧ missing.fal.startSeen = false ∧
      missing.lll.inHoldover = false ∧ missing.fal.miss = 3 ∧ missing.flywheelHere quiet = false ∧
      16 < missing.tgn.length) ∧
    (withFal (fun f => { f with startSeen := true }) missing).fal.startSeen = true ∧
    (withFal (fun f => { f with miss := 2 }) missing).fal.miss < 3 ∧ up.tgn.line ≠ 16 ∧ up.fal.field = .seek := by
  decide
/-- FIELD/LOST at the fourth miss: reason MISSED, the state left, and 4 misses (R62). -/
theorem witness_FourMissesLoseTheField_reported :
    missing.rpw.fifo.length ≤ 6 ∧
    (after (.missedFields quiet) missing).rpw.fifo.map (fun x => (x.report.w0, x.report.w5, x.report.w7))
      = [(0x0304#16, 0, 4)] := by decide
theorem witness_FourMissesLoseTheField_holdover :
    let s := withLll (fun l => { l with loop := .holdover }) missing
    s.tgn.line = 16 ∧ 16 < s.tgn.length ∧ s.fal.field ≠ .seek ∧ s.lll.inHoldover = true := by decide
theorem witness_ScanPointComesOnce :
    let s := withTgn (fun t => { t with line := 305 }) live
    (s.tgn.line < s.tgn.length ∧ s.tgn.line + s.cue.settings.scanLines = s.tgn.length ∧ 1 ≤ s.tgn.line ∧
      s.tgn.scanDone = false) ∧
    (s.cue.engine = .running ∧ s.cue.linkValid = true ∧ s.cue.startup = false) ∧ up.cue.engine ≠ .running ∧
    live.tgn.line + live.cue.settings.scanLines ≠ live.tgn.length := by decide
theorem witness_FieldBoundaryBeginsAField :
    (lastLine live).tgn.length ≤ (lastLine live).tgn.line ∧ live.tgn.line < live.tgn.length ∧
    (lastLine live).cue.engine = .running ∧ (lastLine live).cue.startup = false := by decide
/-- Field 2 of 312 lines begins under R50's table: the earliest shift a field of 20 lines takes whole and one
more, the latest, SLIP both ways, and HOLDOVER. -/
theorem witness_FieldBoundaryBeginsAField_length :
    let s (k : ShiftKind) (n : Int) (l : LoopState) : State := lastLine (withLll (fun x => { x with loop := l })
      (withFal (fun f => { f with field := .align, shift := n, kind := k }) live))
    let r (k : ShiftKind) (n : Int) (l : LoopState) : Nat × Int :=
      let t := after (.lineEnd quiet) (s k n l)
      (t.tgn.length, t.fal.shift)
    ((s .whole 16 .capture).cue.due = [] ∧ (s .whole 16 .capture).cue.idle = none) ∧
    [r .whole (-292) .capture, r .whole (-293) .capture, r .whole 16 .capture] = [(20, 0), (20, -1), (328, 0)] ∧
    [r .slip 3 .capture, r .slip (-3) .capture, r .whole 16 .holdover, r .whole 0 .capture]
      = [(313, 2), (311, -2), (312, 16), (312, 0)] := by decide
theorem witness_OnlyBoundariesMoveTheStamp :
    exec (.ignoredPortWrite 0) up = .next up ∧ (after (.lineEnd quiet) (lastLine up)).tgn.stamp = 1 ∧
    (after (.softReset false false 0) (withTgn (fun t => { t with stamp := 9 }) up)).tgn.stamp = 0 :=
  ⟨rfl, by decide, by decide⟩

/-- INTERNAL_LOOP on a field's last line, the record open for that field. -/
theorem witness_FieldEndIsReported :
    let s := lastLine looping
    s.tgn.length ≤ s.tgn.line ∧ s.lll.loop = .free ∧ 16 < s.tgn.length ∧
    s.tst.count = some ⟨0, 0⟩ ∧ s.tgn.stamp = 0 ∧ s.cue.engine = .stopped ∧ s.rpw.fifo.length < 8 := by decide
theorem witness_FieldEndIsReported_fieldstat :
    let s := withSet (fun t => { t with fieldstat := true }) (withCue (fun c => { c with engine := .halted }) (lastLine live))
    (s.cue.engine = .halted ∧ s.cue.settings.fieldstat = true ∧ s.rpw.fifo = [] ∧ s.lll.stats.errors = none) ∧
    (withLll (fun l => { l with stats := l.stats.addError 3 }) s).lll.stats.errors = some ⟨3, 3, 3⟩ := by decide
/-- A field in TRACK whose last line is accepted at 2 pu, with nothing due: counted in both records. -/
theorem witness_FieldEndIsReported_locked :
    let s := withSet (fun t => { t with fieldstat := true }) (tracking 2 (lastLine { live with
      tst := { live.tst with count := some ⟨0, 5⟩ } }))
    let t := after (.lineEnd quiet) s
    (s.lll.loop = .track ∧ s.lll.settling = false ∧ s.cue.settings.inCoast s.tgn.line = false) ∧
    (s.cue.engine = .running ∧ s.cue.due = [] ∧ s.cue.idle = none ∧ s.tgn.line ≠ 16) ∧
    t.rpw.ended = { accepted := 1, coast := 0, errors := some ⟨2, 2, 2⟩ } ∧ t.tst.count = some ⟨1, 0⟩ ∧
    t.rpw.fifo.map (fun x => (x.report.w0, x.report.w4)) = [(0x0B01#16, 6), (0x0C01#16, 1)] := by decide
/-- A coast line, a phase step and a pull limit as the field's last line. -/
theorem witness_FieldEndIsReported_last :
    let s := lastLine { live with tst := { live.tst with count := some ⟨0, 5⟩ } }
    let stray (n : Nat) := withLll (fun l => { l with loop := .coast, lineStray := some 9, stray := some ⟨n, 9⟩ }) s
    ((after (.lineEnd quiet) (stray 1)).rpw.ended.coast, (after (.lineEnd quiet) (stray 2)).rpw.ended.coast) = (1, 0) ∧
    (after (.lineEnd quiet) (withLll (fun l => { l with p := 599040 }) (tracking 1024 s))).rpw.fifo.map
      (fun x => (x.report.w0, x.report.stamp)) = [(0x0203#16, 0), (0x0B01#16, 1)] := by decide
/-- The boundary's get read: posted, owed behind a request of the writer in service or a lone put write, and
served by a get read in hand (R86, R167). -/
theorem witness_FieldEndIsReported_get :
    let t (s : State) : Option Request × Bool :=
      let u := after (.lineEnd quiet) (lastLine s)
      (u.mpt.rpw, u.rpw.getDue)
    t live = (some (.getRead 4132 false), false) ∧ t (serving (.lonePut 4130 0) live) = (none, true) ∧
    t (withRpw (fun r => { r with putDue := true }) live) = (some (.lonePut 4130 0), true) ∧
    t (serving (.getRead 4132 true) live) = (none, false) ∧ t up = (none, false) := by decide
theorem witness_FieldEndIsReported_status :
    let t := after (.lineEnd quiet) (lastLine live)
    (t.cue.engine ≠ .stopped ∧ t.cue.linkValid = true ∧ t.rpw.suspended = false) ∧
    quiet.order.stat ≠ .last ∧ quiet.order.tst = .first ∧ (lastLine live).mpt.serviceIs .status = false ∧
    (serving (.statusWord 0 0) (lastLine live)).mpt.serviceIs .status = true ∧
    t.mpt.sta = some (.statusWord 4192 1) := by decide

/-! ### Dots and the test unit -/

/-- Two dots whose drive edge is the next, the delay in use 1. -/
def driving : State :=
  withTgn (fun t => { t with delay := 1, drives := [⟨0, 1, 7, 640, 1⟩, ⟨0, 1, 8, 640, 1⟩] }) (dotLine 9)

theorem witness_DotEdgesDriveKey :
    (dotLine 0).dotIssued = true ∧ (dotLine 639).dotIssued = true ∧ (dotLine 640).dotIssued = false ∧
    (dotLine 0).tgn.delay % 65536 = 0 ∧ driving.dotIssued = true ∧ driving.tgn.delay % 65536 ≠ 0 ∧
    driving.tgn.drives = [⟨0, 1, 7, 640, 1⟩] ++ (⟨0, 1, 8, 640, 1⟩ : Drive) :: [] ∧
    driving.tgn.edgeCount + 1 = 1 := by decide
theorem witness_LockTimeIsReported :
    let s := lastLine (withTgn (fun t => { t with stamp := 7 }) looping)
    (s.tst.lockTime = some 0 ∧ s.tgn.length ≤ s.tgn.line ∧ 8 ≤ (s.tgn.stamp + 1 - 0).toNat ∧ s.fal.field = .seek ∧
      quiet.order.tst = .first ∧ s.cue.engine = .stopped ∧ s.rpw.fifo = []) ∧
    ((6#24 : Stamp) + 1 - 0).toNat < 8 ∧ up.tst.lockTime = none := by decide

theorem witness_LockTimeIsReported_locked :
    let s := lastOfRun .track
    (s.tst.run = 1600 :: [] ∧ s.tst.mode = .internalLoop ∧ s.tst.lockTime = some 0 ∧ s.lll.loop = .track ∧
      s.rpw.fifo.length ≤ 6 ∧ (after .tstBroadArrival s).fal.field = .lock) ∧
    (lastOfRun .free).lll.loop = .free ∧ (after .tstBroadArrival looping).fal.field ≠ .lock := by decide
/-- The eighth boundary with the engine WAITING and with it RUNNING and nothing due. -/
theorem witness_LockTimeIsReported_noCue :
    let old (s : State) := lastLine { withTgn (fun t => { t with stamp := 7 }) s with tst := looping.tst }
    let f (s : State) := ((after (.testNolock quiet) s).tst.lockTime,
      (after (.testNolock quiet) s).rpw.fifo.any (fun q => q.report.w0 = 0x0B03#16))
    (old (waiting 0)).cue.engine = .waiting ∧ (old (waiting 0)).tst.lockTime = some 0 ∧
    (old live).cue.engine = .running ∧ (old live).cue.due = [] ∧ (old live).cue.idle = none ∧
    f (old (waiting 0)) = (none, true) ∧ f (old live) = (none, true) := by decide
/-- The LINE arrival that snaps a capture into TRACK in F_LOCK closes the record; the one that only restarts the
capture does not. -/
theorem witness_LockTimeIsReported_snap :
    let s (d : Nat) := withFal (fun f => { f with field := .lock }) (recapturing 36864 (some d))
    let t := after .tstLineArrival (s 36832)
    ((s 36832).tst.lines = 294912 :: [] ∧ (s 36832).tst.mode = .internalLoop ∧ (s 36832).tst.lockTime = some 0 ∧
      (s 36832).lll.capture = some ⟨.holdover, 294912 - 36864, 17000, some 36832⟩ ∧
      0 ≤ (BitVec.ofNat 32 ((s 36832).lll.nextIdeal.toNat / 256) - (BitVec.ofNat 32 ((294912#36).toNat / 16) + 170)).toInt) ∧
    t.rpw.fifo.map (fun q => q.report.w0) = [0x0201#16, 0x0B02#16] ∧ t.tst.lockTime = none ∧
    (after .tstLineArrival (s 36831)).tst.lockTime = some 0 := by decide

/-! ### The memory port -/

theorem witness_RequestsAreGrantedAndWritten :
    let s := postKey 64 live
    (s.mpt.service = none ∧ s.mpt.cueQ = [] ∧ s.mpt.key = some (.keySource 64)) ∧
    (postCue (.fillRead 0 0) s).mpt.cueQ = .fillRead 0 0 :: [] ∧
    (live.mpt.key = none ∧ (postReport (.lonePut 0 0) live).mpt.rpw = some (.lonePut 0 0)) ∧
    live.mpt.rpw = none ∧ live.mpt.sta = none ∧
    (serving (.fillRead 0 0) live).mpt.service = some ⟨.fillRead 0 0, false, 0, none⟩ := by decide
theorem witness_MemoryFaultHalts :
    let s := serving (.keySource 64) (loading 0)
    s.mpt.service = some ⟨.keySource 64, false, 0, none⟩ ∧ 0 < (s.runAddrs (.keySource 64) []).length ∧
    (s.runAddrs (.keySource 64) []).length ≤ 1 ∧ s.rpw.fifo.length < 8 ∧
    (s.kbl.loader = .loading ∧ s.kbl.load ≠ none) ∧ live.kbl.loader ≠ .loading := by decide
/-- SWAP/ABORTED with the reason MEMORY stands behind HALT/MEMORY; put and the last get stay. -/
theorem witness_MemoryFaultHalts_aborted :
    let t := after (.memoryFault .notGranted 0 false []) (serving (.keySource 64) (loading 1))
    t.rpw.fifo.map (fun x => (x.report.w0, x.report.w4, x.report.w5)) = [(0x0702#16, 5, 64), (0x0804#16, 18, 1)] ∧
    (t.rpw.put, t.rpw.lastGet) = (0, 3) ∧ (loading 1).rpw.fifo.length < 7 := by decide
/-- A request that STOP cut to 3 words: its third can fail, its second and an ungranted bus can not. -/
theorem witness_MemoryFaultHalts_cut :
    let s := { live with mpt := { live.mpt with service := some ⟨.startupLoad 4096, true, 0, some 3⟩ } }
    s.mpt.service = some ⟨.startupLoad 4096, true, 0, some 3⟩ ∧ 2 < (s.runAddrs (.startupLoad 4096) []).length ∧
    (after (.memoryFault (.busError 9) 2 false []) s).cue.haltReason = some .memory ∧
    (after (.memoryFault (.busError 9) 1 false []) s).cue.haltReason = none ∧
    (after (.memoryFault .notGranted 2 false []) s).cue.haltReason = none := by decide
theorem witness_StartUpLoadValidates :
    starting.mpt.service = some ⟨.startupLoad 1048576, false, 0, none⟩ ∧
    (startupImage (starting.mem.readRun (linkAddrs 1048576 startupWords) []).2).1.firstFailure (some 1048576) = none ∧
    (startupImage (State.reset.mem.readRun (linkAddrs 1048576 startupWords) []).2).1.firstFailure (some 1048576)
      = some 3 := by decide
/-- A load of all zeros fails with a LOADING load in hand: SWAP/ABORTED with the reason LINK (R160). -/
theorem witness_StartUpLoadValidates_aborted :
    let t := after (.startupLoadComplete []) (serving (.startupLoad 4096) (loading 1))
    t.rpw.fifo.map (fun x => (x.report.w0, x.report.w4, x.report.w5)) = [(0x0701#16, 0, 3), (0x0804#16, 34, 1)] ∧
    t.kbl.loader = .idle := by decide

/-- The records a load's effects leave, with the reasons, the loop, the field and the test unit. -/
def handed (old new : Settings) (s : State) : List (Word × Word) × LoopState × FieldState × Bool :=
  let t := loadEffects old (withCue (fun c => { c with settings := new }) s)
  (t.rpw.fifo.map (fun x => (x.report.w0, x.report.w5)), t.lll.loop, t.fal.field, t.tst.count.isSome)

/-- Entry and exit of INTERNAL_LOOP, a forced standard that differs, the other input named, a V offset that
changes in F_LOCK, and a load that changes nothing (R91, R190). -/
theorem witness_StartUpLoadValidates_effects :
    (let s := withFal (fun f => { f with field := .lock }) (withLll (fun l => { l with loop := .track }) live)
     let o := s.cue.settings
     [handed o { o with testMode := .internalLoop } s, handed o o { s with tst := looping.tst },
      handed o { o with stdMode := .force .s525 } s, handed o { o with policy := .named .b } s,
      handed o { o with vOffset := 3 } s, handed o o s]) =
     [([(0x0204#16, 9), (0x0304#16, 2)], .holdover, .seek, true),
      ([(0x0204#16, 9), (0x0304#16, 2)], .holdover, .seek, false),
      ([(0x0206#16, 0), (0x0205#16, 8), (0x0304#16, 3)], .free, .seek, false),
      ([(0x0103#16, 1), (0x0204#16, 9), (0x0304#16, 2)], .holdover, .seek, false),
      ([(0x0303#16, 2)], .track, .align, false), ([], .track, .lock, false)] := by decide

/-- The slicer restart of a load (R3), AUTO from a named input (R16), and BARS from NORMAL (R190). -/
theorem witness_StartUpLoadValidates_restart :
    let t := loadEffects { up.cue.settings with policy := .named .a }
      (withSet (fun x => { x with restart := true, testMode := .bars }) { up with rfe := { up.rfe with absence := 4 } })
    [t.rfe.inA.slicer, t.rfe.inB.slicer] = [⟨0, 255, 255, 127⟩, ⟨0, 255, 255, 127⟩] ∧ t.rfe.absence = 0 ∧
    t.tst.mode = .bars ∧ t.rpw.fifo = [] := by decide

theorem witness_ScansFillTheDueList :
    let s := serving (.fillRead 4096 1) scanning
    s.mpt.service = some ⟨.fillRead 4096 1, false, 0, none⟩ ∧ s.cue.qLen = 8 ∧ s.cue.badFill = false ∧
    s.cue.seenEmpty = false ∧ s.cue.due.length < 16 ∧ s.rpw.fifo.length < 8 ∧
    (after (.fillReadComplete []) { s with mem := [(4102, 7)] }).cue.lastFill = 7 ∧
    (after (.fillReadComplete []) { s with mem := [(4102, 8)] }).cue.badFill = true := by decide
theorem witness_ScansFillTheDueList_records :
    let s := serving (.cueRecord 16384 0 1 4096) scanning
    s.mpt.service = some ⟨.cueRecord 16384 0 1 4096, false, 0, none⟩ ∧ s.cue.scan = some ⟨1, 0⟩ ∧ s.cue.deferral ≠ some 0 ∧
    [2, 8388608, 8388609, 1].map (fun g => ((aimed g).target - 1).toNat) = [1, 8388607, 8388608, 0] ∧
    (serving (.idleCue 4096) scanning).mpt.service = some ⟨.idleCue 4096, false, 0, none⟩ ∧
    ({ aimed 0 with w0 := 0x0101#16 } : CueWords).immediate = true := by decide
/-- A SETTINGS record and an idle SETTINGS cue are kept with the image read behind them, queue length from word
2 of the link block and D from word 28; a discarded one, and a NONE, are not kept (R83, R107, R108). -/
theorem witness_ScansFillTheDueList_image :
    let m := (((Memory.writeWord [] 16384 0x010d#16).writeWord 4108 0x010d#16).writeWord 4100 12).writeWord 4152 640
    let s (discard : Bool) (r : Request) : State :=
      { scanning with mem := m, mpt := { live.mpt with service := some ⟨r, discard, 0, none⟩ } }
    let seen (c : Copy) : Option (Nat × Word) := c.image.map (fun im => (im.qLen, im.settings.getD 0 0))
    ((after (.cueRecordRead []) (s false (.cueRecord 16384 0 1 4096))).cue.due.map seen) = [some (12, 640)] ∧
    ((after (.idleCueRead []) (s false (.idleCue 4096))).cue.idle.map seen) = some (some (12, 640)) ∧
    (after (.cueRecordRead []) (s true (.cueRecord 16384 0 1 4096))).cue = scanning.cue ∧
    (after (.idleCueRead []) (s true (.idleCue 4096))).cue = scanning.cue ∧
    (after (.idleCueRead []) { s false (.idleCue 4096) with mem := [] }).cue = scanning.cue := by decide
theorem witness_RequestsAreGrantedAndWritten_words :
    (serving (.takeWrite 4104 5) live).mpt.service = some ⟨.takeWrite 4104 5, false, 0, none⟩ ∧
    (serving (.lonePut 4130 0) live).mpt.service = some ⟨.lonePut 4130 0, false, 0, none⟩ ∧
    (serving (.statusWord 4192 2) live).mpt.service = some ⟨.statusWord 4192 2, false, 0, none⟩ ∧
    live.rpw.putDue = false ∧ live.rpw.getDue = false ∧ live.rpw.status = [] ∧ live.mpt.sta = none ∧
    (withRpw (fun r => { r with status := [(4194, 3)] }) live).rpw.status = (4194, 3) :: [] := by decide
theorem witness_SourceWordsFillTheShadow :
    (serving (.keySource 64) (loading 2)).mpt.service = some ⟨.keySource 64, false, 0, none⟩ ∧
    (loading 2).kbl.load = some (loadOf 2) ∧ 2 * (1 + 1) < (loadOf 1).count ∧ (loadOf 2).count ≤ 2 * (2 + 1) ∧
    ¬ 2 * 2 + 1 < (loadOf 2).count ∧ 2 * 1 + 1 < (loadOf 1).count := by decide
/-- The read of a cancelled load, and that of one in hand, at the last word. -/
theorem witness_SourceWordsFillTheShadow_discarded :
    let s := { live with mpt := { live.mpt with service := some ⟨.keySource 64, true, 0, some 1⟩ } }
    s.mpt.service = some ⟨.keySource 64, true, 0, some 1⟩ ∧ s.kbl.load = none ∧
    (after (.keySourceWordRead []) s).mpt.service = none := by decide

/-! ### Reports and the cue engine -/

theorem witness_FifoAcceptsOrWithholds :
    (filled 7 live).rpw.fifo.length < 8 ∧ 8 ≤ (filled 8 live).rpw.fifo.length := by decide
theorem witness_RecordsReachTheRing :
    let s := filled 1 live
    (s.cue.engine ≠ .stopped ∧ s.cue.startup = false ∧ s.cue.linkValid = true ∧ s.rpw.suspended = false ∧
      s.mpt.rpw = none ∧ s.mpt.serviceIs .report = false) ∧
    s.rpw.fifo = ⟨rep 0, none⟩ :: [] ∧ s.rpw.lastGet < s.rpw.len ∧ (s.rpw.put + 1) % s.rpw.len ≠ s.rpw.lastGet ∧
    ((withRpw (fun r => { r with put := 2 }) s).rpw.put + 1) % 4 = 3 ∧ live.rpw.fifo = [] ∧
    (withRpw (fun r => { r with lastGet := 4 }) s).rpw.len ≤ 4 := by decide
theorem witness_RecordsReachTheRing_written :
    let s := withRpw (fun r => { r with fifo := [⟨rep 0, some ⟨3, 109, 112⟩⟩] })
      (serving (.reportWrite 32768 (rep 0) true 4130 3) live)
    s.mpt.service = some ⟨.reportWrite 32768 (rep 0) true 4130 3, false, 0, none⟩ ∧
    s.rpw.fifo = ⟨rep 0, some ⟨3, 109, 112⟩⟩ :: [] ∧ 3 < s.rpw.len ∧ s.rpw.openGap = 0 ∧
    (serving (.reportWrite 32768 (rep 0) false 4130 3) (filled 1 live)).mpt.service
      = some ⟨.reportWrite 32768 (rep 0) false 4130 3, false, 0, none⟩ := by decide
theorem witness_RecordsReachTheRing_get :
    let s := serving (.getRead 4132 true) live
    s.mpt.service = some ⟨.getRead 4132 true, false, 0, none⟩ ∧ s.rpw.len = 4 ∧ s.rpw.badGet = false ∧
    s.rpw.fifo.length < 8 ∧ (after (.getReadComplete []) { s with mem := [(4132, 4)] }).rpw.badGet = true ∧
    (after (.getReadComplete []) { s with mem := [(4132, 3)] }).rpw.badGet = false := by decide
/-- A put at the ring length of 4, of a record and of a GAP: put 0 and WARN/INDEX for PUT, with the put write
posted by a writer that may write, and owed with the engine STOPPED (R84, R172). -/
theorem witness_RecordsReachTheRing_put :
    let s := serving (.reportWrite 32768 (rep 0) false 4130 4) (filled 8 live)
    let g := withRpw (fun r => { r with fifo := [⟨rep 0, some ⟨3, 109, 112⟩⟩] })
      (serving (.reportWrite 32768 (rep 0) true 4130 4) live)
    let off := withCue (fun c => { c with engine := .stopped }) s
    let t (s : State) := after (.reportWriteComplete []) s
    s.mpt.service = some ⟨.reportWrite 32768 (rep 0) false 4130 4, false, 0, none⟩ ∧ s.rpw.len ≤ 4 ∧ s.mpt.rpw = none ∧
    g.mpt.service = some ⟨.reportWrite 32768 (rep 0) true 4130 4, false, 0, none⟩ ∧
    (t s).rpw.fifo.getLast?.map (fun q => (q.report.w0, q.report.w4, q.report.w5, q.report.w6)) = some (0x0902#16, 1, 4, 4) ∧
    ((t s).rpw.put, (t s).mpt.rpw) = (0, some (.lonePut (s.cue.link.toNat + 34) 0)) ∧
    ((t g).rpw.put, (t g).rpw.fifo.length) = (0, 2) ∧
    ((t off).rpw.putDue, (t off).mpt.rpw) = (true, none) := by decide
theorem witness_EngineAtTheBoundary :
    (lastLine up).tgn.length ≤ (lastLine up).tgn.line ∧ up.cue.engine = .stopped ∧ up.cue.startup = false ∧
    (lastLine live).cue.engine = .running ∧ live.cue.due = [] ∧ live.cue.idle = none ∧
    (withCue (fun c => { c with engine := .held, heldFrom := some .running }) live).cue.heldFrom = some .running := by
  decide
/-- HELD from WAITING, with HOLD released: the wait is taken up again at the count it had. -/
theorem witness_EngineAtTheBoundary_held :
    let s (n : Nat) := withCue (fun c => { c with engine := .held, heldFrom := some .waiting }) (waiting n)
    ((s 2).cue.engine = .held ∧ (s 2).cue.heldFrom = some .waiting ∧ (s 2).lll.loop = .free ∧
      (s 2).cue.wait = some ⟨copyOf 15 1 3 0 0, .field, 3, 2, false⟩ ∧ (2 : Nat) < 3) ∧
    (s 3).cue.wait = some ⟨copyOf 15 1 3 0 0, .field, 3, 3, false⟩ ∧
    (after (.lineEnd quiet) (s 2)).cue.engine = .waiting ∧ (after (.lineEnd quiet) (s 3)).cue.engine = .running := by
  decide
/-- The timeout of 3: reached at the count 3 and not at 2; with a loop in FREE and one settled in TRACK. -/
theorem witness_EngineAtTheBoundary_wait :
    ((waiting 2).cue.engine = .waiting ∧ (waiting 2).cue.wait = some ⟨copyOf 15 1 3 0 0, .field, 3, 2, false⟩ ∧
      (waiting 2).lll.loop = .free ∧ 3 ≤ 2 + 1) ∧
    (waiting 1).cue.wait.map (fun w => decide (w.count + 1 < w.timeout)) = some true ∧
    (withLll (fun l => { l with loop := .track, settling := true })
      (withCue (fun c => { c with wait := some ⟨copyOf 15 0 3 0 0, .line, 3, 0, false⟩ }) (waiting 0))).lll.loop
      = .track := by decide
/-- A FIELD wait with the loop in COAST and F_LOCK is met, also out of HELD; a LINE wait at the boundary whose line
end enters HOLDOVER is not (R117; assumption log 52). -/
theorem witness_EngineAtTheBoundary_met :
    let s := withFal (fun f => { f with field := .lock }) (withLll (fun l => { l with loop := .coast }) (waiting 0))
    let h := withCue (fun c => { c with engine := .held, heldFrom := some .waiting }) s
    let lost := withCue (fun c => { c with wait := some ⟨copyOf 15 0 0 0 0, .line, 0, 0, false⟩ })
      (withLll (fun l => { l with flywheel := 15 }) s)
    let t (s : State) := after (.lineEnd quiet) s
    ((t s).lll.loop, (t s).fal.field, (t s).cue.engine, (t s).cue.take) = (.coast, .lock, .running, 1) ∧
    ((t h).cue.engine, (t h).cue.heldFrom) = (.running, none) ∧
    ((t lost).lll.loop, (t lost).cue.engine) = (.holdover, .waiting) := by decide
/-- WAITEND/EXPIRED and WAITEND/MET with their counts, and CUE/DONE behind one that asks for it. -/
theorem witness_EngineAtTheBoundary_reported :
    let s (w : Word) (c : WaitCond) (l : LoopState) : State := withLll (fun x => { x with loop := l, settling := true })
      (withCue (fun x => { x with wait := some ⟨{ copyOf 15 0 3 0 0 with words :=
        { (copyOf 15 0 3 0 0).words with w0 := w } }, c, 3, 2, false⟩ }) (waiting 2))
    let r (s : State) := (after (.lineEnd quiet) s).rpw.fifo.map (fun x => (x.report.w0, x.report.w4, x.report.w6))
    (s 15 .field .free).rpw.fifo = [] ∧ (0x040f#16 : Word).getLsbD 10 = true ∧
    r (s 15 .field .free) = [(0x0502#16, 1, 3)] ∧
    r (s 0x040f#16 .line .track) = [(0x0501#16, 0, 3), (0x0404#16, 15, 0)] := by decide
/-- The take write of a wait that ends: granted by an idle port, behind a waiting one, in place of a waiting take
write; none for the idle copy; CUE_TRIGGER where take meets the trigger (R112). -/
theorem witness_EngineAtTheBoundary_take :
    let s := withCue (fun c => { c with trigger := some 1 }) (waiting 2)
    let l := s.cue.link.toNat
    let idle := withCue (fun c => { c with wait := some ⟨copyOf 15 1 3 0 0, .field, 3, 2, true⟩ }) s
    let busy (q : List Request) := { serving (.keySource 64) s with mpt := { (serving (.keySource 64) s).mpt with cueQ := q } }
    let t (s : State) := after (.lineEnd quiet) s
    s.mpt.service = none ∧ s.mpt.cueQ = [] ∧
    ((t s).mpt.service.map (fun v => v.req), (t s).mpt.cueQ) = (some (.takeWrite (l + 8) 1), []) ∧
    (t s).rpw.latched = Cause.cueTrigger.bit ∧
    ((t idle).mpt.service, (t idle).mpt.cueQ, (t idle).rpw.latched) = (none, [], 0) ∧
    (t (busy [])).mpt.cueQ = [.takeWrite (l + 8) 1] ∧
    (t (busy [.takeWrite (l + 8) 0])).mpt.cueQ = [.takeWrite (l + 8) 1] := by decide
/-- Two MARK cues due, and with none due the idle copy. -/
theorem witness_BoundaryRunsTheSchedule :
    let s := withCue (fun c => { c with due := [copyOf 1 7 0 0 0, copyOf 1 8 0 0 0] }) (lastLine live)
    (s.tgn.length ≤ s.tgn.line ∧ s.cue.engine = .running ∧ s.cue.startup = false ∧ quiet.hold = false) ∧
    (after (.lineEnd quiet) s).cue.take = 2 ∧
    (after (.lineEnd quiet) (withCue (fun c => { c with idle := some { copyOf 1 9 0 0 0 with index := none } })
      (lastLine live))).rpw.fifo.map (fun x => x.report.w4) = [9] := by decide
theorem witness_FaultyCuesAreSkippedOrHalt :
    (copyOf 5 9 0 0 0).words.badField = some (4, 9) ∧
    ((copyOf 1 7 0 0 0).words.badField = none ∧ ({ copyOf 1 7 0 0 0 with standing := .past } : Copy).standing = .past) ∧
    live.cue.masks.getLsbD FaultKind.late.num = true ∧ (copyOf 1 7 0 0 0).words.lateRun = false ∧
    (withCue (fun c => { c with masks := 0 }) live).cue.masks.getLsbD FaultKind.badCue.num = false := by decide
/-- PHASE, SELECT and SETTINGS, the kinds 11, 12 and 13, under lockdown with TALLY asserted. -/
theorem witness_FaultyCuesAreSkippedOrHalt_lockdown :
    let s : State := { withSet (fun t => { t with lockdown := true }) live with pins := { tally := true } }
    (s.cue.settings.lockdown = true ∧ s.pins.tally = true) ∧
    [copyOf 11 0 0 1 0, copyOf 12 0 0 0 0, copyOf 13 0 0 0 0].map (fun c => (c.words.kind, c.words.badField, c.standing))
      = [(11, none, .due), (12, none, .due), (13, none, .due)] := by decide
/-- Each kind's operands at a limit, H target half a line for PHASE, and bank 3 at level 0 for KEYLOAD. -/
theorem witness_CuesHaveTheirEffects :
    [copyOf 1 7 0 0 0, copyOf 11 18432 15 64 0, copyOf 14 2 0 0 0, copyOf 17 0 0 0 0, copyOf 10 (3 + 16 * 1024) 255 0 0].map
      (fun c => (c.words.kind, c.words.badField, c.standing)) =
      [(1, none, .due), (11, none, .due), (14, none, .due), (17, none, .due), (10, none, .due)] ∧
    live.cue.settings.lockdown = false ∧ ((18432#16 : Word).toInt.natAbs ≤ live.rfe.working.half) := by decide
/-- NONE, and MARK's record with the low byte of its value as subcode (R120). -/
theorem witness_CuesHaveTheirEffects_none :
    (copyOf 0 0 0 0 0).words.badField = none ∧ (judgeCopy false (copyOf 0 0 0 0 0) live).2 = .performed ∧
    (judged (copyOf 0 0 0 0 0) live).rpw.fifo = [] ∧ (exec1 (copyOf 0 0 0 0 0) live).cue.take = 1 ∧
    (judged (copyOf 1 0x1207 0 0 0) live).rpw.fifo.map (fun x => (x.report.w0, x.report.w4)) = [(0x0607#16, 0x1207#16)] := by
  decide
/-- A MARK that asks for CUE/DONE, with the trigger on the index behind it and a take write waiting. -/
theorem witness_CuesHaveTheirEffects_retired :
    let c : Copy := { copyOf 1 7 0 0 0 with words := { (copyOf 1 7 0 0 0).words with w0 := 0x0401#16 } }
    let s := withCue (fun x => { x with trigger := some 1 }) (serving (.fillRead 0 0) live)
    let q := { s with mpt := { s.mpt with cueQ := [.takeWrite 4104 0] } }
    ((judgeCopy false c s).2 = .performed ∧ c.words.w0.getLsbD 10 = true ∧ s.rpw.fifo.length < 8) ∧
    (exec1 c s).rpw.fifo.map (fun x => x.report.w0) = [0x0607#16, 0x0404#16] ∧
    (exec1 c s).rpw.latched = 2 ∧ (exec1 c s).mpt.cueQ = [.takeWrite 4104 1] ∧
    (exec1 c q).mpt.cueQ = [.takeWrite 4104 1] ∧ (exec1 c live).mpt.service.map Service.req = some (.takeWrite 4104 1) ∧
    (execCopy true c live).1.cue.take = 0 := by decide
/-- A PHASE one beyond half a line, masked and unmasked. -/
theorem witness_CuesHaveTheirEffects_phase :
    live.rfe.working.half < (18433#16 : Word).toInt.natAbs ∧ live.cue.masks.getLsbD 0 = true ∧
    (withCue (fun c => { c with masks := 0 }) live).cue.masks.getLsbD 0 = false ∧
    (copyOf 11 18433 15 64 0).words.badField = none := by decide
/-- HALT with CUE/DONE, and a PHASE that changes the V offset in F_LOCK. -/
theorem witness_CuesHaveTheirEffects_reports :
    let halt : Copy := { copyOf 17 0 0 0 0 with words := { (copyOf 17 0 0 0 0).words with w0 := 0x0411#16 } }
    let locked := withFal (fun f => { f with field := .lock, lastParity := some .two, lastDelta := -3 }) live
    (exec1 halt live).rpw.fifo.map (fun x => (x.report.w0, x.report.w7)) = [(0x0404#16, 0), (0x0700#16, 1)] ∧
    (exec1 halt live).rpw.latched = 16 ∧ halt.words.kind = 17 ∧ live.rpw.openGap = 0 ∧
    (judged (copyOf 11 0 9 8 0) locked).rpw.fifo.map (fun x => (x.report.w0, x.report.w4, x.report.w5, x.report.w6))
      = [(0x0303#16, 9, 2, 0xfffd#16)] ∧ locked.cue.settings.vOffset ≠ 9 := by decide
theorem witness_CuesHaveTheirEffects_keyload :
    (copyOf 10 (3 + 16 * 1024) 255 0 0).words.loadBank = 3 ∧ 0 < (copyOf 10 (3 + 16 * 1024) 255 0 0).words.loadCount ∧
    (copyOf 10 3 255 0 0).words.loadCount = 0 ∧ 3 + live.cue.settings.protect < 4 ∧ live.kbl.loader = .idle ∧
    live.kbl.load = none ∧ (loading 0).kbl.load = some (loadOf 0) ∧ (loadOf 0).bank = 2 := by decide

/-- Kinds 18 and 10: an unknown kind, a bad bank, and a source that is odd or runs past the top of memory. -/
theorem witness_OperandsHaveEncodings :
    (copyOf 18 0 0 0 0).words.badField = some (0, 18) ∧ (copyOf 10 4 0 0 0).words.badField = some (4, 4) ∧
    [copyOf 10 16 0 1 0, copyOf 10 (16 * 3) 0 0xfffe 0xff, copyOf 10 (16 * 2) 0 0xfffe 0xff].map
      (fun c => c.words.badField.map (fun f => f.1)) = [some 6, some 6, none] := by decide
/-- PUSH with room and onto a slot 7 in use, and POP, EXCH, DROP on slots in use and EMPTY. -/
theorem witness_WindowCuesCheckTheStack :
    let full := { live with wsk := { stack := live.wsk.stack.put 7 (.live (fading 0 0 0)) } }
    ([pushCopy 0 0 64 true, copyOf 3 0 0 0 0, copyOf 4 1 0 0 0, copyOf 5 1 0 0 0, copyOf 6 1 0 0 0, copyOf 7 1 0 0 0,
      copyOf 8 1 0 0 0, copyOf 9 1 64 1023 0].map (fun c => (c.words.kind, c.words.badField, c.standing)) =
      [(2, none, .due), (3, none, .due), (4, none, .due), (5, none, .due), (6, none, .due), (7, none, .due),
       (8, none, .due), (9, none, .due)]) ∧
    full.wsk.stack.slot 7 ≠ .empty ∧ live.wsk.stack.slot 7 = .empty ∧ live.wsk.stack.slot 0 = .empty ∧
    (guarded 43).wsk.stack.slot 0 ≠ .empty ∧ live.cue.masks.getLsbD FaultKind.stackOver.num = true ∧
    (withCue (fun c => { c with masks := 0 }) live).cue.masks.getLsbD FaultKind.range.num = false := by decide
/-- The six EDIT fields on the window at depth 0, lines 1 to 329 and dots 0 to 639 at their ends. -/
theorem witness_WindowCuesCheckTheStack_edit :
    [copyOf 6 0 329 0 0, copyOf 6 (256 * 1) 330 0 0, copyOf 6 (256 * 2) 639 0 0, copyOf 6 (256 * 3) 640 0 0,
     copyOf 6 (256 * 4) 2 0 0, copyOf 6 (256 * 5) 3 0 0].map (fun c => (c.words.badField,
      (judged c (guarded 43)).rpw.fifo.map (fun x => (x.report.w5, x.report.w6, x.report.w7)))) =
      [(none, []), (none, [(2, 330, 329)]), (none, []), (none, [(8, 640, 639)]), (none, []), (none, [])] := by decide
/-- A load for bank 3 at level 0 and 1, a load under a load, and a cancel of another bank and of this one. -/
theorem witness_KeyloadsAreCheckedAndDeferred :
    let load := copyOf 10 (3 + 16 * 4) 0 0 0
    (load.words.badField = none ∧ load.words.kind = 10 ∧ load.words.w4.toNat % 16 = (3 : Fin 4).val ∧
      0 < load.words.w4.toNat / 16 ∧ 3 + live.cue.settings.protect < 4) ∧
    4 ≤ 3 + (withSet (fun t => { t with protect := 1 }) live).cue.settings.protect ∧
    (loading 0).kbl.loader ≠ .idle ∧ (loading 0).cue.masks.getLsbD FaultKind.busy.num = true ∧
    (withCue (fun c => { c with masks := 0 }) (loading 0)).cue.masks.getLsbD FaultKind.busy.num = false ∧
    ((copyOf 10 1 0 0 0).words.badField = none ∧ (copyOf 10 1 0 0 0).words.w4.toNat / 16 = 0) ∧
    (loading 0).kbl.load = some (loadOf 0) ∧ (loadOf 0).bank ≠ 1 ∧ (loadOf 0).bank = 2 ∧
    (loading 0).cue.deferral ≠ load.index ∧
    (withCue (fun c => { c with deferral := some 0 }) (loading 0)).cue.deferral = load.index := by decide
/-- SELECT, SETTINGS, WAITLOCK and SNAPSHOT, and a late MARK told to run. -/
theorem witness_ScheduleCuesAct :
    [copyOf 12 2 0 0 0, settingsCopy 16384, copyOf 15 1 4095 0 0, copyOf 16 1 0 0 0].map
      (fun c => (c.words.kind, c.words.badField, c.standing)) =
      [(12, none, .due), (13, none, .due), (15, none, .due), (16, none, .due)] ∧
    (settingsCopy 16384).image.bind (fun im => im.firstFailure none) = none ∧
    (settingsCopy 16385).image.bind (fun im => im.firstFailure none) = some 1 ∧
    live.cue.settings.lockdown = false ∧ live.cue.settings.policy = .auto ∧ live.rpw.openGap = 0 ∧
    (let late := { copyOf (1 + 512) 7 0 0 0 with standing := .past }
     late.words.badField = none ∧ late.words.w0.getLsbD 9 = true ∧ live.cue.masks.getLsbD 1 = true) := by decide
/-- A SETTINGS cue whose image fails aborts a LOADING load behind HALT/LINK (R160, R187). -/
theorem witness_ScheduleCuesAct_aborted :
    let t := judged (settingsCopy 16385) (loading 1)
    t.rpw.fifo.map (fun x => (x.report.w0, x.report.w4, x.report.w5)) = [(0x0701#16, 1, 1), (0x0804#16, 34, 1)] ∧
    t.kbl.load = none ∧ (loading 1).rpw.fifo.length + 2 ≤ 8 := by decide
/-- A SETTINGS cue's records: the put at its length, the clamped settings, the effects, then CUE/DONE. -/
theorem witness_ScheduleCuesAct_settings :
    let c : Copy := { settingsCopy 16384 with words := { (settingsCopy 16384).words with w0 := 0x040d#16 } }
    let t := judged c (withSet (fun x => { x with testMode := .internalLoop }) (withRpw (fun r => { r with put := 900 })
      { live with tst := looping.tst }))
    (t.rpw.fifo.head?.map (fun x => x.report.w0), t.rpw.fifo.getLast?.map (fun x => x.report.w0), t.rpw.put)
      = (some 0x0902#16, some 0x0404#16, 0) ∧ t.tst.mode = .normal ∧ t.rpw.fifo.length ≤ 8 := by decide
theorem witness_ScheduleCuesAct_wait :
    let s := withLll (fun l => { l with loop := .coast }) live
    (s.lll.loop = .coast ∧ (withFal (fun f => { f with field := .lock }) s).fal.field = .lock) ∧
    live.lll.loop = .free ∧ s.fal.field ≠ .lock := by decide

/-! ### The stack, the banks and the invariants -/

theorem witness_StackCuesMoveTheDepths :
    live.wsk.stack.slot 7 = .empty ∧ ((guarded 43).wsk.stack.slot 0).window = some (fading 43 43 0) ∧
    (6 : Fin 8).val < 7 ∧ (1 : Fin 8) ≠ 0 := by decide
theorem witness_FadesReachTheirTargets : 0 < (fading 0 64 5).steps ∧ 5 ≤ (fading 0 64 5).steps := by decide
/-- A window marked for field 3 and not for 4, at a boundary at which no cue runs. -/
theorem witness_FadesReachTheirTargets_marked :
    ({ fading 0 64 5 with mark := 3 } : Window).mark = 3 ∧ ({ fading 0 64 5 with mark := 3 } : Window).mark ≠ 4 ∧
    ({ fading 0 64 5 with mark := 3 } : Window).fadeStep.fade = 12 ∧ (fading 5 5 0).steps = 0 ∧
    (lastLine live).tgn.length ≤ (lastLine live).tgn.line ∧ live.cue.due = [] ∧ live.cue.idle = none ∧
    up.cue.engine ≠ .running := by decide
/-- A LIVE window keys at the corners of its rectangle; one with fade 0 does not. -/
theorem witness_ShallowestWindowKeys :
    (guarded 43).wsk.stack.slot 0 = .live (fading 43 43 0) ∧ 0 < (fading 43 43 0).fade ∧
    (fading 43 43 0).covers 1 0 = true ∧ (fading 43 43 0).covers 100 99 = true ∧
    (fading 43 43 0).covers 101 99 = false ∧ (fading 0 0 0).fade = 0 := by decide
/-- The three modes at one fade: FULL the fade, PUNCH 0, INDEX the bank's 0 (section 7.5.1). -/
theorem witness_ShallowestWindowKeys_modes :
    [WinMode.full, .punch, .index].map (fun m =>
      (live.wsk.stack.put 0 (.live { fading 40 40 0 with mode := m })).level live.kbl.banks 50 50 17) = [40, 0, 0] := by
  decide
theorem witness_BanksChangeOnlyBySwaps :
    (lastLine (guarded 0)).tgn.length ≤ (lastLine (guarded 0)).tgn.line ∧ (guarded 0).kbl.loader = .ready ∧
    (after (.fieldBoundary quiet) (lastLine (guarded 0))).kbl.loader = .idle := by decide
/-- A READY load held by its level or by an on-air window, one free to swap, and none. -/
theorem witness_SwapTestDecides :
    let s := withCue (fun c => { c with engine := .halted }) (lastLine (guarded 43))
    (s.tgn.length ≤ s.tgn.line ∧ s.cue.engine ≠ .running ∧ s.kbl.loader = .ready ∧ s.rpw.fifo = [] ∧
      s.kbl.load = some { loadOf 3 with bank := 1 } ∧ s.cue.settings.guard = true) ∧
    (after (.lineEnd quiet) s).wsk.stack.slot 0 = .live { fading 43 43 0 with mark := 1 } ∧
    (fading 43 43 0).mode = .index ∧ 0 < (fading 43 43 0).fade ∧ (fading 43 43 0).bank = 1 ∧
    4 ≤ (1 : Fin 4).val + (withSet (fun t => { t with protect := 3 }) s).cue.settings.protect ∧
    (fading 0 0 0).fade = 0 ∧ live.kbl.loader ≠ .ready := by decide
/-- A RUNNING engine with nothing due, and one with a cue due under HOLD and in a start-up load. -/
theorem witness_SwapTestDecides_running :
    let s := lastLine (guarded 0)
    let due := withCue (fun c => { c with due := [copyOf 1 7 0 0 0] }) s
    (s.cue.engine = .running ∧ s.cue.due = [] ∧ s.cue.idle = none ∧ s.kbl.loader = .ready ∧ s.tgn.drives = []) ∧
    (after (.lineEnd quiet) s).kbl.load = none ∧
    (after (.lineEnd { hold := true }) due).kbl.load = none ∧
    (after (.lineEnd quiet) (withCue (fun c => { c with startup := true }) due)).kbl.load = none := by decide
theorem witness_PinsFollowTheState : (filled 8 live).rpw.fifo.length ≤ 8 := by decide
theorem witness_StepKeepsMemoryAndLevels_memory : State.reset.mem.wf := by decide
theorem witness_PowerOnFrontEnd :
    (after (.powerOn ⟨2, 0⟩) up).cue.settings.stdMode = .force .s625 ∧
    (after (.powerOn ⟨3, 0⟩) up).cue.settings.stdMode = .force .s525 := by decide
theorem witness_PowerOnOtherBlocks :
    Straps.testMode ⟨0, 1⟩ = .internalLoop ∧ Straps.testMode ⟨0, 0⟩ ≠ .internalLoop := by decide
/-- Word 38 of the link block says FORCE_525, where the default is AUTO. -/
theorem witness_StartUpLoadValidates_forced :
    let s := { starting with mem := startMemory.writeWord 1048652 2 }
    (after (.startupLoadComplete []) s).cue.settings.stdMode = .force .s525 ∧
    s.cue.settings.stdMode ≠ .force .s525 := by decide

/-- Every entry of the empty bank is 0. -/
theorem zero_bank_ok : Bank.Ok Bank.zero := fun i => by simp [Bank.zero]

/-- The stack of section 7.5.1's size: one LIVE window at its target, and a fade in progress below it. -/
def faded : State :=
  { live with wsk := { stack := (live.wsk.stack.put 0 (.live (fading 64 64 0))).put 1 (.parked (fading 12 64 4)) } }

theorem faded_stack_ok : faded.wsk.stack.Ok := by
  have h : ∀ i : Fin 8, (faded.wsk.stack.slots[i]).window.all
      (fun w => decide (w.fade ≤ 64 ∧ w.target ≤ 64 ∧ w.steps ≤ 1023 ∧ (w.steps = 0 → w.fade = w.target))) = true := by
    decide
  intro i w hw
  have := h i
  rw [hw] at this
  have ok : w.fade ≤ 64 ∧ w.target ≤ 64 ∧ w.steps ≤ 1023 ∧ (w.steps = 0 → w.fade = w.target) :=
    of_decide_eq_true this
  exact ok

theorem witness_StepKeepsMemoryAndLevels : faded.KeyOk where
  stack := faded_stack_ok
  prev := by intro st h; cases h
  banks := by intro b i; simp [faded, live, up, State.reset, State.powerOn, Bank.zero]
  shadow := zero_bank_ok
  replaced := by intro r h; cases h
  key := by decide

theorem faded_settings_ok : faded.SettingsOk where
  dots := by decide
  vOffset := by decide
  kp := by decide
  ki := by decide
  slew := by decide
  tol := by decide
  fly := by decide
  hold := by decide
  hTarget := by decide
  coast := by decide
  floor := by decide
  window := by decide
  scan := by decide
  pipe := by decide
  prot := by decide
  forced := by intro d h; cases h

theorem faded_loop_ok : faded.LoopOk where
  pull := by decide
  free := by decide
  hTarget := by decide
  hEff := by decide
  c := by decide
  flywheel := by decide
  holdover := by decide
  capture := by decide
  origin := by intro r h; cases h

theorem witness_StepKeepsTheRanges : faded.Inv where
  mem := by decide
  key := witness_StepKeepsMemoryAndLevels
  settings := faded_settings_ok
  loop := faded_loop_ok
  field := { line := by decide, length := by decide, shift := by decide }
  drive := { delay := by decide, count := by decide, due := by intro i d h; simp [faded, live, up, State.reset, State.powerOn] at h }
  count :=
    { fifo := by decide, withheld := by decide, gap := by decide, stamp := by decide, absence := by decide
      excess := by intro r h; cases h
      due := by decide, differ := by decide, miss := by decide
      stray := by intro r h; cases h
      broad := by intro r h; cases h }

end Sys2Proof.Tests
end

section
/-!
PROOFS. The reference front end at power-on (R18), and what the straps fix there (R76).
-/

namespace Sys2Proof.Machine

theorem exec_powerOn (straps : Straps) (s : State) :
    exec (.powerOn straps) s = .next { State.powerOn straps s.mem with
      pins := s.pins, readData := s.readData, draw := s.draw, pending := s.pending } := by
  rfl

theorem bitOf_le_one (b : Bool) : bitOf b ≤ 1 := by
  cases b <;> decide

/-- The standard straps are bits 4 and 5 of the identity port, whatever the other fields hold: the
revision below them is less than 16, and the fields above them are multiples of 64. -/
theorem State.identity_standardBits (s : State) :
    s.identity.extractLsb' 4 2 = s.tgn.straps.standard := by
  have hstd : s.tgn.straps.standard.toNat < 4 := s.tgn.straps.standard.isLt
  have htest : s.tgn.straps.test.toNat < 4 := s.tgn.straps.test.isLt
  have hdone := bitOf_le_one s.tgn.strapDone
  apply BitVec.eq_of_toNat_eq
  simp only [State.identity, wordOfNat, BitVec.extractLsb'_toNat, BitVec.toNat_ofNat,
    Nat.shiftRight_eq_div_pow]
  omega

/-- A forced strap setting forces the starting standard: codes 2 and 3 force 625 and 525, the standards
their low bit starts with. -/
theorem Straps.startStd_of_stdMode_force {straps : Straps} {d : Standard}
    (h : Straps.stdMode straps = .force d) : Straps.startStd straps = d := by
  have hlt : straps.standard.toNat < 4 := straps.standard.isLt
  unfold Straps.stdMode at h
  split at h
  case isTrue => cases h
  case isFalse hforced =>
    split at h
    case isTrue htwo =>
      cases h
      simp [Straps.startStd, htwo]
    case isFalse htwo =>
      cases h
      have hthree : straps.standard.toNat = 3 := by omega
      simp [Straps.startStd, hthree]

/-- The values R18 gives each input. -/
theorem State.powerOn_input (straps : Straps) (mem : Memory) (i : Input) :
    (State.powerOn straps mem).input i = {} := by
  cases i <;> rfl

/-- Settles O4: the state POWER_ON leaves holds R18's values, the forced standard being the one the
standard straps start with. -/
theorem powerOnFrontEnd : Obligations.PowerOnFrontEnd := by
  intro straps s
  refine ⟨_, exec_powerOn straps s, ?input, rfl, rfl, rfl, rfl, rfl, ?identity, ?forced, rfl, rfl, rfl⟩
  case input => exact State.powerOn_input straps s.mem
  case identity => exact State.identity_standardBits _
  case forced => exact fun d => Straps.startStd_of_stdMode_force

end Sys2Proof.Machine
end

section
/-!
PROOFS. The acknowledgment of START and CLEAR, and how a latch commutes with it (R175, R177).
-/

namespace Sys2Proof.Machine

/-! ### The START and CLEAR bits -/

@[simp] theorem ackBits_neither (s : State) : ackBits false false s = s := by
  rfl

@[simp] theorem ackBits_start (s : State) :
    ackBits true false s = { s with rpw := s.rpw.acknowledge true } := by
  rfl

/-- CLEAR decides alone: START beside it has no effect (R177). -/
@[simp] theorem ackBits_clear (start : Bool) (s : State) :
    ackBits start true s = { s with rpw := s.rpw.acknowledge false } := by
  rfl

theorem portOne_of_strapDone (function : State → State) (start clear : Bool) {s : State}
    (h : s.tgn.strapDone = true) :
    portOne function start clear s =
      ackBits start clear (function { s with cue := { s.cue with second := false } }) := by
  simp [portOne, h]

/-- CLEAR beside START acts alone on a port-1 write of any function. -/
theorem portOne_both (function : State → State) (s : State) :
    portOne function true true s = portOne function false true s := by
  simp [portOne]

/-! ### A latch beside the acknowledgment -/

theorem Cause.bit_ne_zero (c : Cause) : c.bit ≠ 0 := by
  cases c <;> decide

/-- A latch leaves some cause latched. -/
theorem Rpw.latch_latched_ne_zero (r : Rpw) (c : Cause) : (r.latch c).latched ≠ 0 := by
  intro h
  have hor : r.latched ||| c.bit = 0 := h
  exact c.bit_ne_zero (BitVec.or_eq_zero_iff.mp hor).2

/-- The latch clears the seen flag that the acknowledgment would act on, so the order of the two does not
matter (R177). -/
theorem Rpw.acknowledge_latch (r : Rpw) (c : Cause) (enable : Bool) :
    (r.latch c).acknowledge enable = (r.acknowledge enable).latch c := by
  have hlatched : (r.latched ||| c.bit) &&& ~~~(r.seen &&& ~~~c.bit)
      = r.latched &&& ~~~r.seen ||| c.bit := by
    ext i hi
    simp only [BitVec.getElem_and, BitVec.getElem_or, BitVec.getElem_not]
    cases r.latched[i] <;> cases r.seen[i] <;> cases c.bit[i] <;> rfl
  have hseen : (0 : BitVec 8) = 0 &&& ~~~c.bit := BitVec.zero_and.symm
  simp only [Rpw.acknowledge, Rpw.latch, hlatched, ← hseen]

theorem ackBits_latch (start clear : Bool) (c : Cause) (s : State) :
    ackBits start clear (latch c s) = latch c (ackBits start clear s) := by
  cases clear with
  | true => simp [latch, Rpw.acknowledge_latch]
  | false =>
    cases start with
    | true => simp [latch, Rpw.acknowledge_latch]
    | false => simp

/-- A port-1 write with no function leaves the same state whether a cause is latched just before it or just
after it. -/
theorem portOne_id_latch (start clear : Bool) (c : Cause) (s : State) :
    portOne id start clear (latch c s) = latch c (portOne id start clear s) := by
  unfold portOne
  simp only [latch_frame]
  split
  case isTrue => exact ackBits_latch start clear c { s with cue := { s.cue with second := false } }
  case isFalse => rfl

/-- Right after a latch, IRQ is the interrupt enable. -/
theorem irq_latch (c : Cause) (s : State) : (latch c s).irq = s.rpw.enabled := by
  have hlatched : (latch c s).rpw.latched ≠ 0 := Rpw.latch_latched_ne_zero s.rpw c
  simp only [State.irq, hlatched, ne_eq, not_false_eq_true, decide_true, Bool.and_true]
  rfl

/-! ### The port-1 commands -/

theorem exec_run (start clear : Bool) (s : State) :
    exec (.run start clear) s = .next (portOne runFunction start clear s) := by
  rfl

theorem exec_stop (start clear : Bool) (s : State) :
    exec (.stop start clear) s = .next (portOne stopFunction start clear s) := by
  rfl

theorem exec_continueRun (start clear : Bool) (s : State) :
    exec (.continueRun start clear) s = .next (portOne continueFunction start clear s) := by
  rfl

theorem exec_softReset (start clear : Bool) (issued : Nat) (s : State) :
    exec (.softReset start clear issued) s =
      .next (portOne (softResetFunction issued) false false s) := by
  rfl

theorem exec_noneFunction (s : State) : exec .noneFunction s = .next (portOne id false false s) := by
  rfl

theorem exec_start (s : State) : exec .start s = .next (portOne id true false s) := by
  rfl

theorem exec_clear (s : State) : exec .clear s = .next (portOne id false true s) := by
  rfl

/-- SOFT RESET leaves the report writer at its reset values: no cause latched, the enable INHIBITED. -/
theorem softResetFunction_rpw (issued : Nat) (s : State) : (softResetFunction issued s).rpw = {} := by
  rfl

/-- Both bits and function 0 decode to CLEAR. -/
theorem decodePortOne_bothBits (issued : Nat) : decodePortOne 0x0300#16 issued = .clear := by
  rfl

/-- START enables and CLEAR inhibits, so a cause latched beside either survives it, and asserts IRQ beside
START alone. -/
theorem portOne_id_latch_irq (c : Cause) {s : State} (h : s.tgn.strapDone = true) :
    (latch c (portOne id true false s)).irq = true ∧ (latch c (portOne id false true s)).irq = false := by
  simp [irq_latch, portOne_of_strapDone, h, Rpw.acknowledge]

/-- Settles O11: each command is the acknowledgment of its two bits behind its function, and a latch
commutes with the acknowledgment. -/
theorem startAndClearAcknowledge : Obligations.StartAndClearAcknowledge := by
  intro s h
  refine ⟨?start, ?clear, ?neither, decodePortOne_bothBits, ?run, ?stop, ?continueRun, ?softReset, ?latched,
    rfl⟩
  case start => rw [exec_start, portOne_of_strapDone _ _ _ h, ackBits_start]; rfl
  case clear => rw [exec_clear, portOne_of_strapDone _ _ _ h, ackBits_clear]; rfl
  case neither => rw [exec_noneFunction, portOne_of_strapDone _ _ _ h, ackBits_neither]; rfl
  case run => rw [exec_run, exec_run, portOne_both]
  case stop => rw [exec_stop, exec_stop, portOne_both]
  case continueRun => rw [exec_continueRun, exec_continueRun, portOne_both]
  case softReset =>
    intro a b n
    have hrpw : (portOne (softResetFunction n) false false s).rpw = {} := by
      rw [portOne_of_strapDone _ _ _ h, ackBits_neither, softResetFunction_rpw]
    refine ⟨by simp only [exec_softReset], _, exec_softReset a b n s, ?_, ?_⟩ <;> rw [hrpw]
  case latched =>
    intro c
    refine ⟨_, _, exec_start s, ?_, exec_clear s, ?_, portOne_id_latch_irq c h⟩
    · rw [exec_start, portOne_id_latch]
    · rw [exec_clear, portOne_id_latch]

end Sys2Proof.Machine
end

section
/-!
PROOFS. The bits of the port words that have no meaning (R196): which bits of a port-1 write its command
depends on, and which bits of the port reads are 0.
-/

namespace Sys2Proof.Machine

/-! ### Masks of a word -/

/-- A mask of `n` ones from bit `k` up keeps just the field of those bits. -/
theorem and_fieldMask (w : Word) (k n : Nat) :
    w &&& (BitVec.allOnes n).setWidth 16 <<< k = (w.extractLsb' k n).setWidth 16 <<< k := by
  apply BitVec.eq_of_getLsbD_eq
  intro i hi
  simp only [BitVec.getLsbD_and, BitVec.getLsbD_shiftLeft, BitVec.getLsbD_setWidth,
    BitVec.getLsbD_allOnes, BitVec.getLsbD_extractLsb']
  by_cases hk : i < k
  · simp [hk]
  · have hsum : k + (i - k) = i := by omega
    have hlt : i - k < 16 := by omega
    simp [hk, hsum, hlt, hi, Bool.and_comm]

/-- A word whose field is 0 reads 0 under the field's mask. -/
theorem and_fieldMask_eq_zero {w : Word} {k n : Nat} (h : w.extractLsb' k n = 0#n) :
    w &&& (BitVec.allOnes n).setWidth 16 <<< k = 0#16 := by
  rw [and_fieldMask, h]
  simp

/-- The mask 7 reads the function code of a port-1 write. -/
theorem toNat_and_seven (w : Word) : (w &&& 7#16).toNat = (w.extractLsb' 0 3).toNat := by
  have hmask : 7#16 = (BitVec.allOnes 3).setWidth 16 <<< 0 := by rfl
  rw [hmask, and_fieldMask, BitVec.shiftLeft_zero, BitVec.toNat_setWidth_of_le (by omega)]

/-! ### Port-1 writes -/

/-- The command of a port-1 write depends on the function code and the START and CLEAR bits alone. -/
theorem decodePortOne_congr {v w : Word} (issued : Nat)
    (hcode : v.extractLsb' 0 3 = w.extractLsb' 0 3) (hstart : startBit v = startBit w)
    (hclear : clearBit v = clearBit w) : decodePortOne v issued = decodePortOne w issued := by
  simp only [decodePortOne, hcode, hstart, hclear]

/-- The command of a port-1 write that names no function: its START and CLEAR bits alone (R177). -/
def bitsCommand (start clear : Bool) : Instr :=
  if clear then .clear else if start then .start else .noneFunction

/-- Code 0 names no function, and codes 5, 6 and 7 act as 0. -/
theorem decodePortOne_of_noFunction {w : Word} (issued : Nat)
    (h : (w.extractLsb' 0 3).toNat = 0 ∨ 5 ≤ (w.extractLsb' 0 3).toNat) :
    decodePortOne w issued = bitsCommand (startBit w) (clearBit w) := by
  unfold decodePortOne
  split
  case h_5 => rfl
  all_goals omega

/-- The bits a write with no function carries are handed on as one port-1 write. -/
theorem exec_bitsCommand (start clear : Bool) (s : State) :
    exec (bitsCommand start clear) s = .next (portOne id start clear s) := by
  cases clear with
  | false =>
    cases start with
    | false => exact exec_noneFunction s
    | true => exact exec_start s
  | true =>
    cases start with
    | false => exact exec_clear s
    | true => rw [portOne_both]; exact exec_clear s

theorem startBit_and (w m : Word) : startBit (w &&& m) = (startBit w && startBit m) := by
  exact BitVec.getLsbD_and

theorem clearBit_and (w m : Word) : clearBit (w &&& m) = (clearBit w && clearBit m) := by
  exact BitVec.getLsbD_and

/-- Bits 3 to 7 and 10 to 15 of a port-1 write are disregarded. -/
theorem decodePortOne_and_0307 (w : Word) (issued : Nat) :
    decodePortOne (w &&& 0x0307#16) issued = decodePortOne w issued := by
  have hones : (0x0307#16).extractLsb' 0 3 = BitVec.allOnes 3 := by rfl
  apply decodePortOne_congr
  · rw [BitVec.extractLsb'_and, hones, BitVec.and_allOnes]
  · rw [startBit_and]; exact Bool.and_true _
  · rw [clearBit_and]; exact Bool.and_true _

/-- With the START and CLEAR bits alone left, the write has function 0. -/
theorem decodePortOne_and_0300 (w : Word) (issued : Nat) :
    decodePortOne (w &&& 0x0300#16) issued = bitsCommand (startBit w) (clearBit w) := by
  have hzero : (0x0300#16).extractLsb' 0 3 = 0#3 := by rfl
  have hcode : (w &&& 0x0300#16).extractLsb' 0 3 = 0#3 := by
    rw [BitVec.extractLsb'_and, hzero, BitVec.and_zero]
  have hstart : startBit (w &&& 0x0300#16) = startBit w := by
    rw [startBit_and]; exact Bool.and_true _
  have hclear : clearBit (w &&& 0x0300#16) = clearBit w := by
    rw [clearBit_and]; exact Bool.and_true _
  rw [decodePortOne_of_noFunction issued (.inl (by rw [hcode]; rfl)), hstart, hclear]

/-- A taken write with no function changes nothing of CUE but the port-0 sequencer, returned to its first half. -/
theorem portOne_id_cue (start clear : Bool) {s : State} (h : s.tgn.strapDone = true) :
    (portOne id start clear s).cue = { s.cue with second := false } := by
  simp [portOne_of_strapDone, h]

/-- A taken write with no function hands the report writer its acknowledgment, CLEAR before START. -/
theorem portOne_id_rpw (start clear : Bool) {s : State} (h : s.tgn.strapDone = true) :
    (portOne id start clear s).rpw =
      if clear then s.rpw.acknowledge false
      else if start then s.rpw.acknowledge true else s.rpw := by
  rw [portOne_of_strapDone _ _ _ h]
  cases clear with
  | true => simp
  | false => cases start <;> simp

/-! ### Port reads -/

/-- A byte widened to a word leaves bits 8 to 15 at 0. -/
theorem setWidth_byte_and_ff00 (b : BitVec 8) : b.setWidth 16 &&& 0xff00#16 = 0#16 := by
  have hhigh : (b.setWidth 16).extractLsb' 8 8 = 0#8 := by
    apply BitVec.eq_of_toNat_eq
    simp only [BitVec.extractLsb'_toNat, BitVec.toNat_setWidth, Nat.shiftRight_eq_div_pow,
      BitVec.toNat_ofNat]
    omega
  exact and_fieldMask_eq_zero hhigh

theorem State.causeWord_unassignedBits (s : State) : s.causeWord &&& 0xff00#16 = 0#16 := by
  exact setWidth_byte_and_ff00 s.rpw.latched

theorem State.linkHalf_unassignedBits {s : State} (h : s.cue.second = true) :
    s.linkHalf &&& 0xff00#16 = 0#16 := by
  unfold State.linkHalf
  rw [if_pos h]
  exact setWidth_byte_and_ff00 _

/-- The revision and the strap decodes fill less than 256, and strap-done stands at bit 15. -/
theorem State.identity_unassignedBits (s : State) : s.identity &&& 0x7f00#16 = 0#16 := by
  have hstd : s.tgn.straps.standard.toNat < 4 := s.tgn.straps.standard.isLt
  have htest : s.tgn.straps.test.toNat < 4 := s.tgn.straps.test.isLt
  have hfield : s.identity.extractLsb' 8 7 = 0#7 := by
    apply BitVec.eq_of_toNat_eq
    simp only [State.identity, wordOfNat, BitVec.extractLsb'_toNat, BitVec.toNat_ofNat,
      Nat.shiftRight_eq_div_pow]
    omega
  exact and_fieldMask_eq_zero hfield

/-- Settles O3: the decoder reads the code, START and CLEAR alone, a code with no function leaves the two
bits to act, and the fields of the read words outside their layouts are 0. -/
theorem portBitsWithoutMeaning : Obligations.PortBitsWithoutMeaning := by
  intro w issued s
  refine ⟨⟨rfl, rfl, rfl⟩, (decodePortOne_and_0307 w issued).symm, ?codes, s.causeWord_unassignedBits,
    s.identity_unassignedBits, State.linkHalf_unassignedBits⟩
  case codes =>
    intro hcode
    rw [toNat_and_seven] at hcode
    rw [decodePortOne_and_0300, decodePortOne_of_noFunction issued (.inr hcode), exec_bitsCommand]
    exact ⟨rfl, rfl, fun hdone => ⟨_, rfl, portOne_id_cue _ _ hdone, portOne_id_rpw _ _ hdone⟩⟩

end Sys2Proof.Machine
end

section
/-!
PROOFS. Every command completes: the state each one leaves, as a function of the state it finds; and one step
of the machine is such a command or the clock (R1).
-/

namespace Sys2Proof.Machine

/-- The state a command leaves. -/
def nextState (c : Instr) (s : State) : State :=
  match exec c s with
  | .next t => t
  | .fault f => nomatch f
  | .refused _ => s

/-- Every arm of the dispatch answers a next state. -/
theorem exec_eq_nextState (c : Instr) (s : State) : exec c s = .next (nextState c s) := by
  cases c <;> rfl

/-- A command leaves one state and no other. -/
theorem nextState_of_exec {c : Instr} {s t : State} (h : exec c s = .next t) : t = nextState c s := by
  rw [exec_eq_nextState] at h
  exact (Host.Outcome.next.inj h).symm

/-- Settles O2: each command's state is `nextState`. -/
theorem everyCommandCompletes : Obligations.EveryCommandCompletes :=
  fun c s => ⟨nextState c s, exec_eq_nextState c s⟩

theorem step_of_cons {c : Instr} {rest : List Instr} {s : State} (h : s.pending = c :: rest) :
    step s = exec c { s with pending := rest } := by
  simp [step, h]

theorem step_of_nil {s : State} (h : s.pending = []) : step s = .next (clock s) := by
  simp [step, h]

/-- Of several due events the clock picks one of them. -/
theorem State.pickEvent_mem (s : State) {es : List Instr} (h : es ≠ []) :
    ∃ e ∈ es, s.pickEvent es = some e := by
  match es, h with
  | [e], _ => exact ⟨e, List.mem_singleton_self e, rfl⟩
  | e :: f :: es, _ =>
    have hlt : Config.eventChoice s.draw % ((f :: es).length + 1) < (e :: f :: es).length :=
      Nat.mod_lt _ (by simp)
    refine ⟨_, List.getElem_mem hlt, ?_⟩
    rw [State.pickEvent]
    · rw [List.getD_eq_getElem _ _ hlt]
    · simp

/-- Settles O1. -/
theorem stepRunsTheQueue : Obligations.StepRunsTheQueue := by
  refine ⟨fun c rest s h => step_of_cons h, fun s h => ⟨fun hdue => ?_, fun hdue => ?_⟩⟩
  · rw [step_of_nil h, clock, hdue]
    rfl
  · obtain ⟨e, he, hpick⟩ := s.pickEvent_mem hdue
    refine ⟨e, he, ?_⟩
    rw [step_of_nil h, clock, hpick]

/-- A step is a command on the rest of the queue, or the clock, which moves the tick or the queue and the
count of free values alone. -/
theorem step_cases {s t : State} (h : step s = .next t) :
    (∃ c rest, t = nextState c { s with pending := rest }) ∨
    (∃ e n, t = { s with pending := e, draw := n }) ∨ t = s.atTick (s.rfe.tick + 1) := by
  cases hp : s.pending with
  | cons c rest =>
    rw [step_of_cons hp] at h
    exact .inl ⟨c, rest, nextState_of_exec h⟩
  | nil =>
    rw [step_of_nil hp] at h
    have ht : t = clock s := (Host.Outcome.next.inj h).symm
    refine .inr ?_
    rw [ht, clock]
    split
    · exact .inl ⟨_, _, rfl⟩
    · exact .inr rfl

end Sys2Proof.Machine
end

section
/-!
PROOFS. The commands by name, and what of TGN's state each of them moves: the line and the field at a line
end, the length at a BROAD arrival, the drives at a dot edge (R60, R65, R71).
-/

namespace Sys2Proof.Machine

/-! ### The port-1 functions -/

/-- What every port-1 function keeps of TGN, the write keeps. -/
theorem portOne_tgn {f : State → State} (hf : ∀ s, (f s).tgn = s.tgn) (a b : Bool) (s : State) :
    (portOne f a b s).tgn = s.tgn := by
  unfold portOne
  split <;> simp [hf]

theorem runFunction_tgn (s : State) : (runFunction s).tgn = s.tgn := by
  unfold runFunction; split <;> simp

theorem stopFunction_tgn (s : State) : (stopFunction s).tgn = s.tgn := by
  unfold stopFunction; split <;> simp

theorem continueFunction_tgn (s : State) : (continueFunction s).tgn = s.tgn := by
  unfold continueFunction; split <;> simp

theorem portOne_softReset_of_strapDone {s : State} (n : Nat) (h : s.tgn.strapDone = true) :
    portOne (softResetFunction n) false false s =
      softResetFunction n { s with cue := { s.cue with second := false } } := by
  rw [portOne_of_strapDone _ _ _ h, ackBits_neither]

theorem portOne_of_not_strapDone (f : State → State) (a b : Bool) {s : State}
    (h : s.tgn.strapDone = false) : portOne f a b s = s := by
  simp [portOne, h]

/-! ### A line end inside a field -/

/-- The line that completes its field is the last of it. -/
theorem State.endsField_iff (s : State) : s.endsField = true ↔ s.tgn.length ≤ s.tgn.line := by
  simp [State.endsField]

theorem State.endsField_eq_false_iff (s : State) :
    s.endsField = false ↔ s.tgn.line < s.tgn.length := by
  simp [State.endsField]

/-- The grid step leaves TGN, so the line completes its field by the state the line end finds. -/
theorem gridStep_endsField (x : LineInputs) (s : State) : (gridStep x s).s.endsField = s.endsField := by
  simp [State.endsField]

theorem lineEndWork_inField {x : LineInputs} {s : State} (h : s.tgn.line < s.tgn.length) :
    lineEndWork x s = beginLine (nextLine (scanPoint (gridStep x s).s)) := by
  have hends : (gridStep x s).s.endsField = false := by
    rw [gridStep_endsField, State.endsField_eq_false_iff]; exact h
  simp [lineEndWork, hends]

theorem lineEndWork_boundary {x : LineInputs} {s : State} (h : s.tgn.length ≤ s.tgn.line) :
    lineEndWork x s =
      beginLine (fieldBoundary x.order (gridStep x s).entered (gridStep x s).s) := by
  have hends : (gridStep x s).s.endsField = true := by
    rw [gridStep_endsField, State.endsField_iff]; exact h
  simp [lineEndWork, hends]

/-- The beginning of a line sets the fields that belong to it and leaves the rest of TGN. -/
theorem beginLine_tgn (s : State) :
    (beginLine s).tgn = { s.tgn with
      lineStart := Qu.tick s.lll.ideal, lineD := s.cue.settings.dots, lineStd := s.rfe.working, nextDot := 0
      key := if Tick.reached (Qu.tick s.lll.ideal) s.tgn.keyUntil then 0 else s.tgn.key } := by
  simp [beginLine]

/-- The scan point sets its flag, and nothing else of TGN. -/
theorem scanPoint_tgn (s : State) :
    (scanPoint s).tgn = { s.tgn with scanDone := s.scanHere || s.tgn.scanDone } := by
  unfold scanPoint
  split
  case isTrue h => simp [h]
  case isFalse h => simp only [Bool.not_eq_true] at h; simp [h]

/-! ### A field boundary -/

/-- TST's comparison and FIELDSTAT move nothing but the FIFO and the lock-time record, WSK's work the stack
alone, wherever they stand. -/
@[simp] theorem atPlace_nolockTest_frame {α : Type} [DecidableEq α] (p h : α) (s : State) :
    (atPlace p h nolockTest s).rfe = s.rfe ∧ (atPlace p h nolockTest s).lll = s.lll ∧
    (atPlace p h nolockTest s).fal = s.fal ∧ (atPlace p h nolockTest s).tgn = s.tgn ∧
    (atPlace p h nolockTest s).mpt = s.mpt ∧ (atPlace p h nolockTest s).cue = s.cue ∧
    (atPlace p h nolockTest s).wsk = s.wsk ∧ (atPlace p h nolockTest s).kbl = s.kbl ∧
    (atPlace p h nolockTest s).pins = s.pins := by
  unfold atPlace; split <;> simp

@[simp] theorem atPlace_fieldstat_frame {α : Type} [DecidableEq α] (p h : α) (s : State) :
    (atPlace p h fieldstat s).rfe = s.rfe ∧ (atPlace p h fieldstat s).lll = s.lll ∧
    (atPlace p h fieldstat s).fal = s.fal ∧ (atPlace p h fieldstat s).tgn = s.tgn ∧
    (atPlace p h fieldstat s).mpt = s.mpt ∧ (atPlace p h fieldstat s).cue = s.cue ∧
    (atPlace p h fieldstat s).wsk = s.wsk ∧ (atPlace p h fieldstat s).kbl = s.kbl ∧
    (atPlace p h fieldstat s).tst = s.tst ∧ (atPlace p h fieldstat s).pins = s.pins := by
  unfold atPlace; split <;> simp

@[simp] theorem atPlace_stepFades_frame {α : Type} [DecidableEq α] (p h : α) (s : State) :
    (atPlace p h stepFades s).rfe = s.rfe ∧ (atPlace p h stepFades s).lll = s.lll ∧
    (atPlace p h stepFades s).fal = s.fal ∧ (atPlace p h stepFades s).tgn = s.tgn ∧
    (atPlace p h stepFades s).mpt = s.mpt ∧ (atPlace p h stepFades s).cue = s.cue ∧
    (atPlace p h stepFades s).kbl = s.kbl ∧ (atPlace p h stepFades s).rpw = s.rpw ∧
    (atPlace p h stepFades s).tst = s.tst ∧ (atPlace p h stepFades s).pins = s.pins := by
  unfold atPlace; split <;> simp

/-- The work of FAL, done here or left for later, moves nothing of TGN but the length. -/
theorem ite_falBoundary_tgn (here : Prop) [Decidable here] (s : State) :
    ∃ n, (if here then falBoundary s else s).tgn = { s.tgn with length := n } := by
  split
  · exact falBoundary_tgn s
  · exact ⟨s.tgn.length, rfl⟩

theorem nextField_tgn (s : State) :
    (nextField s).tgn = { s.tgn with
      stamp := s.tgn.stamp + 1, parity := s.tgn.parity.other, line := 1, scanDone := false } := by
  rfl

theorem boundaryHead_tgn (o : WorkOrder) (e : Bool) (s : State) :
    ∃ n, (boundaryHead o e s).tgn = { s.tgn with
      stamp := s.tgn.stamp + 1, parity := s.tgn.parity.other, line := 1, scanDone := false, length := n } := by
  obtain ⟨n, hn⟩ := ite_falBoundary_tgn (¬o.falLate = true)
    (keepEnded (countHoldover e (handStatistics s.tgn.stamp (nextField s))))
  refine ⟨n, ?_⟩
  rw [ite_not] at hn
  simp only [boundaryHead, atPlace_nolockTest_frame, atPlace_stepFades_frame, hn, keepEnded_frame,
    countHoldover_frame, handStatistics_frame, nextField_tgn]

theorem boundaryCues_tgn (o : WorkOrder) (s : State) :
    ∃ n a b, (boundaryCues o s).1.tgn = { s.tgn with length := n, out1 := a, out2 := b } := by
  obtain ⟨a, b, heng⟩ := engineBoundary_tgn s
  obtain ⟨n, hn⟩ := ite_falBoundary_tgn (o.falLate = true) (engineBoundary s).1
  refine ⟨n, a, b, ?_⟩
  simp only [boundaryCues, atPlace_nolockTest_frame, atPlace_stepFades_frame, hn, heng]

theorem boundaryTail_tgn (o : WorkOrder) (n : Nat) (s : State) :
    (boundaryTail o n s).tgn = { s.tgn with delay := s.cue.settings.pipeDelay } := by
  simp [boundaryTail]

/-- A boundary begins the next field at its first line; of TGN the works behind the new stamp move the length
and the cue levels, and take up the delay. -/
theorem fieldBoundary_tgn (o : WorkOrder) (e : Bool) (s : State) :
    ∃ n a b, (fieldBoundary o e s).tgn = { s.tgn with
      stamp := s.tgn.stamp + 1, parity := s.tgn.parity.other, line := 1, scanDone := false, length := n
      out1 := a, out2 := b, delay := (fieldBoundary o e s).cue.settings.pipeDelay } := by
  obtain ⟨n, hhead⟩ := boundaryHead_tgn o e s
  obtain ⟨m, a, b, hcues⟩ := boundaryCues_tgn o (boundaryHead o e s)
  refine ⟨m, a, b, ?_⟩
  simp only [fieldBoundary, boundaryTail_tgn, boundaryTail_frame, hcues, hhead]

/-! ### The stamp (R60) -/

theorem lineEndWork_stamp_inField {x : LineInputs} {s : State} (h : s.tgn.line < s.tgn.length) :
    (lineEndWork x s).tgn.stamp = s.tgn.stamp := by
  rw [lineEndWork_inField h, beginLine_tgn]
  simp [nextLine, scanPoint_tgn]

theorem lineEndWork_stamp_boundary {x : LineInputs} {s : State} (h : s.tgn.length ≤ s.tgn.line) :
    (lineEndWork x s).tgn.stamp = s.tgn.stamp + 1 ∧ (lineEndWork x s).tgn.line = 1 := by
  obtain ⟨n, a, b, htgn⟩ := fieldBoundary_tgn x.order (gridStep x s).entered (gridStep x s).s
  rw [lineEndWork_boundary h, beginLine_tgn, htgn]
  simp

/-- What a line end does to the stamp: one more at the end of a field, else as it was. -/
def StampMoves (s t : State) : Prop :=
  t.tgn.stamp = s.tgn.stamp ∨
  (t.tgn.stamp = s.tgn.stamp + 1 ∧ s.tgn.length ≤ s.tgn.line ∧ t.tgn.line = 1)

theorem lineEndWork_stampMoves (x : LineInputs) (s : State) : StampMoves s (lineEndWork x s) := by
  rcases Nat.lt_or_ge s.tgn.line s.tgn.length with h | h
  · exact .inl (lineEndWork_stamp_inField h)
  · obtain ⟨hstamp, hline⟩ := lineEndWork_stamp_boundary (x := x) h
    exact .inr ⟨hstamp, h, hline⟩

/-- An event that names a line end is that line end or nothing. -/
theorem ite_lineEndWork_stampMoves (p : Prop) [Decidable p] (x : LineInputs) (s : State) :
    StampMoves s (if p then lineEndWork x s else s) := by
  split
  · exact lineEndWork_stampMoves x s
  · exact .inl rfl

/-- The scan point comes inside a field. -/
theorem State.inField_of_scanNow {x : LineInputs} {s : State} (h : s.scanNow x = true) :
    s.tgn.line < s.tgn.length := by
  simp only [State.scanNow, Bool.and_eq_true, gridStep_endsField, Bool.not_eq_true',
    State.endsField_eq_false_iff] at h
  exact h.1

theorem broadPulse_stamp (e : Pu) (s : State) : (broadPulse e s).tgn.stamp = s.tgn.stamp := by
  obtain ⟨n, h⟩ := broadArrival_tgn e s
  simp [broadPulse, h]

theorem classified_stamp (k : PulseClass) (i : Input) (e : Pu) (u : Tick) (p : Byte) (s : State) :
    (classified k i e u p s).tgn.stamp = s.tgn.stamp := by
  cases k with
  | broad => simp only [classified]; split <;> simp [broadPulse_stamp]
  | line => simp [classified]
  | equalising => rfl
  | noise => rfl

theorem dotEdge_stamp (b : Byte) (s : State) : (dotEdge b s).tgn.stamp = s.tgn.stamp := by
  simp [dotEdge]

end Sys2Proof.Machine
end

section
/-!
PROOFS. The field stamp moves at field boundaries and resets alone (R60).
-/

namespace Sys2Proof.Machine

/-- The commands that move nothing of TGN: all but the resets, STRAP_DONE, the line ends, the arrivals that may
be a BROAD pulse, and the dot edges. -/
def Instr.leavesTgn : Instr → Bool
  | .powerOn _ | .strapDone | .softReset _ _ _ | .pulseClassification _ _ _ _ | .lineEnd _ | .flywheelLimit _
  | .missedFields _ | .scanPoint _ | .fieldBoundary _ | .holdoverExpiry _ | .testNolock _ | .waitendExpired _
  | .tstBroadArrival | .dotEdge _ => false
  | _ => true

theorem nextState_windowEnd (s : State) : nextState .windowEnd s =
    { windowWork (s.atTick s.rfe.windowAt) with
      rfe := { (windowWork (s.atTick s.rfe.windowAt)).rfe with windowAt := s.rfe.windowAt + 720000 } } := by
  rfl

theorem nextState_tgn_of_leavesTgn {c : Instr} (h : Instr.leavesTgn c = true) (s : State) :
    (nextState c s).tgn = s.tgn := by
  cases c with
  | run a b => exact portOne_tgn runFunction_tgn a b s
  | stop a b => exact portOne_tgn stopFunction_tgn a b s
  | continueRun a b => exact portOne_tgn continueFunction_tgn a b s
  | noneFunction => exact portOne_tgn (fun _ => rfl) _ _ s
  | start => exact portOne_tgn (fun _ => rfl) _ _ s
  | clear => exact portOne_tgn (fun _ => rfl) _ _ s
  | powerOn | strapDone | softReset | pulseClassification | lineEnd | flywheelLimit | missedFields
  | scanPoint | fieldBoundary | holdoverExpiry | testNolock | waitendExpired | tstBroadArrival
  | dotEdge => cases h
  | linkAddressRead | causePortRead | ignoredPortWrite => rfl
  | linkAddressWrite => simp only [nextState, exec, execLinkAddressWrite]; split <;> rfl
  | classifierArmed | leadingEdge | pulseOverrun | slicerUpdate =>
    simp only [nextState, exec, execClassifierArmed, execLeadingEdge, execPulseOverrun, execSlicerUpdate]
    (repeat' split) <;> simp
  | windowEnd => rw [nextState_windowEnd]; simp
  | captureAbandon | tstLineArrival =>
    simp only [nextState, exec, execCaptureAbandon, execTstLineArrival]
    (repeat' split) <;> simp
  | requestGrant | recordWrite => simp [nextState, exec, execRequestGrant, execRecordWrite]
  | memoryFault | startupLoadComplete | fillReadComplete | cueRecordRead | idleCueRead
  | takeWriteComplete | keySourceWordRead | reportWriteComplete | getReadComplete
  | lonePutWriteComplete | statusWordWriteComplete =>
    simp only [nextState, exec, execMemoryFault, execStartupLoadComplete, execFillReadComplete,
      execCueRecordRead, execIdleCueRead, execTakeWriteComplete, execKeySourceWordRead,
      execReportWriteComplete, execGetReadComplete, execLonePutWriteComplete, execStatusWordWriteComplete]
    (repeat' split) <;> simp

theorem nextState_pulseClassification_stamp (i : Input) (u : Tick) (a b : Byte) (s : State) :
    (nextState (.pulseClassification i u a b) s).tgn.stamp = s.tgn.stamp := by
  simp only [nextState, exec, execPulseClassification]
  (repeat' split) <;> simp [classified_stamp]

theorem nextState_tstBroadArrival_stamp (s : State) :
    (nextState .tstBroadArrival s).tgn.stamp = s.tgn.stamp := by
  simp only [nextState, exec, execTstBroadArrival]
  (repeat' split) <;> simp [broadPulse_stamp]

theorem nextState_dotEdge_stamp (b : Byte) (s : State) :
    (nextState (.dotEdge b) s).tgn.stamp = s.tgn.stamp := by
  simp only [nextState, exec, execDotEdge]
  split <;> simp [dotEdge_stamp]

theorem nextState_strapDone_stamp (s : State) : (nextState .strapDone s).tgn.stamp = s.tgn.stamp := by
  simp only [nextState, exec, execStrapDone]
  split <;> rfl

/-- A taken SOFT RESET clears the stamp, and one before strap-done is ignored. -/
theorem nextState_softReset_stamp (a b : Bool) (n : Nat) (s : State) :
    (nextState (.softReset a b n) s).tgn.stamp = s.tgn.stamp ∨
    ((nextState (.softReset a b n) s).tgn.stamp = 0 ∧ s.tgn.strapDone = true) := by
  cases h : s.tgn.strapDone with
  | false => exact .inl (by rw [show nextState (.softReset a b n) s = _ from portOne_of_not_strapDone _ _ _ h])
  | true =>
    refine .inr ⟨?_, rfl⟩
    rw [show nextState (.softReset a b n) s = _ from portOne_softReset_of_strapDone n h]
    rfl

theorem nextState_scanPoint_stamp (x : LineInputs) (s : State) :
    (nextState (.scanPoint x) s).tgn.stamp = s.tgn.stamp := by
  simp only [nextState, exec_scanPoint]
  split
  case isTrue h => exact lineEndWork_stamp_inField (State.inField_of_scanNow h)
  case isFalse => rfl

/-- The events that are a line end, or name one that may complete a field. -/
def Instr.endsLine (c : Instr) (x : LineInputs) : Prop :=
  c = .lineEnd x ∨ c = .flywheelLimit x ∨ c = .missedFields x ∨ c = .fieldBoundary x ∨
    c = .holdoverExpiry x ∨ c = .testNolock x ∨ c = .waitendExpired x

/-- What R60 allows a command to do to the stamp. -/
def StampRule (c : Instr) (s t : State) : Prop :=
  t.tgn.stamp = s.tgn.stamp ∨
  (t.tgn.stamp = s.tgn.stamp + 1 ∧ s.tgn.length ≤ s.tgn.line ∧ t.tgn.line = 1 ∧ ∃ x, Instr.endsLine c x) ∨
  (t.tgn.stamp = 0 ∧
    ((∃ straps, c = .powerOn straps) ∨ ∃ a b n, c = .softReset a b n ∧ s.tgn.strapDone = true))

theorem StampMoves.rule {c : Instr} {x : LineInputs} {s t : State} (hc : Instr.endsLine c x)
    (h : StampMoves s t) : StampRule c s t :=
  h.imp id fun ⟨hstamp, hend, hline⟩ => .inl ⟨hstamp, hend, hline, x, hc⟩

/-- Settles O33, by the command: the line ends go by `StampMoves`, and the scan point lies inside a field. -/
theorem onlyBoundariesMoveTheStamp : Obligations.OnlyBoundariesMoveTheStamp := by
  intro c s t h
  obtain rfl := nextState_of_exec h
  show StampRule c s (nextState c s)
  cases c with
  | lineEnd x => exact (lineEndWork_stampMoves x s).rule (x := x) (by simp [Instr.endsLine])
  | flywheelLimit x => exact (ite_lineEndWork_stampMoves _ x s).rule (x := x) (by simp [Instr.endsLine])
  | missedFields x => exact (ite_lineEndWork_stampMoves _ x s).rule (x := x) (by simp [Instr.endsLine])
  | fieldBoundary x => exact (ite_lineEndWork_stampMoves _ x s).rule (x := x) (by simp [Instr.endsLine])
  | holdoverExpiry x => exact (ite_lineEndWork_stampMoves _ x s).rule (x := x) (by simp [Instr.endsLine])
  | testNolock x => exact (ite_lineEndWork_stampMoves _ x s).rule (x := x) (by simp [Instr.endsLine])
  | waitendExpired x => exact (ite_lineEndWork_stampMoves _ x s).rule (x := x) (by simp [Instr.endsLine])
  | scanPoint x => exact .inl (nextState_scanPoint_stamp x s)
  | powerOn straps => exact .inr (.inr ⟨rfl, .inl ⟨straps, rfl⟩⟩)
  | softReset a b n =>
    rcases nextState_softReset_stamp a b n s with hsame | ⟨hzero, hdone⟩
    · exact .inl hsame
    · exact .inr (.inr ⟨hzero, .inr ⟨a, b, n, rfl, hdone⟩⟩)
  | strapDone => exact .inl (nextState_strapDone_stamp s)
  | pulseClassification i u a b => exact .inl (nextState_pulseClassification_stamp i u a b s)
  | tstBroadArrival => exact .inl (nextState_tstBroadArrival_stamp s)
  | dotEdge b => exact .inl (nextState_dotEdge_stamp b s)
  | _ => exact .inl (by rw [nextState_tgn_of_leavesTgn rfl])

end Sys2Proof.Machine
end

section
/-!
PROOFS. The window stack as its depths show it (R128, R131 to R137), and WSK's boundary work seen from the cues:
a step taken before a window cue or behind it gives the same stack (R135, R137, R139).
-/

namespace Sys2Proof.Machine

/-! ### Stacks by their depths -/

/-- Every slot stands at one depth. -/
theorem Stack.slots_eq_slot (st : Stack) (i : Fin 8) : st.slots[i] = st.slot (i - st.top) := by
  simp [Stack.slot, Stack.at]

/-- Two stacks with the same TOP and the same slot at every depth are the same. -/
theorem Stack.ext_slot {st st' : Stack} (htop : st.top = st'.top) (h : ∀ i, st.slot i = st'.slot i) :
    st = st' := by
  obtain ⟨slots, top⟩ := st
  obtain ⟨slots', top'⟩ := st'
  obtain rfl : top = top' := htop
  congr
  apply Vector.ext
  intro k hk
  have := h (⟨k, hk⟩ - top)
  simpa [Stack.slot, Stack.at] using this

@[simp] theorem Stack.push_top (st : Stack) (w : Window) (live : Bool) :
    (st.push w live).top = st.top - 1 := rfl
@[simp] theorem Stack.pop_top (st : Stack) : st.pop.top = st.top + 1 := rfl

theorem Stack.push_slot_zero (st : Stack) (w : Window) (live : Bool) :
    (st.push w live).slot 0 = if live then .live w else .parked w := by
  simp [Stack.slot, Stack.at, Stack.push]

/-- PUSH moves every slot but the one at depth 7 one depth down. -/
theorem Stack.push_slot_succ (st : Stack) (w : Window) (live : Bool) {i : Fin 8} (h : i.val < 7) :
    (st.push w live).slot (i + 1) = st.slot i := by
  have hat : st.top - 1 + (i + 1) = st.top + i := by abel
  have hne : (st.top - 1).val ≠ (st.top + i).val := by
    intro e
    have he : st.top - 1 = st.top + i := Fin.ext e
    have hi : i = -1 := by
      have : st.top + i = st.top + -1 := by rw [← he]; abel
      exact add_left_cancel this
    subst hi
    exact absurd h (by decide)
  simp only [Stack.slot, Stack.at, Stack.push, hat]
  simp [hne]

/-- POP moves every slot one depth up. -/
theorem Stack.pop_slot (st : Stack) {i : Fin 8} (h : i.val < 7) : st.pop.slot i = st.slot (i + 1) := by
  have hat : st.top + 1 + i = st.top + (i + 1) := by abel
  have hne : st.top.val ≠ (st.top + (i + 1)).val := by
    intro e
    have he : st.top + 0 = st.top + (i + 1) := by rw [add_zero]; exact Fin.ext e
    have hi : i = -1 := by
      have hz : (0 : Fin 8) = i + 1 := add_left_cancel he
      exact eq_neg_of_add_eq_zero_left hz.symm
    subst hi
    exact absurd h (by decide)
  simp only [Stack.slot, Stack.at, Stack.pop, hat]
  simp [hne]

theorem Stack.pop_slot_seven (st : Stack) : st.pop.slot 7 = .empty := by
  have hat : st.top + 1 + 7 = st.top := by
    have : (1 : Fin 8) + 7 = 0 := by decide
    rw [add_assoc, this, add_zero]
  simp only [Stack.slot, Stack.at, Stack.pop, hat]
  simp

/-- A replaced slot, and every other as it was. -/
theorem Stack.slot_put (st : Stack) (i j : Fin 8) (x : Slot) :
    (st.put i x).slot j = if j = i then x else st.slot j := by
  split
  case isTrue h => subst h; exact Stack.slot_put_self st j x
  case isFalse h => exact Stack.slot_put_of_ne st x h

theorem Stack.exch_slot (st : Stack) (i j : Fin 8) :
    (st.exch i).slot j = if j = i then st.slot 0 else if j = 0 then st.slot i else st.slot j := by
  simp [Stack.exch, Stack.slot_put]

theorem Stack.drop_slot (st : Stack) (i j : Fin 8) :
    (st.drop i).slot j = if j = i then .empty else st.slot j := by
  simp [Stack.drop, Stack.slot_put]

/-- SHOW and PARK change the tag at their depth, of a slot in use. -/
theorem Stack.show_slot (st : Stack) (i j : Fin 8) :
    (st.show_ i).slot j =
      if j = i then ((st.slot i).window.map Slot.live).getD (st.slot i) else st.slot j := by
  unfold Stack.show_
  cases h : (st.slot i).window with
  | some w => simp [Stack.slot_put]
  | none =>
    by_cases e : j = i
    case pos => subst e; simp
    case neg => simp [e]

theorem Stack.park_slot (st : Stack) (i j : Fin 8) :
    (st.park i).slot j =
      if j = i then ((st.slot i).window.map Slot.parked).getD (st.slot i) else st.slot j := by
  unfold Stack.park
  cases h : (st.slot i).window with
  | some w => simp [Stack.slot_put]
  | none =>
    by_cases e : j = i
    case pos => subst e; simp
    case neg => simp [e]

@[simp] theorem Stack.exch_top (st : Stack) (i : Fin 8) : (st.exch i).top = st.top := rfl
@[simp] theorem Stack.drop_top (st : Stack) (i : Fin 8) : (st.drop i).top = st.top := rfl
@[simp] theorem Stack.show_top (st : Stack) (i : Fin 8) : (st.show_ i).top = st.top := by
  unfold Stack.show_; split <;> rfl
@[simp] theorem Stack.park_top (st : Stack) (i : Fin 8) : (st.park i).top = st.top := by
  unfold Stack.park; split <;> rfl

theorem Stack.onWindow_slot (st : Stack) (i j : Fin 8) (f : Window → Window) :
    (st.onWindow i f).slot j = if j = i then (st.slot i).update f else st.slot j := by
  simp [Stack.onWindow, Stack.slot_put]

@[simp] theorem Stack.onWindow_top (st : Stack) (i : Fin 8) (f : Window → Window) :
    (st.onWindow i f).top = st.top := rfl

/-- A PUSH on a stack whose slot at depth 7 is EMPTY is undone by a POP. -/
theorem Stack.push_pop {st : Stack} (w : Window) (live : Bool) (h : st.slot 7 = .empty) :
    (st.push w live).pop = st := by
  refine Stack.ext_slot (by simp) fun i => ?_
  by_cases hi : i.val < 7
  · rw [Stack.pop_slot _ hi, Stack.push_slot_succ _ _ _ hi]
  · obtain rfl : i = 7 := by apply Fin.ext; simp; omega
    rw [Stack.pop_slot_seven, h]

/-- Settles O52. -/
theorem stackCuesMoveTheDepths : Obligations.StackCuesMoveTheDepths := by
  intro st w live i j
  refine ⟨st.push_slot_zero w live, fun h => ⟨st.push_slot_succ w live h, st.pop_slot h⟩, st.pop_slot_seven,
    Stack.push_pop w live, ?exchTop, ?exchDepth, ?exchOther, ?exchTwice, ?dropSelf, ?dropOther, ?tag, ?tagOther,
    rfl, rfl, st.show_top i, st.park_top i⟩
  case exchTop => rw [st.exch_slot]; split <;> simp_all
  case exchDepth => simp [st.exch_slot]
  case exchOther => intro h0 hi; simp [st.exch_slot, h0, hi]
  case exchTwice =>
    refine Stack.ext_slot rfl fun k => ?_
    simp only [Stack.exch_slot]
    split
    case isTrue h => subst h; simp only [if_true]; split <;> simp_all
    case isFalse h =>
      split
      case isTrue h0 => subst h0; simp
      case isFalse h0 => rfl
  case dropSelf => simp [st.drop_slot]
  case dropOther => intro h; simp [st.drop_slot, h]
  case tag => intro v h; simp [st.show_slot, st.park_slot, h]
  case tagOther => intro h; simp [st.show_slot, st.park_slot, h]

/-! ### The boundary's steps and the cues on the stack -/

@[simp] theorem Stack.stepAll_stepAll (g : Stamp) (st : Stack) : (st.stepAll g).stepAll g = st.stepAll g := by
  refine Stack.ext_slot rfl fun i => ?_
  simp only [Stack.stepAll_slot]
  cases st.slot i <;> simp [Slot.update]

theorem Slot.window_stepFor_isEmpty (g : Stamp) (x : Slot) :
    (x.update (Window.stepFor g)).isEmpty = x.isEmpty := by
  simp

theorem Slot.update_code (f : Window → Window) (x : Slot) : (x.update f).code = x.code := by
  cases x <;> rfl

/-- A window pushed at the boundary is marked for it and steps no more. -/
theorem Stack.stepAll_push {g : Stamp} {w : Window} (st : Stack) (live : Bool) (h : w.mark = g) :
    (st.stepAll g).push w live = (st.push w live).stepAll g := by
  refine Stack.ext_slot rfl fun i => ?_
  have hstep : w.stepFor g = w := by simp [Window.stepFor, h]
  by_cases hi : i = 0
  · subst hi
    simp only [Stack.stepAll_slot, Stack.push_slot_zero]
    cases live <;> simp [Slot.update, hstep]
  · obtain ⟨k, hk, rfl⟩ : ∃ k : Fin 8, k.val < 7 ∧ k + 1 = i := by
      refine ⟨i - 1, ?_, by abel⟩
      revert hi
      revert i
      decide
    simp only [Stack.stepAll_slot, Stack.push_slot_succ _ _ _ hk]

theorem Stack.stepAll_pop (g : Stamp) (st : Stack) : (st.stepAll g).pop = st.pop.stepAll g := by
  refine Stack.ext_slot rfl fun i => ?_
  by_cases hi : i.val < 7
  · simp only [Stack.stepAll_slot, Stack.pop_slot _ hi]
  · obtain rfl : i = 7 := by apply Fin.ext; simp; omega
    simp only [Stack.stepAll_slot, Stack.pop_slot_seven, Slot.update]

theorem Stack.stepAll_exch (g : Stamp) (st : Stack) (i : Fin 8) :
    (st.stepAll g).exch i = (st.exch i).stepAll g := by
  refine Stack.ext_slot rfl fun j => ?_
  simp only [Stack.stepAll_slot, Stack.exch_slot]
  (repeat' split) <;> rfl

theorem Stack.stepAll_drop (g : Stamp) (st : Stack) (i : Fin 8) :
    (st.stepAll g).drop i = (st.drop i).stepAll g := by
  refine Stack.ext_slot rfl fun j => ?_
  simp only [Stack.stepAll_slot, Stack.drop_slot]
  split <;> rfl

theorem Stack.stepAll_show (g : Stamp) (st : Stack) (i : Fin 8) :
    (st.stepAll g).show_ i = (st.show_ i).stepAll g := by
  refine Stack.ext_slot (by simp) fun j => ?_
  simp only [Stack.stepAll_slot, Stack.show_slot]
  split
  · cases st.slot i <;> rfl
  · rfl

theorem Stack.stepAll_park (g : Stamp) (st : Stack) (i : Fin 8) :
    (st.stepAll g).park i = (st.park i).stepAll g := by
  refine Stack.ext_slot (by simp) fun j => ?_
  simp only [Stack.stepAll_slot, Stack.park_slot]
  split
  · cases st.slot i <;> rfl
  · rfl

/-- A change of one window that takes the boundary's step first, and leaves the mark it sets, gives the same
stack before the steps and behind them. -/
theorem Stack.stepAll_onWindow {g : Stamp} {f : Window → Window} (st : Stack) (i : Fin 8)
    (hstep : ∀ w, f (w.stepFor g) = f w) (hmark : ∀ w, (f w).mark = g) :
    (st.stepAll g).onWindow i f = (st.onWindow i f).stepAll g := by
  have hdone : ∀ w, (f w).stepFor g = f w := fun w => by simp [Window.stepFor, hmark w]
  refine Stack.ext_slot rfl fun j => ?_
  simp only [Stack.stepAll_slot, Stack.onWindow_slot]
  split
  · cases st.slot i <;> simp [Slot.update, hstep, hdone]
  · rfl

@[simp] theorem Window.store_mark (w : Window) (f : EditField) (v : Nat) : (w.store f v).mark = w.mark := by
  cases f <;> rfl

theorem Window.edit_stepFor (g : Stamp) (f : EditField) (v : Nat) (w : Window) :
    (w.stepFor g).edit g f v = w.edit g f v := by
  simp [Window.edit]

theorem Window.edit_mark (g : Stamp) (f : EditField) (v : Nat) (w : Window) : (w.edit g f v).mark = g := by
  simp [Window.edit]

theorem Window.startFade_stepFor (g : Stamp) (target steps : Nat) (w : Window) :
    (w.stepFor g).startFade g target steps = w.startFade g target steps := by
  simp [Window.startFade]

theorem Window.startFade_mark (g : Stamp) (target steps : Nat) (w : Window) :
    (w.startFade g target steps).mark = g := by
  rfl

end Sys2Proof.Machine
end

section
/-!
PROOFS. WSK's step of every window may be taken before any work of the boundary or behind it: nothing the cue
engine does at a boundary can tell (R139; assumption log 6).
-/

namespace Sys2Proof.Machine

/-! ### The shared operations -/

theorem produce_stepFades (r : Report) (s : State) : produce r (stepFades s) = stepFades (produce r s) := rfl

theorem produceAll_stepFades (rs : List Report) (s : State) :
    produceAll rs (stepFades s) = stepFades (produceAll rs s) := by
  induction rs generalizing s with
  | nil => rfl
  | cons r rs ih => exact ih (produce r s)

theorem latch_stepFades (c : Cause) (s : State) : latch c (stepFades s) = stepFades (latch c s) := rfl

theorem withLoop_stepFades (r : Lll × List Report) (s : State) :
    (stepFades s).withLoop r = stepFades (s.withLoop r) :=
  produceAll_stepFades r.2 { s with lll := r.1 }

theorem falSeek_stepFades (w : LostReason) (s : State) : falSeek w (stepFades s) = stepFades (falSeek w s) :=
  produceAll_stepFades (s.fal.enterSeek w).2 { s with fal := (s.fal.enterSeek w).1 }

theorem sourceNotice_stepFades (s : State) : sourceNotice (stepFades s) = stepFades (sourceNotice s) := by
  simp only [sourceNotice, stepFades_frame, withLoop_stepFades, falSeek_stepFades]

theorem changeActive_stepFades (i : Input) (w : SwitchReason) (s : State) :
    changeActive i w (stepFades s) = stepFades (changeActive i w s) :=
  sourceNotice_stepFades (latch .inputChange (produce
    (repInputSwitched { s.rfe with active := i, differ := 0, warned := false } w)
    { s with rfe := { s.rfe with active := i, differ := 0, warned := false } }))

theorem changeStandard_stepFades (d : Standard) (f : Bool) (s : State) :
    changeStandard d f (stepFades s) = stepFades (changeStandard d f s) := by
  let s1 := produce (repStandard d s.rfe.active f) { s with rfe := { s.rfe with working := d } }
  have h : changeStandard d f (stepFades s) = falSeek .standard ((stepFades s1).withLoop (s1.lll.standard d)) := rfl
  rw [h, withLoop_stepFades, falSeek_stepFades]
  rfl

theorem policyArrival_stepFades (old new : Policy) (s : State) :
    policyArrival old new (stepFades s) = stepFades (policyArrival old new s) := by
  unfold policyArrival
  split
  · rfl
  · split
    · rfl
    · simp only [stepFades_frame, changeActive_stepFades]; split <;> rfl

theorem stdModeLoad_stepFades (old new : StdMode) (s : State) :
    stdModeLoad old new (stepFades s) = stepFades (stdModeLoad old new s) := by
  unfold stdModeLoad
  split
  · rfl
  · split
    · rfl
    · simp only [stepFades_frame]
      split
      · rfl
      · exact changeStandard_stepFades _ true { s with rfe := { s.rfe with differ := 0, warned := false } }

theorem vOffsetChange_stepFades (old : Nat) (s : State) :
    vOffsetChange old (stepFades s) = stepFades (vOffsetChange old s) := by
  simp only [vOffsetChange, stepFades_frame]; split <;> rfl

theorem testModeLoad_stepFades (m : TestMode) (s : State) :
    testModeLoad m (stepFades s) = stepFades (testModeLoad m s) := by
  simp only [testModeLoad, stepFades_frame]
  split
  · rfl
  · split
    · exact sourceNotice_stepFades { s with tst :=
        { mode := m, count := some ⟨s.tgn.stamp, 0⟩, lockTime := some s.tgn.stamp, lines := s.entryLines } }
    · split
      · exact sourceNotice_stepFades { s with tst := { mode := m } }
      · rfl

theorem slicerRestart_stepFades (s : State) : slicerRestart (stepFades s) = stepFades (slicerRestart s) := rfl

/-! ### The port and the writer -/

theorem postTake_stepFades (s : State) : postTake (stepFades s) = stepFades (postTake s) := by
  simp only [postTake, stepFades_frame]; split <;> rfl

theorem grant_stepFades (s : State) : grant (stepFades s) = stepFades (grant s) := by
  simp only [grant, stepFades_frame]; (repeat' split) <;> rfl

theorem rpwNext_stepFades (s : State) : rpwNext (stepFades s) = stepFades (rpwNext s) := by
  simp only [rpwNext, State.writeInHand, State.mayWrite, stepFades_frame]; (repeat' split) <;> rfl

theorem boundaryGet_stepFades (s : State) : boundaryGet (stepFades s) = stepFades (boundaryGet s) := by
  unfold boundaryGet
  rw [show (stepFades s).mayWrite = s.mayWrite from rfl, show (stepFades s).getInHand = s.getInHand from rfl]
  split
  · rfl
  · exact rpwNext_stepFades { s with rpw := { s.rpw with getDue := true } }

theorem abortLoad_stepFades (w : AbortReason) (s : State) :
    abortLoad w (stepFades s) = stepFades (abortLoad w s) := by
  simp only [abortLoad, stepFades_frame]; split <;> rfl

theorem abortLoading_stepFades (w : AbortReason) (s : State) :
    abortLoading w (stepFades s) = stepFades (abortLoading w s) := by
  simp only [abortLoading, stepFades_frame, abortLoad_stepFades]; split <;> rfl

/-! ### Loads, faults and retiring -/

theorem faultHalt_stepFades (k : FaultKind) (c : Copy) (s : State) :
    faultHalt k c (stepFades s) = stepFades (faultHalt k c s) := rfl

theorem linkFault_stepFades (t : Word) (b : Bool) (n : Nat) (s : State) :
    linkFault t b n (stepFades s) = stepFades (linkFault t b n s) := by
  let s1 := enterHalted .link (dropCueRequests (dropWriters s))
  let s2 := { s1 with cue := { s1.cue with linkValid := false, startup := false } }
  exact abortLoading_stepFades .link (produce (repHaltLink t b n s2.cue.take) (latch .link s2))

theorem checkIndices_stepFades (t : Word) (s : State) :
    checkIndices t (stepFades s) = stepFades (checkIndices t s) := by
  have take : (if (stepFades s).cue.qLen ≤ (stepFades s).cue.take then
        postTake (produce (repWarnIndex t 0 (stepFades s).cue.take (stepFades s).cue.qLen)
          { stepFades s with cue := { (stepFades s).cue with take := 0 } })
      else stepFades s) =
      stepFades (if s.cue.qLen ≤ s.cue.take then
        postTake (produce (repWarnIndex t 0 s.cue.take s.cue.qLen) { s with cue := { s.cue with take := 0 } })
      else s) := by
    simp only [stepFades_frame]
    split
    · exact postTake_stepFades (produce (repWarnIndex t 0 s.cue.take s.cue.qLen)
        { s with cue := { s.cue with take := 0 } })
    · rfl
  simp only [checkIndices, take]
  generalize (if s.cue.qLen ≤ s.cue.take then
        postTake (produce (repWarnIndex t 0 s.cue.take s.cue.qLen) { s with cue := { s.cue with take := 0 } })
      else s) = s1
  simp only [stepFades_frame]
  split <;> rfl

theorem loadEffects_stepFades (old : Settings) (s : State) :
    loadEffects old (stepFades s) = stepFades (loadEffects old s) := by
  have restart : (if s.cue.settings.restart then slicerRestart (stepFades s) else stepFades s) =
      stepFades (if s.cue.settings.restart then slicerRestart s else s) := by split <;> rfl
  have target : ∀ (h : Int) (t : State), { stepFades t with lll := { t.lll with hTarget := h } } =
      stepFades { t with lll := { t.lll with hTarget := h } } := fun _ _ => rfl
  simp only [loadEffects]
  rw [show (stepFades s).cue = s.cue from rfl, restart, stdModeLoad_stepFades, policyArrival_stepFades]
  rw [show ∀ t : State, (stepFades t).lll = t.lll from fun _ => rfl, target, vOffsetChange_stepFades,
    testModeLoad_stepFades]

theorem adoptLoad_stepFades (t : Word) (x : Image) (take put : Nat) (s : State) :
    adoptLoad t x take put (stepFades s) = stepFades (adoptLoad t x take put s) := by
  have hcheck : checkIndices t (adoptDescriptors x take put (stepFades s)) =
      stepFades (checkIndices t (adoptDescriptors x take put s)) :=
    checkIndices_stepFades t (adoptDescriptors x take put s)
  unfold adoptLoad
  rw [hcheck]
  generalize checkIndices t (adoptDescriptors x take put s) = s1
  let st := settingsOf x.settings s1.rfe.working
  let ws := settingWarnings t x.settings s1.rfe.working
  let s2 := produceAll ws { s1 with cue := { s1.cue with settings := st } }
  let s3 := loadEffects s.cue.settings s2
  have hwarn : produceAll ws (stepFades { s1 with cue := { s1.cue with settings := st } }) = stepFades s2 :=
    produceAll_stepFades ws _
  have heffects : loadEffects s.cue.settings (stepFades s2) = stepFades s3 := loadEffects_stepFades _ s2
  rw [← hwarn] at heffects
  exact (congrArg (fun t : State => rpwNext
      { t with cue := { t.cue with linkValid := true, startup := false, masks := st.faultMask } }) heffects).trans
    (rpwNext_stepFades
      { s3 with cue := { s3.cue with linkValid := true, startup := false, masks := st.faultMask } })

theorem advanceTake_stepFades (s : State) : advanceTake (stepFades s) = stepFades (advanceTake s) := by
  simp only [advanceTake, cueTriggerTest, stepFades_frame]; split <;> rfl

theorem writeTake_stepFades (s : State) : writeTake (stepFades s) = stepFades (writeTake s) := by
  simp only [writeTake, postTake_stepFades, grant_stepFades]

theorem retire_stepFades (isIdle : Bool) (s : State) :
    retire isIdle (stepFades s) = stepFades (retire isIdle s) := by
  simp only [retire, advanceTake_stepFades, writeTake_stepFades]; split <;> rfl

theorem reportDone_stepFades (c : CueWords) (s : State) :
    reportDone c (stepFades s) = stepFades (reportDone c s) := by
  unfold reportDone; split <;> rfl

/-! ### The cues -/

/-- The result of a copy with the boundary's steps taken behind it. -/
def CopyResult.stepped (r : CopyResult) : CopyResult := (stepFades r.1, r.2)

theorem onFault_stepFades {k : FaultKind} {c : Copy} {s : State} {f : State → CopyResult}
    (hf : f (stepFades s) = CopyResult.stepped (f s)) :
    onFault k c (stepFades s) f = CopyResult.stepped (onFault k c s f) := by
  unfold onFault
  rw [show (stepFades s).masked k = s.masked k from rfl]
  split
  · exact hf
  · rfl

theorem skipWith_stepFades (r : Report) (s : State) :
    skipWith r (stepFades s) = CopyResult.stepped (skipWith r s) := rfl

theorem stackUnder_stepFades {c : Copy} {i : Fin 8} {s : State} {ok : State → CopyResult}
    (hok : ok (stepFades s) = CopyResult.stepped (ok s)) :
    stackUnder c i (stepFades s) ok = CopyResult.stepped (stackUnder c i s ok) := by
  have hst : (stepFades s).wsk.stack = s.wsk.stack.stepAll s.tgn.stamp := rfl
  simp only [stackUnder, hst, Stack.stepAll_slot, Slot.isEmpty_update, Slot.update_code, repWarnStack]
  split
  · exact onFault_stepFades rfl
  · exact hok

theorem rangeCheck_stepFades {c : Copy} {d : Nat} {fs : List GeoField} {s : State} {ok : State → CopyResult}
    (hok : ∀ s, ok (stepFades s) = CopyResult.stepped (ok s)) :
    rangeCheck c d fs (stepFades s) ok = CopyResult.stepped (rangeCheck c d fs s ok) := by
  unfold rangeCheck
  split
  · exact hok s
  · exact onFault_stepFades (hok (produce _ s))

theorem lockdownCheck_stepFades {c : Copy} {s : State} {ok : State → CopyResult}
    (hok : ok (stepFades s) = CopyResult.stepped (ok s)) :
    lockdownCheck c (stepFades s) ok = CopyResult.stepped (lockdownCheck c s ok) := by
  unfold lockdownCheck
  rw [show (stepFades s).lockdownActive = s.lockdownActive from rfl]
  split
  · exact onFault_stepFades rfl
  · exact hok

/-- A change of the stack that commutes with the boundary's steps. -/
theorem withStack_stepFades {f : Stack → Stack} {s : State}
    (hf : f (s.wsk.stack.stepAll s.tgn.stamp) = (f s.wsk.stack).stepAll s.tgn.stamp) :
    withStack (stepFades s) (f (stepFades s).wsk.stack) = stepFades (withStack s (f s.wsk.stack)) := by
  have hst : (stepFades s).wsk.stack = s.wsk.stack.stepAll s.tgn.stamp := rfl
  rw [hst, hf]
  rfl

theorem performed_stepFades {f : Stack → Stack} {s : State}
    (hf : f (s.wsk.stack.stepAll s.tgn.stamp) = (f s.wsk.stack).stepAll s.tgn.stamp) :
    ((withStack (stepFades s) (f (stepFades s).wsk.stack), .performed) : CopyResult) =
      CopyResult.stepped (withStack s (f s.wsk.stack), .performed) :=
  congrArg (·, _) (withStack_stepFades hf)

theorem cuePush_stepFades (c : Copy) (s : State) :
    cuePush c (stepFades s) = CopyResult.stepped (cuePush c s) := by
  have hst : (stepFades s).wsk.stack = s.wsk.stack.stepAll s.tgn.stamp := rfl
  simp only [cuePush, hst, Stack.stepAll_slot, Slot.isEmpty_update, Slot.update_code, repWarnStack]
  split
  · exact onFault_stepFades rfl
  · refine rangeCheck_stepFades fun s => ?_
    exact performed_stepFades (f := fun st => st.push _ _) (Stack.stepAll_push _ _ rfl)

theorem cuePop_stepFades (c : Copy) (s : State) : cuePop c (stepFades s) = CopyResult.stepped (cuePop c s) :=
  stackUnder_stepFades (performed_stepFades (f := Stack.pop) (Stack.stepAll_pop _ _))

theorem cueExch_stepFades (c : Copy) (s : State) :
    cueExch c (stepFades s) = CopyResult.stepped (cueExch c s) := by
  have hgo : ∀ i, ((withStack (stepFades s) ((stepFades s).wsk.stack.exch i), .performed) : CopyResult) =
      CopyResult.stepped (withStack s (s.wsk.stack.exch i), .performed) := fun i =>
    performed_stepFades (f := fun st => st.exch i) (Stack.stepAll_exch _ _ i)
  have hst : (stepFades s).wsk.stack = s.wsk.stack.stepAll s.tgn.stamp := rfl
  unfold cueExch
  simp only [hst, Stack.stepAll_slot, Slot.isEmpty_update]
  split
  · exact stackUnder_stepFades (hgo _)
  · exact hgo _

theorem cueDrop_stepFades (c : Copy) (s : State) :
    cueDrop c (stepFades s) = CopyResult.stepped (cueDrop c s) := by
  unfold cueDrop
  refine stackUnder_stepFades ?_
  exact performed_stepFades (f := fun st => st.drop c.words.slotDepth) (Stack.stepAll_drop _ _ _)

theorem cueShow_stepFades (c : Copy) (s : State) :
    cueShow c (stepFades s) = CopyResult.stepped (cueShow c s) := by
  unfold cueShow
  refine stackUnder_stepFades ?_
  exact performed_stepFades (f := fun st => st.show_ c.words.slotDepth) (Stack.stepAll_show _ _ _)

theorem cuePark_stepFades (c : Copy) (s : State) :
    cuePark c (stepFades s) = CopyResult.stepped (cuePark c s) := by
  unfold cuePark
  refine stackUnder_stepFades ?_
  exact performed_stepFades (f := fun st => st.park c.words.slotDepth) (Stack.stepAll_park _ _ _)

theorem cueEdit_stepFades (c : Copy) (s : State) :
    cueEdit c (stepFades s) = CopyResult.stepped (cueEdit c s) := by
  unfold cueEdit
  split
  · rfl
  · refine stackUnder_stepFades (rangeCheck_stepFades fun s => ?_)
    exact performed_stepFades (f := fun st => st.onWindow _ (Window.edit s.tgn.stamp _ _))
      (Stack.stepAll_onWindow _ _ (Window.edit_stepFor _ _ _) (Window.edit_mark _ _ _))

theorem cueFade_stepFades (c : Copy) (s : State) :
    cueFade c (stepFades s) = CopyResult.stepped (cueFade c s) := by
  unfold cueFade
  refine stackUnder_stepFades ?_
  exact performed_stepFades
    (f := fun st => st.onWindow c.words.slotDepth (Window.startFade s.tgn.stamp c.words.w5.toNat c.words.w6.toNat))
    (Stack.stepAll_onWindow _ _ (Window.startFade_stepFor _ _ _) (Window.startFade_mark _ _ _))

theorem deferLoad_stepFades (isIdle : Bool) (c : Copy) (s : State) :
    deferLoad isIdle c (stepFades s) = CopyResult.stepped (deferLoad isIdle c s) := by
  simp only [deferLoad, stepFades_frame]; (repeat' split) <;> rfl

theorem cueKeyload_stepFades (isIdle : Bool) (c : Copy) (s : State) :
    cueKeyload isIdle c (stepFades s) = CopyResult.stepped (cueKeyload isIdle c s) := by
  have busy := onFault_stepFades (k := .busy) (c := c) (deferLoad_stepFades isIdle c s)
  unfold cueKeyload
  simp only [stepFades_frame]
  split
  · split
    · rfl
    · split
      · rfl
      · exact busy
  · split
    · exact onFault_stepFades rfl
    · split
      · exact busy
      · rfl

theorem cuePhase_stepFades (c : Copy) (s : State) :
    cuePhase c (stepFades s) = CopyResult.stepped (cuePhase c s) := by
  refine lockdownCheck_stepFades ?_
  simp only [stepFades_frame]
  split
  · exact onFault_stepFades rfl
  · exact congrArg (·, _) (vOffsetChange_stepFades _
      { s with
        cue := { s.cue with settings :=
          { s.cue.settings with slew := c.words.w6.toNat, vOffset := c.words.w5.toNat } }
        lll := { s.lll with hTarget := c.words.w4.toInt } })

theorem cueSelect_stepFades (isIdle : Bool) (c : Copy) (s : State) :
    cueSelect isIdle c (stepFades s) = CopyResult.stepped (cueSelect isIdle c s) := by
  refine lockdownCheck_stepFades ?_
  let new := policyOf c.words.w4.toNat
  let s1 : State := { s with cue := { s.cue with settings := { s.cue.settings with policy := new } } }
  have h : policyArrival s.cue.settings.policy new (reportDone c.words (retire isIdle (stepFades s1))) =
      stepFades (policyArrival s.cue.settings.policy new (reportDone c.words (retire isIdle s1))) := by
    rw [retire_stepFades, reportDone_stepFades, policyArrival_stepFades]
  exact congrArg (fun t => (t, CopyOutcome.retired)) h

theorem cueSettings_stepFades (isIdle : Bool) (c : Copy) (s : State) :
    cueSettings isIdle c (stepFades s) = CopyResult.stepped (cueSettings isIdle c s) := by
  refine lockdownCheck_stepFades ?_
  have hadv : (if isIdle then stepFades s else advanceTake (stepFades s)) =
      stepFades (if isIdle then s else advanceTake s) := by
    rw [advanceTake_stepFades]; split <;> rfl
  have hwrite : ∀ t, (if isIdle then stepFades t else writeTake (stepFades t)) =
      stepFades (if isIdle then t else writeTake t) := fun t => by
    rw [writeTake_stepFades]; split <;> rfl
  split
  · rfl
  · split
    · exact congrArg (·, _) (linkFault_stepFades _ _ _ s)
    · simp only [hadv, stepFades_frame, adoptLoad_stepFades, hwrite, reportDone_stepFades]
      rfl

theorem cueOutput_stepFades (c : Copy) (s : State) :
    cueOutput c (stepFades s) = CopyResult.stepped (cueOutput c s) := rfl

theorem cueWaitlock_stepFades (isIdle : Bool) (c : Copy) (s : State) :
    cueWaitlock isIdle c (stepFades s) = CopyResult.stepped (cueWaitlock isIdle c s) := by
  simp only [cueWaitlock]
  rw [show (stepFades s).condMet = s.condMet from rfl]
  (repeat' split) <;> rfl

/-- SNAPSHOT looks through the steps not yet taken. -/
theorem cueSnapshot_stepFades (c : Copy) (s : State) :
    cueSnapshot c (stepFades s) = CopyResult.stepped (cueSnapshot c s) := by
  have hst : (stepFades s).wsk.stack.stepAll (stepFades s).tgn.stamp = s.wsk.stack.stepAll s.tgn.stamp :=
    Stack.stepAll_stepAll _ _
  simp only [cueSnapshot, hst]
  split <;> rfl

/-- Every cue has the same effect before the boundary's steps and behind them. -/
theorem kindEffect_stepFades (isIdle : Bool) (k : CueKind) (c : Copy) (s : State) :
    kindEffect isIdle k c (stepFades s) = CopyResult.stepped (kindEffect isIdle k c s) := by
  cases k with
  | none | mark | halt => rfl
  | push => exact cuePush_stepFades c s
  | pop => exact cuePop_stepFades c s
  | exch => exact cueExch_stepFades c s
  | drop => exact cueDrop_stepFades c s
  | edit => exact cueEdit_stepFades c s
  | show_ => exact cueShow_stepFades c s
  | park => exact cuePark_stepFades c s
  | fade => exact cueFade_stepFades c s
  | keyload => exact cueKeyload_stepFades isIdle c s
  | phase => exact cuePhase_stepFades c s
  | select => exact cueSelect_stepFades isIdle c s
  | settings => exact cueSettings_stepFades isIdle c s
  | output => exact cueOutput_stepFades c s
  | waitlock => exact cueWaitlock_stepFades isIdle c s
  | snapshot => exact cueSnapshot_stepFades c s

theorem judgeCopy_stepFades (isIdle : Bool) (c : Copy) (s : State) :
    judgeCopy isIdle c (stepFades s) = CopyResult.stepped (judgeCopy isIdle c s) := by
  unfold judgeCopy
  split
  · exact onFault_stepFades rfl
  · exact onFault_stepFades rfl
  · split
    · refine onFault_stepFades ?_
      split
      · exact kindEffect_stepFades _ _ _ (produce _ s)
      · rfl
    · exact kindEffect_stepFades _ _ _ s

/-! ### The engine's boundary work -/

theorem execCopy_stepFades (isIdle : Bool) (c : Copy) (s : State) :
    execCopy isIdle c (stepFades s) = (stepFades (execCopy isIdle c s).1, (execCopy isIdle c s).2) := by
  unfold execCopy
  rw [judgeCopy_stepFades]
  generalize judgeCopy isIdle c s = r
  obtain ⟨t, out⟩ := r
  cases out with
  | retired | deferred | waiting | halted => rfl
  | performed => simp only [CopyResult.stepped, retire_stepFades, reportDone_stepFades]
  | skipped => simp only [CopyResult.stepped, retire_stepFades]
  | halting => simp only [CopyResult.stepped, retire_stepFades, reportDone_stepFades]; rfl

theorem execDue_stepFades (cs : List Copy) (s : State) :
    execDue cs (stepFades s) = (stepFades (execDue cs s).1, (execDue cs s).2) := by
  induction cs generalizing s with
  | nil => rfl
  | cons c cs ih =>
    simp only [execDue, execCopy_stepFades]
    generalize execCopy false c s = r
    obtain ⟨t, n, go⟩ := r
    cases go with
    | true => simp only [ih]
    | false => rfl

theorem execIdle_stepFades (c : Option Copy) (s : State) :
    execIdle c (stepFades s) = (stepFades (execIdle c s).1, (execIdle c s).2) := by
  cases c with
  | none => rfl
  | some c => simp only [execIdle, execCopy_stepFades]

theorem runningBoundary_stepFades (s : State) :
    runningBoundary (stepFades s) = (stepFades (runningBoundary s).1, (runningBoundary s).2) := by
  simp only [runningBoundary, stepFades_frame]
  rw [show clearDue (endScan (stepFades s)) = stepFades (clearDue (endScan s)) from rfl, execDue_stepFades]
  split
  · rfl
  · split
    · exact execIdle_stepFades _ _
    · rfl

theorem waitTest_stepFades (w : WaitRecord) (s : State) :
    waitTest w (stepFades s) = (stepFades (waitTest w s).1, (waitTest w s).2) := by
  have hend : ∀ met, endWait met w (stepFades s) = stepFades (endWait met w s) := fun met => by
    rw [endWait, endWait, ← reportDone_stepFades, ← retire_stepFades]
    rfl
  unfold waitTest
  rw [show (stepFades s).condMet = s.condMet from rfl, hend, hend]
  (repeat' split) <;> rfl

/-- The cue engine's boundary work is the same before WSK's steps and behind them (R139). -/
theorem engineBoundary_stepFades (s : State) :
    engineBoundary (stepFades s) = (stepFades (engineBoundary s).1, (engineBoundary s).2) := by
  unfold engineBoundary
  rw [show (stepFades s).cue = s.cue from rfl, show (stepFades s).pins = s.pins from rfl,
    runningBoundary_stepFades]
  split
  · rfl
  split
  · rfl
  · rfl
  · rfl
  · split
    · rfl
    · split
      · rfl
      · exact waitTest_stepFades _ s
  · split
    · rfl
    · split
      · exact waitTest_stepFades _ { s with cue := { s.cue with heldFrom := none } }
      · rfl

/-! ### The other works of the boundary -/

theorem nolockTest_stepFades (s : State) : nolockTest (stepFades s) = stepFades (nolockTest s) := by
  unfold nolockTest
  rw [show (stepFades s).nolockHere = s.nolockHere from rfl]
  split <;> rfl

theorem fieldstat_stepFades (s : State) : fieldstat (stepFades s) = stepFades (fieldstat s) := by
  simp only [fieldstat, stepFades_frame]; split <;> rfl

theorem falBoundary_stepFades (s : State) : falBoundary (stepFades s) = stepFades (falBoundary s) := rfl

/-- The bank of a READY load is protected (R157). -/
def State.swapProtected (s : State) (r : LoadRecord) : Bool := isProtected s.cue.settings.protect r.bank.val

/-- The depth of the window that guards the bank of a READY load, with the guard on (R158). -/
def State.swapGuard (s : State) (r : LoadRecord) : Option Nat :=
  if s.cue.settings.guard then (s.wsk.stack.stepAll s.tgn.stamp).guardDepth r.bank else none

/-- The load is held over a boundary. -/
def Kbl.hold (k : Kbl) (r : LoadRecord) : Kbl :=
  { k with load := some { r with held := satSucc 65535 r.held, heldRep := true } }

/-- The shadow becomes its bank, whose old contents are kept where dots of the ended field are still to come. -/
def Kbl.swap (k : Kbl) (r : LoadRecord) (keep : Bool) : Kbl :=
  { k with
    banks := k.banks.set r.bank k.shadow, shadow := Bank.zero, loader := .idle, load := none
    replaced := if keep then some { bank := r.bank, contents := k.banks[r.bank] } else none }

theorem swapTest_of_not_ready {s : State} (h : s.kbl.loader ≠ .ready ∨ s.kbl.load = none) : swapTest s = s := by
  unfold swapTest
  split
  case h_1 r hready hload => simp [hready, hload] at h
  case h_2 => rfl

theorem swapTest_held {s : State} {r : LoadRecord} (hready : s.kbl.loader = .ready) (hload : s.kbl.load = some r)
    (h : (s.swapProtected r || (s.swapGuard r).isSome) = true) :
    swapTest s =
      if r.heldRep then { s with kbl := s.kbl.hold r }
      else produce (repSwapHeld r (s.swapProtected r) (s.swapGuard r) s.cue.settings.protect)
        { s with kbl := s.kbl.hold r } := by
  unfold swapTest
  split
  case h_1 r' _ hload' =>
    obtain rfl : r = r' := Option.some.inj (hload.symm.trans hload')
    exact if_pos h
  case h_2 hne => exact (hne r hready hload).elim

theorem swapTest_swaps {s : State} {r : LoadRecord} (hready : s.kbl.loader = .ready) (hload : s.kbl.load = some r)
    (h : (s.swapProtected r || (s.swapGuard r).isSome) = false) :
    swapTest s = produce (repSwapDone r) { s with kbl := s.kbl.swap r (!s.tgn.drives.isEmpty) } := by
  unfold swapTest
  split
  case h_1 r' _ hload' =>
    obtain rfl : r = r' := Option.some.inj (hload.symm.trans hload')
    refine (if_neg (ne_true_of_eq_false h)).trans ?_
    cases hempty : s.tgn.drives.isEmpty <;> rfl
  case h_2 hne => exact (hne r hready hload).elim

/-- The swap test looks through the steps not yet taken (R158). -/
theorem swapGuard_stepFades (s : State) (r : LoadRecord) : (stepFades s).swapGuard r = s.swapGuard r := by
  have hst : (stepFades s).wsk.stack.stepAll (stepFades s).tgn.stamp = s.wsk.stack.stepAll s.tgn.stamp :=
    Stack.stepAll_stepAll _ _
  unfold State.swapGuard
  rw [hst]
  rfl

theorem swapTest_stepFades (s : State) : swapTest (stepFades s) = stepFades (swapTest s) := by
  have hprot : ∀ r, (stepFades s).swapProtected r = s.swapProtected r := fun _ => rfl
  by_cases h : s.kbl.loader ≠ .ready ∨ s.kbl.load = none
  case pos => rw [swapTest_of_not_ready h, swapTest_of_not_ready (s := stepFades s) h]
  case neg =>
    push Not at h
    obtain ⟨hready, hload⟩ := h
    obtain ⟨r, hload⟩ := Option.ne_none_iff_exists'.1 hload
    cases hheld : s.swapProtected r || (s.swapGuard r).isSome with
    | true =>
      have hheld' : ((stepFades s).swapProtected r || ((stepFades s).swapGuard r).isSome) = true := by
        rw [hprot, swapGuard_stepFades, hheld]
      rw [swapTest_held hready hload hheld, swapTest_held (s := stepFades s) hready hload hheld',
        swapGuard_stepFades, hprot]
      split <;> rfl
    | false =>
      have hheld' : ((stepFades s).swapProtected r || ((stepFades s).swapGuard r).isSome) = false := by
        rw [hprot, swapGuard_stepFades, hheld]
      rw [swapTest_swaps hready hload hheld, swapTest_swaps (s := stepFades s) hready hload hheld']
      rfl

theorem atPlace_stepFades {α : Type} [DecidableEq α] (p h : α) {f : State → State}
    (hf : ∀ s, f (stepFades s) = stepFades (f s)) (s : State) :
    atPlace p h f (stepFades s) = stepFades (atPlace p h f s) := by
  unfold atPlace
  split
  · exact hf s
  · rfl

end Sys2Proof.Machine
end

section
/-!
PROOFS. The place of WSK's work among the works of a boundary cannot be seen (R139, assumption log 6), and fades
reach their targets (R138).
-/

namespace Sys2Proof.Machine

/-! ### A boundary with WSK's work at its end -/

/-- The order of works with WSK's steps behind the swap test. -/
def wskLast (o : WorkOrder) : WorkOrder := { o with wsk := .last }

theorem boundaryHead_wsk_first {o : WorkOrder} (h : o.wsk = .first) (e : Bool) (s : State) :
    boundaryHead o e s = stepFades (boundaryHead (wskLast o) e s) := by
  simp only [boundaryHead, wskLast, h]
  exact atPlace_stepFades _ _ nolockTest_stepFades _

theorem boundaryHead_wsk_later {o : WorkOrder} (h : o.wsk ≠ .first) (e : Bool) (s : State) :
    boundaryHead o e s = boundaryHead (wskLast o) e s := by
  simp only [boundaryHead]
  rw [show ∀ t, atPlace o.wsk .first stepFades t = t from fun t => if_neg h]
  rfl

/-- The cues leave the same behind WSK's steps as before them. -/
theorem boundaryCues_stepFades (o : WorkOrder) (s : State) :
    boundaryCues (wskLast o) (stepFades s) = (stepFades (boundaryCues (wskLast o) s).1, (boundaryCues (wskLast o) s).2) := by
  have hfal : ∀ t, (if o.falLate then falBoundary (stepFades t) else stepFades t) =
      stepFades (if o.falLate then falBoundary t else t) := fun t => by
    rw [falBoundary_stepFades]; split <;> rfl
  simp only [boundaryCues, engineBoundary_stepFades, wskLast, hfal]
  refine congrArg (·, _) ?_
  exact atPlace_stepFades _ _ nolockTest_stepFades _

theorem boundaryCues_wsk_middle {o : WorkOrder} (h : o.wsk = .middle) (s : State) :
    boundaryCues o s = (stepFades (boundaryCues (wskLast o) s).1, (boundaryCues (wskLast o) s).2) := by
  simp only [boundaryCues, wskLast, h]
  refine congrArg (·, _) ?_
  exact atPlace_stepFades _ _ nolockTest_stepFades _

theorem boundaryCues_wsk_other {o : WorkOrder} (h : o.wsk ≠ .middle) (s : State) :
    boundaryCues o s = boundaryCues (wskLast o) s := by
  simp only [boundaryCues]
  rw [show ∀ t, atPlace o.wsk .middle stepFades t = t from fun t => if_neg h]
  rfl

theorem swapAndStat_stat_first {o : WorkOrder} (h : o.stat = .first) (s : State) :
    swapAndStat o s =
      atPlace o.wsk .last stepFades (swapTest (atPlace o.tst .between nolockTest (fieldstat s))) :=
  if_pos h

theorem swapAndStat_stat_later {o : WorkOrder} (h : o.stat ≠ .first) (s : State) :
    swapAndStat o s = atPlace o.stat .middle fieldstat
      (atPlace o.tst .between nolockTest (atPlace o.wsk .last stepFades (swapTest s))) :=
  if_neg h

/-- The swap test and FIELDSTAT find the stack stepped or step it themselves, with the same result. -/
theorem swapAndStat_stepped {o : WorkOrder} (h : o.wsk ≠ .last) (s : State) :
    swapAndStat o (stepFades s) = swapAndStat (wskLast o) s := by
  have hnone : ∀ t, atPlace o.wsk .last stepFades t = t := fun t => if_neg h
  have hlast : ∀ t, atPlace (wskLast o).wsk .last stepFades t = stepFades t := fun t => if_pos rfl
  by_cases hst : o.stat = .first
  case pos =>
    rw [swapAndStat_stat_first hst, swapAndStat_stat_first (o := wskLast o) hst, hnone, hlast,
      fieldstat_stepFades, atPlace_stepFades _ _ nolockTest_stepFades, swapTest_stepFades]
    rfl
  case neg =>
    rw [swapAndStat_stat_later hst, swapAndStat_stat_later (o := wskLast o) hst, hnone, hlast,
      swapTest_stepFades]
    rfl

theorem boundaryTail_stepped {o : WorkOrder} (h : o.wsk ≠ .last) (n : Nat) (s : State) :
    boundaryTail o n (stepFades s) = boundaryTail (wskLast o) n s := by
  simp only [boundaryTail, swapAndStat_stepped h]
  rfl

/-- Wherever WSK's work stands, the boundary leaves the same as with it behind the swap test (R139). -/
theorem fieldBoundary_late (o : WorkOrder) (e : Bool) (s : State) :
    fieldBoundary o e s = fieldBoundary (wskLast o) e s := by
  simp only [fieldBoundary]
  cases h : o.wsk with
  | first =>
    rw [boundaryHead_wsk_first h, boundaryCues_wsk_other (by simp [h]), boundaryCues_stepFades,
      boundaryTail_stepped (by simp [h])]
  | middle =>
    rw [boundaryHead_wsk_later (by simp [h]), boundaryCues_wsk_middle h, boundaryTail_stepped (by simp [h])]
  | last =>
    rw [show o = (wskLast o) by rw [wskLast, ← h]]
    rfl

theorem fieldBoundary_wsk (o : WorkOrder) (p : Place) (e : Bool) (s : State) :
    fieldBoundary { o with wsk := p } e s = fieldBoundary o e s := by
  rw [fieldBoundary_late, fieldBoundary_late o]
  rfl

theorem lineEndWork_wsk (x : LineInputs) (p : Place) (s : State) :
    lineEndWork { x with order := { x.order with wsk := p } } s = lineEndWork x s := by
  have hgrid : gridStep { x with order := { x.order with wsk := p } } s = gridStep x s := rfl
  simp only [lineEndWork, hgrid, fieldBoundary_wsk]

/-! ### A boundary at which no cue runs -/

/-- The engine executes no copy at this boundary. -/
def State.NoCue (s : State) : Prop :=
  s.cue.engine ≠ .running ∨ s.cue.startup = true ∨ s.pins.hold = true ∨ (s.cue.due = [] ∧ s.cue.idle = none)

theorem waitTest_settings (w : WaitRecord) (s : State) : (waitTest w s).1.cue.settings = s.cue.settings := by
  unfold waitTest endWait retire writeTake advanceTake
  (repeat' split) <;> simp

/-- With no copy to execute the engine moves only its own state, the port and the report writer. -/
theorem engineBoundary_noCue {s : State} (h : s.NoCue) :
    (engineBoundary s).1.rfe = s.rfe ∧ (engineBoundary s).1.lll = s.lll ∧ (engineBoundary s).1.fal = s.fal ∧
    (engineBoundary s).1.tgn = s.tgn ∧ (engineBoundary s).1.wsk = s.wsk ∧ (engineBoundary s).1.kbl = s.kbl ∧
    (engineBoundary s).1.tst = s.tst ∧ (engineBoundary s).1.cue.settings = s.cue.settings := by
  unfold engineBoundary
  split
  case isTrue => simp
  case isFalse hstart =>
    split
    case h_1 | h_2 => simp
    case h_3 hrun =>
      unfold runningBoundary
      rcases h with h | h | h | ⟨hdue, hidle⟩
      · exact absurd hrun h
      · exact absurd h hstart
      · rw [if_pos (by simpa using h)]
        simp [clearDue, endScan]
      · split
        · simp [clearDue, endScan]
        · rw [hdue, hidle]
          simp [execDue, execIdle, clearDue, endScan]
    case h_4 =>
      split
      · simp
      · split <;> simp [waitTest_settings]
    case h_5 =>
      split
      · simp
      · split <;> simp [waitTest_settings]

/-! ### What a boundary finds and leaves of the stack -/

/-- HOLD and TALLY stand as sampled at the line end (R118, R161). -/
theorem gridStep_pins (x : LineInputs) (s : State) :
    (gridStep x s).s.pins = { hold := x.hold, tally := x.tally } := by
  simp [gridStep, lineInstant]

@[simp] theorem atPlace_wskLast (o : WorkOrder) (f : State → State) (s : State) :
    atPlace (wskLast o).wsk .first f s = s ∧ atPlace (wskLast o).wsk .middle f s = s ∧
    atPlace (wskLast o).wsk .last f s = f s :=
  ⟨if_neg nofun, if_neg nofun, if_pos rfl⟩

theorem boundaryHead_stack (o : WorkOrder) (e : Bool) (s : State) :
    (boundaryHead (wskLast o) e s).wsk.stack = s.wsk.stack := by
  simp only [boundaryHead, atPlace_wskLast, atPlace_nolockTest_frame]
  split <;> simp [keepEnded]

theorem boundaryHead_stamp (o : WorkOrder) (e : Bool) (s : State) :
    (boundaryHead o e s).tgn.stamp = s.tgn.stamp + 1 := by
  obtain ⟨n, h⟩ := boundaryHead_tgn o e s
  rw [h]

theorem boundaryCues_stamp (o : WorkOrder) (s : State) : (boundaryCues o s).1.tgn.stamp = s.tgn.stamp := by
  obtain ⟨n, a, b, h⟩ := boundaryCues_tgn o s
  rw [h]

theorem boundaryCues_wsk (o : WorkOrder) (s : State) :
    (boundaryCues (wskLast o) s).1.wsk = (engineBoundary s).1.wsk := by
  simp only [boundaryCues, atPlace_wskLast, atPlace_nolockTest_frame]
  split <;> simp

/-- The swap test and FIELDSTAT leave the stack, which WSK's work then steps. -/
theorem swapAndStat_wsk (o : WorkOrder) (s : State) :
    (swapAndStat (wskLast o) s).wsk = { s.wsk with stack := s.wsk.stack.stepAll s.tgn.stamp } := by
  have hswap : (stepFades (swapTest s)).wsk = { s.wsk with stack := s.wsk.stack.stepAll s.tgn.stamp } := by
    simp [stepFades]
  by_cases hst : o.stat = .first
  case pos =>
    rw [swapAndStat_stat_first (o := wskLast o) hst]
    simp [stepFades]
  case neg =>
    rw [swapAndStat_stat_later (o := wskLast o) hst]
    simp [hswap]

theorem boundaryTail_wsk (o : WorkOrder) (n : Nat) (s : State) :
    (boundaryTail (wskLast o) n s).wsk = { s.wsk with stack := s.wsk.stack.stepAll s.tgn.stamp } := by
  simp only [boundaryTail, atPlace_nolockTest_frame, atPlace_fieldstat_frame, statusCopy_frame,
    boundaryGet_frame, swapAndStat_wsk]

/-- The stack of the field that begins is the one the cues leave, with the boundary's steps taken (R139). -/
theorem fieldBoundary_stack (o : WorkOrder) (e : Bool) (s : State) :
    (fieldBoundary o e s).wsk.stack =
      (engineBoundary (boundaryHead (wskLast o) e s)).1.wsk.stack.stepAll (s.tgn.stamp + 1) := by
  rw [fieldBoundary_late, fieldBoundary, boundaryTail_wsk, boundaryCues_wsk, boundaryCues_stamp,
    boundaryHead_stamp]

/-- What a line end finds keeps the boundary's engine from executing a copy. -/
theorem noCue_boundaryHead {x : LineInputs} {s : State} (o : WorkOrder) (e : Bool)
    (h : s.cue.engine ≠ .running ∨ s.cue.startup = true ∨ x.hold = true ∨ (s.cue.due = [] ∧ s.cue.idle = none)) :
    (boundaryHead o e (gridStep x s).s).NoCue := by
  simpa only [State.NoCue, boundaryHead_frame, gridStep_frame, gridStep_pins] using h

/-- A boundary at which no cue runs steps every window, and does nothing else on the stack. -/
theorem lineEndWork_stack_noCue {x : LineInputs} {s : State} (hend : s.tgn.length ≤ s.tgn.line)
    (h : s.cue.engine ≠ .running ∨ s.cue.startup = true ∨ x.hold = true ∨ (s.cue.due = [] ∧ s.cue.idle = none)) :
    (lineEndWork x s).wsk.stack = s.wsk.stack.stepAll (s.tgn.stamp + 1) := by
  obtain ⟨-, -, -, -, hwsk, -⟩ := engineBoundary_noCue
    (noCue_boundaryHead (wskLast x.order) (gridStep x s).entered h)
  rw [lineEndWork_boundary hend]
  simp only [beginLine_frame, fieldBoundary_stack, hwsk, boundaryHead_stack, gridStep_frame]

/-! ### Fades (R138) -/

theorem Window.fadeStep_steps (w : Window) : w.fadeStep.steps = w.steps - 1 := by
  unfold Window.fadeStep
  split
  case isTrue h => simp [h]
  case isFalse => rfl

/-- A truncated quotient lies between 0 and the number divided. -/
theorem tdiv_between (d : Int) {m : Nat} (hm : 0 < m) : min d 0 ≤ d.tdiv m ∧ d.tdiv m ≤ max d 0 := by
  rcases Int.le_total 0 d with hd | hd
  · have hlo := Int.tdiv_nonneg hd (Int.natCast_nonneg m)
    have hhi := Int.tdiv_le_self (a := d) m hd
    omega
  · have hneg : d.tdiv m = -((-d).tdiv m) := by rw [Int.neg_tdiv, neg_neg]
    have hlo := Int.tdiv_nonneg (a := -d) (b := m) (by omega) (Int.natCast_nonneg m)
    have hhi := Int.tdiv_le_self (a := -d) m (by omega)
    omega

/-- A step's new fade, with the step that makes it never past the target. -/
theorem Window.fadeStep_fade {w : Window} (h : 0 < w.steps) :
    (w.fadeStep.fade : Int) = w.fade + ((w.target : Int) - w.fade).tdiv w.steps := by
  have hb := tdiv_between ((w.target : Int) - w.fade) h
  simp only [Window.fadeStep, if_neg (Nat.ne_of_gt h)]
  omega

theorem Window.fadeStep_between (w : Window) :
    min w.fade w.target ≤ w.fadeStep.fade ∧ w.fadeStep.fade ≤ max w.fade w.target := by
  rcases Nat.eq_zero_or_pos w.steps with h | h
  · simp only [Window.fadeStep, h, if_true]
    omega
  · have hb := tdiv_between ((w.target : Int) - w.fade) h
    have hf := Window.fadeStep_fade h
    omega

theorem Window.fadeStep_last {w : Window} (h : w.steps = 1) : w.fadeStep.fade = w.target := by
  have hf := Window.fadeStep_fade (w := w) (by omega)
  rw [h] at hf
  simp only [Nat.cast_one, Int.tdiv_one] at hf
  omega

/-- A step moves the fade and the steps remaining, and nothing else of the window. -/
theorem Window.fadeStep_eq (w : Window) :
    w.fadeStep = { w with fade := w.fadeStep.fade, steps := w.fadeStep.steps } := by
  unfold Window.fadeStep; split <;> rfl

/-- k steps of a fade: its steps remaining, its bounds, and what they leave alone. -/
theorem Window.fadeStep_iterate (w : Window) (k : Nat) :
    (Window.fadeStep^[k] w).steps = w.steps - k ∧
    min w.fade w.target ≤ (Window.fadeStep^[k] w).fade ∧
    (Window.fadeStep^[k] w).fade ≤ max w.fade w.target ∧
    Window.fadeStep^[k] w =
      { w with fade := (Window.fadeStep^[k] w).fade, steps := (Window.fadeStep^[k] w).steps } := by
  induction k with
  | zero => exact ⟨rfl, Nat.min_le_left _ _, Nat.le_max_left _ _, rfl⟩
  | succ k ih =>
    rw [Function.iterate_succ_apply']
    generalize Window.fadeStep^[k] w = v at ih
    obtain ⟨hsteps, hlo, hhi, hframe⟩ := ih
    have hb := v.fadeStep_between
    have htarget : v.target = w.target := by rw [hframe]
    refine ⟨by rw [Window.fadeStep_steps]; omega, by omega, by omega, ?_⟩
    exact v.fadeStep_eq.trans
      (congrArg (fun u : Window => { u with fade := v.fadeStep.fade, steps := v.fadeStep.steps }) hframe)

theorem Window.fadeStep_iterate_steps {w : Window} (h : 0 < w.steps) :
    (Window.fadeStep^[w.steps] w).fade = w.target := by
  obtain ⟨m, hm⟩ : ∃ m, w.steps = m + 1 := ⟨w.steps - 1, by omega⟩
  obtain ⟨hsteps, -, -, hframe⟩ := w.fadeStep_iterate m
  rw [hm, Function.iterate_succ_apply', Window.fadeStep_last (by rw [hsteps]; omega), hframe]

theorem Stack.stepAll_slots (st : Stack) (n : Stamp) (i : Fin 8) :
    (st.stepAll n).slots[i] = (st.slots[i]).update (Window.stepFor n) := by
  simp [Stack.stepAll]

/-- Settles O53. -/
theorem fadesReachTheirTargets : Obligations.FadesReachTheirTargets := by
  refine ⟨fun w n => ⟨?rest, fun h => ⟨?one, Window.fadeStep_fade h⟩, ?marked, ?unmarked, w.stepFor_stepFor n⟩,
    fun st n i => ⟨rfl, ?slots⟩, fun x s hend h => ⟨_, exec_lineEnd x s, lineEndWork_stack_noCue hend h⟩,
    fun w k h hk => ?fade, fun x p s => congrArg Host.Outcome.next (lineEndWork_wsk x p s)⟩
  case rest => intro h; simp [Window.fadeStep, h]
  case one => rw [← Window.fadeStep_steps]; exact w.fadeStep_eq
  case marked => intro h; simp [Window.stepFor, h]
  case unmarked => intro h; simp [Window.stepFor, h]
  case slots => rw [Stack.stepAll_slots]; cases st.slots[i] <;> rfl
  case fade =>
    obtain ⟨hsteps, hlo, hhi, hframe⟩ := w.fadeStep_iterate k
    exact ⟨hsteps, Window.fadeStep_iterate_steps h, hlo, hhi, hframe⟩

end Sys2Proof.Machine
end

section
/-!
PROOFS. The key banks: what each work leaves of them, and that only a swap of a boundary changes one (R150,
R157, R158).
-/

namespace Sys2Proof.Machine

/-! ### What the cue engine keeps at a boundary -/

/-- Of two states of the engine the second has the first's link, and the copies the first holds or none. -/
structure Cue.Leaves (c c' : Cue) : Prop where
  link   : c'.link = c.link
  copies : c'.due = c.due ∧ c'.idle = c.idle ∨ c'.due = [] ∧ c'.idle = none

theorem Cue.Leaves.due {c c' : Cue} (h : c.Leaves c') : c'.due = c.due ∨ c'.due = [] :=
  h.copies.imp And.left And.left

/-- A change that leaves the link and the copies alone. -/
theorem Cue.Leaves.same {c c' : Cue} (hlink : c'.link = c.link) (hdue : c'.due = c.due) (hidle : c'.idle = c.idle) :
    c.Leaves c' := ⟨hlink, .inl ⟨hdue, hidle⟩⟩

/-- A change that drops the copies. -/
theorem Cue.Leaves.none {c c' : Cue} (hlink : c'.link = c.link) (hdue : c'.due = []) (hidle : c'.idle = .none) :
    c.Leaves c' := ⟨hlink, .inr ⟨hdue, hidle⟩⟩

/-- A property of the state that reports and causes, the port and the engine's own state but for its settings
keep. -/
structure SharedKeeps (P : State → Prop) : Prop where
  produce : ∀ r s, P s → P (produce r s)
  latch   : ∀ c s, P s → P (latch c s)
  mpt     : ∀ m s, P s → P { s with mpt := m }
  cue     : ∀ c s, c.settings = s.cue.settings → s.cue.Leaves c → P s →
    P { s with cue := c }

/-- A property that the effect of each kind of cue whose fields pass their checks keeps as well. -/
structure EngineKeeps (P : State → Prop) : Prop extends SharedKeeps P where
  kind    : ∀ isIdle k c s, c.words.badField = none → cueKind c.words.kind = some k → P s →
    P (kindEffect isIdle k c s).1

namespace SharedKeeps

variable {P : State → Prop} {s : State}

theorem enterHalted (hP : SharedKeeps P) (w : HaltReason) (h : P s) : P (enterHalted w s) :=
  hP.mpt s.mpt.endScan _ (hP.cue
    { s.cue with
      engine := .halted, haltReason := some w, scan := none, due := [], idle := none, wait := none
      heldFrom := none } _ rfl (.none rfl rfl rfl) h)

theorem faultHalt (hP : SharedKeeps P) (k : FaultKind) (c : Copy) (h : P s) : P (faultHalt k c s) :=
  hP.produce _ _ (hP.latch _ _ (hP.enterHalted _ (hP.mpt { s.mpt with cueQ := [] } _ h)))

theorem postTake (hP : SharedKeeps P) (h : P s) : P (postTake s) := by
  unfold Machine.postTake
  split
  · exact hP.mpt _ _ h
  · exact hP.mpt _ _ h

theorem grant (hP : SharedKeeps P) (h : P s) : P (grant s) := by
  unfold Machine.grant
  split
  · exact h
  · split
    · exact hP.mpt _ _ h
    · exact h

theorem advanceTake (hP : SharedKeeps P) (h : P s) : P (advanceTake s) := by
  have hcue : P { s with cue := { s.cue with take := (s.cue.take + 1) % s.cue.qLen, deferral := none } } :=
    hP.cue _ _ rfl (.same rfl rfl rfl) h
  unfold Machine.advanceTake cueTriggerTest
  split
  · exact hP.latch _ _ hcue
  · exact hcue

theorem writeTake (hP : SharedKeeps P) (h : P s) : P (writeTake s) := hP.grant (hP.postTake h)

theorem retire (hP : SharedKeeps P) (isIdle : Bool) (h : P s) : P (retire isIdle s) := by
  unfold Machine.retire
  split
  · exact h
  · exact hP.writeTake (hP.advanceTake h)

theorem reportDone (hP : SharedKeeps P) (c : CueWords) (h : P s) : P (reportDone c s) := by
  unfold Machine.reportDone
  split
  · exact hP.produce _ _ h
  · exact h

/-- A check's response keeps the property, and so does the halt in its place. -/
theorem onFault (hP : SharedKeeps P) {k : FaultKind} {c : Copy} {f : State → CopyResult} (h : P s)
    (hf : P (f s).1) : P (onFault k c s f).1 := by
  unfold Machine.onFault
  split
  · exact hf
  · exact hP.faultHalt k c h

end SharedKeeps

namespace EngineKeeps

variable {P : State → Prop} {s : State}

theorem judgeCopy (hP : EngineKeeps P) (isIdle : Bool) (c : Copy) (h : P s) :
    P (judgeCopy isIdle c s).1 := by
  unfold Machine.judgeCopy
  split
  · exact hP.onFault h (hP.produce _ _ h)
  · exact hP.onFault h (hP.produce _ _ h)
  · rename_i hfield hkind
    split
    · refine hP.onFault h ?_
      split
      · exact hP.kind _ _ _ _ hfield hkind (hP.produce _ _ h)
      · exact hP.produce _ _ h
    · exact hP.kind _ _ _ _ hfield hkind h

theorem execCopy (hP : EngineKeeps P) (isIdle : Bool) (c : Copy) (h : P s) : P (execCopy isIdle c s).1 := by
  have hjudge := hP.judgeCopy isIdle c h
  unfold Machine.execCopy
  generalize Machine.judgeCopy isIdle c s = r at hjudge
  obtain ⟨t, out⟩ := r
  cases out with
  | performed => exact hP.reportDone _ (hP.retire _ hjudge)
  | skipped => exact hP.retire _ hjudge
  | halting => exact hP.produce _ _ (hP.latch _ _ (hP.enterHalted _ (hP.reportDone _ (hP.retire _ hjudge))))
  | retired | deferred | waiting | halted => exact hjudge

theorem execDue (hP : EngineKeeps P) (cs : List Copy) (h : P s) : P (execDue cs s).1 := by
  induction cs generalizing s with
  | nil => exact h
  | cons c cs ih =>
    have hcopy := hP.execCopy false c h
    unfold Machine.execDue
    generalize Machine.execCopy false c s = r at hcopy
    obtain ⟨t, n, go⟩ := r
    cases go with
    | true => exact ih hcopy
    | false => exact hcopy

theorem execIdle (hP : EngineKeeps P) (c : Option Copy) (h : P s) : P (execIdle c s).1 := by
  cases c with
  | none => exact h
  | some c => exact hP.execCopy true c h

theorem clearDue_endScan (hP : EngineKeeps P) (h : P s) : P (clearDue (endScan s)) := by
  have hend : P (Machine.endScan s) :=
    hP.mpt s.mpt.endScan _ (hP.cue { s.cue with scan := none } s rfl (.same rfl rfl rfl) h)
  exact hP.cue { (Machine.endScan s).cue with due := [], idle := none } _ rfl (.none rfl rfl rfl) hend

theorem runningBoundary (hP : EngineKeeps P) (h : P s) : P (runningBoundary s).1 := by
  have hclear := hP.clearDue_endScan h
  unfold Machine.runningBoundary
  dsimp only
  split
  · exact hP.cue _ _ rfl (.same rfl rfl rfl) hclear
  · split
    · exact hP.execIdle _ (hP.execDue _ hclear)
    · exact hP.execDue _ hclear

theorem endWait (hP : EngineKeeps P) (met : Bool) (w : WaitRecord) (h : P s) : P (endWait met w s) :=
  hP.reportDone _ (hP.retire _ (hP.produce _ _ (hP.cue { s.cue with wait := none, engine := .running } _ rfl
    (.same rfl rfl rfl) h)))

theorem waitTest (hP : EngineKeeps P) (w : WaitRecord) (h : P s) : P (waitTest w s).1 := by
  unfold Machine.waitTest
  split
  · exact hP.endWait _ _ h
  · split
    · exact hP.endWait _ _ h
    · exact hP.cue { s.cue with engine := .waiting, wait := some w } _ rfl (.same rfl rfl rfl) h

/-- What the works of the cue engine keep, its boundary work keeps. -/
theorem engineBoundary (hP : EngineKeeps P) (h : P s) : P (engineBoundary s).1 := by
  unfold Machine.engineBoundary
  split
  · exact h
  split
  · exact h
  · exact h
  · exact hP.runningBoundary h
  · split
    · exact h
    · split
      · exact hP.cue _ _ rfl (.same rfl rfl rfl) h
      · exact hP.waitTest _ h
  · split
    · exact h
    · have hfrom : P { s with cue := { s.cue with heldFrom := none } } := hP.cue _ _ rfl (.same rfl rfl rfl) h
      split
      · exact hP.waitTest _ hfrom
      · exact hP.cue { s.cue with heldFrom := none, engine := .running } s rfl (.same rfl rfl rfl) h

end EngineKeeps

/-! ### The cues and the key banks -/

/-- A property of the key banks that the opening of a load and its closing keep. -/
structure LoaderKeeps (P : Kbl → Prop) : Prop where
  opened : ∀ b st c so tag s, P s.kbl → P (openLoad b st c so tag s).kbl
  closed : ∀ s, P s.kbl → P (closeLoad s).kbl

namespace LoaderKeeps

variable {P : Kbl → Prop} {s : State}

theorem abortLoad (hP : LoaderKeeps P) (w : AbortReason) (h : P s.kbl) : P (abortLoad w s).kbl := by
  unfold Machine.abortLoad
  split
  · simpa using hP.closed s h
  · exact h

theorem abortLoading (hP : LoaderKeeps P) (w : AbortReason) (h : P s.kbl) : P (abortLoading w s).kbl := by
  unfold Machine.abortLoading
  split
  · exact hP.abortLoad w h
  · exact h

theorem linkFault (hP : LoaderKeeps P) (t : Word) (b : Bool) (n : Nat) (h : P s.kbl) :
    P (linkFault t b n s).kbl :=
  hP.abortLoading .link (s := produce _ (latch .link _)) h

theorem onFault (_hP : LoaderKeeps P) {k : FaultKind} {c : Copy} {f : State → CopyResult} (h : P s.kbl)
    (hf : P (f s).1.kbl) : P (onFault k c s f).1.kbl := by
  unfold Machine.onFault
  split
  · exact hf
  · exact h

theorem cueKeyload (hP : LoaderKeeps P) (isIdle : Bool) (c : Copy) (h : P s.kbl) :
    P (cueKeyload isIdle c s).1.kbl := by
  have busy : P (Machine.onFault .busy c s (deferLoad isIdle c)).1.kbl := hP.onFault h (by simpa using h)
  unfold Machine.cueKeyload
  dsimp only
  split
  · split
    · exact h
    · split
      · simpa using hP.closed s h
      · exact busy
  · split
    · exact hP.onFault h h
    · split
      · exact busy
      · exact hP.opened _ _ _ _ _ s h

theorem cueSettings (hP : LoaderKeeps P) (isIdle : Bool) (c : Copy) (h : P s.kbl) :
    P (cueSettings isIdle c s).1.kbl := by
  unfold Machine.cueSettings lockdownCheck
  split
  · exact hP.onFault h h
  · split
    · exact h
    · split
      · exact hP.linkFault _ _ _ h
      · dsimp only
        (repeat' split) <;> simpa using h

theorem kindEffect (hP : LoaderKeeps P) (isIdle : Bool) (k : CueKind) (c : Copy) (h : P s.kbl) :
    P (kindEffect isIdle k c s).1.kbl := by
  cases k with
  | keyload => exact hP.cueKeyload isIdle c h
  | settings => exact hP.cueSettings isIdle c h
  | _ => simpa [Machine.kindEffect] using h

/-- What loads opened and closed keep of the banks, the cue engine keeps. -/
theorem engine (hP : LoaderKeeps P) : EngineKeeps fun s => P s.kbl where
  kind isIdle k c _ _ _ h := hP.kindEffect isIdle k c h
  produce _ _ h := h
  latch _ _ h := h
  mpt _ _ h := h
  cue _ _ _ _ h := h

end LoaderKeeps

/-- The banks stay, and a load that is READY is the one that was. -/
def Kbl.Keeps (k k' : Kbl) : Prop :=
  k'.banks = k.banks ∧
  (k'.loader = .ready → k.loader = .ready ∧ k'.load = k.load ∧ k'.shadow = k.shadow)

theorem Kbl.keeps_refl (k : Kbl) : k.Keeps k := ⟨rfl, fun h => ⟨h, rfl, rfl⟩⟩

/-- A load opened or closed changes no bank, and makes none READY. -/
theorem Kbl.keeps_loader (k : Kbl) : LoaderKeeps k.Keeps where
  opened b st c so tag s h := ⟨by simpa [openLoad] using h.1, fun hr => by simp [openLoad] at hr⟩
  closed s h := ⟨h.1, nofun⟩

/-- The cue engine changes no bank, and makes no load READY. -/
theorem engineBoundary_keeps (s : State) : s.kbl.Keeps (engineBoundary s).1.kbl :=
  s.kbl.keeps_loader.engine.engineBoundary s.kbl.keeps_refl

/-! ### The boundary's swap (R157, R158) -/

/-- A stack that guards a bank at no depth has no on-air INDEX window naming it. -/
theorem Stack.not_guards_of_guardDepth {st : Stack} {b : Fin 4} (h : st.guardDepth b = none) (i : Fin 8) :
    (st.slot i).guards b = false := by
  simp only [Stack.guardDepth, Option.map_eq_none_iff, List.find?_eq_none] at h
  have hi : i ∈ depths := by revert i; decide
  simpa using h i hi

theorem Slot.guards_live_iff (b : Fin 4) (w : Window) :
    (Slot.live w).guards b = true ↔ 0 < w.fade ∧ w.mode = .index ∧ w.bank = b := by
  simp [Slot.guards]

/-- What the swap test does to the banks: nothing, or the swap of an unguarded and unprotected READY load. -/
theorem swapTest_banks (s : State) (b : Fin 4) :
    (swapTest s).kbl.banks[b] = s.kbl.banks[b] ∨
    (s.kbl.loader = .ready ∧ ∃ r, s.kbl.load = some r ∧ r.bank = b ∧
      s.swapProtected r = false ∧ s.swapGuard r = none ∧
      (swapTest s).kbl = s.kbl.swap r (!s.tgn.drives.isEmpty)) := by
  by_cases h : s.kbl.loader ≠ .ready ∨ s.kbl.load = none
  case pos => exact .inl (by rw [swapTest_of_not_ready h])
  case neg =>
    push Not at h
    obtain ⟨hready, hload⟩ := h
    obtain ⟨r, hload⟩ := Option.ne_none_iff_exists'.1 hload
    cases hheld : s.swapProtected r || (s.swapGuard r).isSome with
    | true =>
      refine .inl ?_
      rw [swapTest_held hready hload hheld]
      split <;> simp [Kbl.hold]
    | false =>
      have hswap : (swapTest s).kbl = s.kbl.swap r (!s.tgn.drives.isEmpty) := by
        rw [swapTest_swaps hready hload hheld]; simp
      obtain ⟨hprot, hguard⟩ := Bool.or_eq_false_iff.1 hheld
      by_cases hb : r.bank = b
      case pos => exact .inr ⟨hready, r, hload, hb, hprot, by simpa using hguard, hswap⟩
      case neg =>
        refine .inl ?_
        rw [hswap]
        have hne : r.bank.val ≠ b.val := fun e => hb (Fin.ext e)
        simp [Kbl.swap, hne]

/-- What the swap test does at the key banks depends on the banks, the stack, the stamp with the drives, and
the settings alone. -/
theorem swapTest_kbl_congr {s t : State} (hkbl : t.kbl = s.kbl) (hwsk : t.wsk = s.wsk) (htgn : t.tgn = s.tgn)
    (hcue : t.cue = s.cue) : (swapTest t).kbl = (swapTest s).kbl := by
  simp only [swapTest, hkbl, hwsk, htgn, hcue]
  (repeat' split) <;> simp [hkbl]

/-- The swap test's place among the works behind the cues changes nothing of what it leaves. -/
theorem swapAndStat_kbl (o : WorkOrder) (s : State) :
    (swapAndStat (wskLast o) s).kbl = (swapTest s).kbl := by
  by_cases hst : o.stat = .first
  case pos =>
    rw [swapAndStat_stat_first (o := wskLast o) hst]
    simp only [atPlace_wskLast, stepFades_frame]
    exact swapTest_kbl_congr (by simp) (by simp) (by simp) (by simp)
  case neg =>
    rw [swapAndStat_stat_later (o := wskLast o) hst]
    simp

theorem boundaryTail_kbl (o : WorkOrder) (n : Nat) (s : State) :
    (boundaryTail (wskLast o) n s).kbl = (swapTest s).kbl := by
  simp only [boundaryTail, atPlace_nolockTest_frame, atPlace_fieldstat_frame, statusCopy_frame,
    boundaryGet_frame, swapAndStat_kbl]

theorem boundaryCues_kbl (o : WorkOrder) (s : State) :
    (boundaryCues (wskLast o) s).1.kbl = (engineBoundary s).1.kbl := by
  simp only [boundaryCues, atPlace_wskLast, atPlace_nolockTest_frame]
  split <;> simp

theorem boundaryHead_kbl (o : WorkOrder) (e : Bool) (s : State) :
    (boundaryHead (wskLast o) e s).kbl = { s.kbl with replaced := none } := by
  simp only [boundaryHead, atPlace_wskLast, atPlace_nolockTest_frame]
  split <;> simp [keepEnded]

/-- What a boundary may do to a bank: nothing, or a swap that finds a READY load, not protected and not
guarded by the stack it leaves. -/
def BankRule (b : Fin 4) (s t : State) : Prop :=
  t.kbl.banks[b] = s.kbl.banks[b] ∨
  (s.kbl.loader = .ready ∧ (∃ r, s.kbl.load = some r ∧ r.bank = b) ∧ t.kbl.banks[b] = s.kbl.shadow ∧
    b.val + t.cue.settings.protect < 4 ∧
    (t.cue.settings.guard = true → ∀ i w, t.wsk.stack.slot i = .live w → 0 < w.fade →
      w.mode = .index → w.bank ≠ b) ∧
    t.kbl.loader = .idle ∧ t.kbl.load = none)

theorem fieldBoundary_bankRule (o : WorkOrder) (e : Bool) (b : Fin 4) (s : State) :
    BankRule b s (fieldBoundary o e s) := by
  rw [fieldBoundary_late]
  let head := boundaryHead (wskLast o) e s
  let u := (boundaryCues (wskLast o) head).1
  let n := (boundaryCues (wskLast o) head).2
  show BankRule b s (boundaryTail (wskLast o) n u)
  have hkeeps : s.kbl.Keeps u.kbl := by
    have h := engineBoundary_keeps head
    rw [show head.kbl = _ from boundaryHead_kbl o e s, ← boundaryCues_kbl o head] at h
    exact h
  obtain ⟨hbanks, hready⟩ := hkeeps
  have hcue : (boundaryTail (wskLast o) n u).cue = u.cue := by simp
  have hwsk := boundaryTail_wsk o n u
  unfold BankRule
  rw [boundaryTail_kbl, hcue, hwsk]
  rcases swapTest_banks u b with h | ⟨hu, r, hload, rfl, hprot, hguard, hswap⟩
  · exact .inl (by rw [h, hbanks])
  · obtain ⟨hloader, hsame, hshadow⟩ := hready hu
    refine .inr ⟨hloader, ⟨r, hsame ▸ hload, rfl⟩, ?_, ?_, fun hon i w hi hfade hmode hbank => ?_, ?_, ?_⟩
    · rw [hswap]; simp [Kbl.swap, hshadow]
    · simpa [State.swapProtected, isProtected] using hprot
    · rw [State.swapGuard, if_pos hon] at hguard
      have hno := Stack.not_guards_of_guardDepth hguard i
      rw [hi] at hno
      exact absurd ((Slot.guards_live_iff _ _).2 ⟨hfade, hmode, hbank⟩) (by simp [hno])
    · rw [hswap]; rfl
    · rw [hswap]; rfl

/-! ### The commands -/

theorem lineEndWork_bankRule (x : LineInputs) (b : Fin 4) (s : State) :
    (lineEndWork x s).kbl.banks[b] = s.kbl.banks[b] ∨
    (s.tgn.length ≤ s.tgn.line ∧ BankRule b s (lineEndWork x s)) := by
  rcases Nat.lt_or_ge s.tgn.line s.tgn.length with h | h
  · exact .inl (by rw [lineEndWork_inField h]; simp)
  · refine .inr ⟨h, ?_⟩
    have hrule := fieldBoundary_bankRule x.order (gridStep x s).entered b (gridStep x s).s
    rw [lineEndWork_boundary h]
    simpa only [BankRule, beginLine_frame, gridStep_frame] using hrule

/-- What a command may do to a bank. -/
def BankStep (b : Fin 4) (s t : State) : Prop :=
  t.kbl.banks[b] = s.kbl.banks[b] ∨ (s.tgn.length ≤ s.tgn.line ∧ BankRule b s t)

theorem ite_lineEndWork_bankStep (p : Prop) [Decidable p] (x : LineInputs) (b : Fin 4) (s : State) :
    BankStep b s (if p then lineEndWork x s else s) := by
  split
  · exact lineEndWork_bankRule x b s
  · exact .inl rfl

theorem portOne_banks {f : State → State} (hf : ∀ s, (f s).kbl.banks = s.kbl.banks) (a b : Bool) (s : State) :
    (portOne f a b s).kbl.banks = s.kbl.banks := by
  unfold portOne
  split <;> simp [hf]

theorem runFunction_kbl (s : State) : (runFunction s).kbl = s.kbl := by
  unfold runFunction; split <;> simp

theorem continueFunction_kbl (s : State) : (continueFunction s).kbl = s.kbl := by
  unfold continueFunction; split <;> simp

theorem stopFunction_banks (s : State) : (stopFunction s).kbl.banks = s.kbl.banks := by
  unfold stopFunction
  split
  · rfl
  · rw [((Kbl.keeps_loader _).abortLoad _ (Kbl.keeps_refl _)).1]; simp

theorem keyWordRead_banks (w : Word) (s : State) : (keyWordRead w s).kbl.banks = s.kbl.banks := by
  unfold keyWordRead
  split
  · rfl
  · dsimp only
    split <;> simp [Kbl.takeWord]

theorem memoryFault_banks (q : Request) (t : Tick) (n : Nat) (r : Bool) (b : BusTraffic) (s : State) :
    (memoryFault q t n r b s).kbl.banks = s.kbl.banks := by
  unfold memoryFault
  rw [((Kbl.keeps_loader _).abortLoading _ (Kbl.keeps_refl _)).1]
  simp

theorem startupLoaded_banks (l : Nat) (ws : List Word) (s : State) :
    (startupLoaded l ws s).kbl.banks = s.kbl.banks := by
  unfold startupLoaded
  dsimp only
  split
  · rw [((Kbl.keeps_loader _).linkFault _ _ _ (Kbl.keeps_refl _)).1]
  · simp

/-- The commands that are no line end and no POWER_ON. -/
def Instr.leavesBanks : Instr → Bool
  | .powerOn _ | .lineEnd _ | .flywheelLimit _ | .missedFields _ | .scanPoint _ | .fieldBoundary _
  | .holdoverExpiry _ | .testNolock _ | .waitendExpired _ => false
  | _ => true

theorem nextState_banks_of_leavesBanks {c : Instr} (h : Instr.leavesBanks c = true) (s : State) :
    (nextState c s).kbl.banks = s.kbl.banks := by
  cases c with
  | run a b => exact portOne_banks (fun s => by rw [runFunction_kbl]) a b s
  | stop a b => exact portOne_banks stopFunction_banks a b s
  | continueRun a b => exact portOne_banks (fun s => by rw [continueFunction_kbl]) a b s
  | softReset a b n => exact portOne_banks (f := softResetFunction n) (fun _ => rfl) _ _ s
  | noneFunction => exact portOne_banks (fun _ => rfl) _ _ s
  | start => exact portOne_banks (fun _ => rfl) _ _ s
  | clear => exact portOne_banks (fun _ => rfl) _ _ s
  | powerOn | lineEnd | flywheelLimit | missedFields | scanPoint | fieldBoundary | holdoverExpiry
  | testNolock | waitendExpired => cases h
  | linkAddressRead | causePortRead | ignoredPortWrite => rfl
  | linkAddressWrite | strapDone =>
    simp only [nextState, exec, execLinkAddressWrite, execStrapDone]; split <;> rfl
  | classifierArmed | leadingEdge | pulseOverrun | slicerUpdate | pulseClassification =>
    simp only [nextState, exec, execClassifierArmed, execLeadingEdge, execPulseOverrun, execSlicerUpdate,
      execPulseClassification]
    (repeat' split) <;> simp
  | windowEnd => rw [nextState_windowEnd]; simp
  | captureAbandon | tstLineArrival | tstBroadArrival =>
    simp only [nextState, exec, execCaptureAbandon, execTstLineArrival, execTstBroadArrival]
    (repeat' split) <;> simp
  | dotEdge =>
    simp only [nextState, exec, execDotEdge, dotEdge, dropEnded]
    (repeat' split) <;> simp
  | requestGrant | recordWrite => simp [nextState, exec, execRequestGrant, execRecordWrite]
  | memoryFault | startupLoadComplete | fillReadComplete | cueRecordRead | idleCueRead
  | takeWriteComplete | keySourceWordRead | reportWriteComplete | getReadComplete
  | lonePutWriteComplete | statusWordWriteComplete =>
    simp only [nextState, exec, execMemoryFault, execStartupLoadComplete, execFillReadComplete,
      execCueRecordRead, execIdleCueRead, execTakeWriteComplete, execKeySourceWordRead,
      execReportWriteComplete, execGetReadComplete, execLonePutWriteComplete, execStatusWordWriteComplete]
    (repeat' split) <;> simp [memoryFault_banks, startupLoaded_banks, keyWordRead_banks]

/-- Every command but POWER_ON goes by R150 at the banks. -/
theorem nextState_bankStep (c : Instr) (hc : ∀ straps, c ≠ .powerOn straps) (b : Fin 4) (s : State) :
    BankStep b s (nextState c s) := by
  cases c with
  | powerOn straps => exact absurd rfl (hc straps)
  | lineEnd x => exact lineEndWork_bankRule x b s
  | flywheelLimit x | missedFields x | scanPoint x | fieldBoundary x | holdoverExpiry x | testNolock x
  | waitendExpired x => exact ite_lineEndWork_bankStep _ x b s
  | _ => exact .inl (by rw [nextState_banks_of_leavesBanks rfl])

/-- Settles O55. -/
theorem banksChangeOnlyBySwaps : Obligations.BanksChangeOnlyBySwaps := by
  intro c s t b h
  obtain rfl := nextState_of_exec h
  by_cases hc : ∃ straps, c = .powerOn straps
  · exact .inr (.inl hc)
  · push Not at hc
    rcases nextState_bankStep c hc b s with hsame | ⟨hend, hsame | ⟨hready, hload, hbank, hrest⟩⟩
    · exact .inl hsame
    · exact .inl hsame
    · exact .inr (.inr ⟨hend, hready, hload, hbank, hrest⟩)

end Sys2Proof.Machine
end

section
/-!
PROOFS. Main memory stays canonical, and every key level within 0..64: the windows' fades, the bank entries and
the level on KEY (R127, R138, R145, R150).
-/

namespace Sys2Proof.Machine

/-! ### Main memory -/

/-- The commands that move no word over the bus. -/
def Instr.leavesMem : Instr → Bool
  | .softReset _ _ _ | .memoryFault _ _ _ _ | .startupLoadComplete _ | .fillReadComplete _ | .cueRecordRead _
  | .idleCueRead _ | .takeWriteComplete _ | .keySourceWordRead _ | .reportWriteComplete _ | .getReadComplete _
  | .lonePutWriteComplete _ | .statusWordWriteComplete _ => false
  | _ => true

theorem portOne_mem {f : State → State} (hf : ∀ s, (f s).mem = s.mem) (a b : Bool) (s : State) :
    (portOne f a b s).mem = s.mem := by
  unfold portOne
  split <;> simp [hf]

theorem runFunction_mem (s : State) : (runFunction s).mem = s.mem := by
  unfold runFunction; split <;> simp

theorem stopFunction_mem (s : State) : (stopFunction s).mem = s.mem := by
  unfold stopFunction; split <;> simp

theorem continueFunction_mem (s : State) : (continueFunction s).mem = s.mem := by
  unfold continueFunction; split <;> simp

theorem ite_lineEndWork_mem (p : Prop) [Decidable p] (x : LineInputs) (s : State) :
    (if p then lineEndWork x s else s).mem = s.mem := by
  split <;> simp

theorem nextState_mem_of_leavesMem {c : Instr} (h : Instr.leavesMem c = true) (s : State) :
    (nextState c s).mem = s.mem := by
  cases c with
  | run a b => exact portOne_mem runFunction_mem a b s
  | stop a b => exact portOne_mem stopFunction_mem a b s
  | continueRun a b => exact portOne_mem continueFunction_mem a b s
  | noneFunction => exact portOne_mem (fun _ => rfl) _ _ s
  | start => exact portOne_mem (fun _ => rfl) _ _ s
  | clear => exact portOne_mem (fun _ => rfl) _ _ s
  | softReset | memoryFault | startupLoadComplete | fillReadComplete | cueRecordRead | idleCueRead
  | takeWriteComplete | keySourceWordRead | reportWriteComplete | getReadComplete | lonePutWriteComplete
  | statusWordWriteComplete => cases h
  | powerOn | linkAddressRead | causePortRead | ignoredPortWrite => rfl
  | linkAddressWrite | strapDone =>
    simp only [nextState, exec, execLinkAddressWrite, execStrapDone]; split <;> rfl
  | classifierArmed | leadingEdge | pulseOverrun | slicerUpdate | pulseClassification =>
    simp only [nextState, exec, execClassifierArmed, execLeadingEdge, execPulseOverrun, execSlicerUpdate,
      execPulseClassification]
    (repeat' split) <;> simp
  | windowEnd => rw [nextState_windowEnd]; simp
  | captureAbandon | tstLineArrival | tstBroadArrival =>
    simp only [nextState, exec, execCaptureAbandon, execTstLineArrival, execTstBroadArrival]
    (repeat' split) <;> simp
  | dotEdge => simp only [nextState, exec, execDotEdge]; split <;> simp
  | requestGrant | recordWrite => simp [nextState, exec, execRequestGrant, execRecordWrite]
  | lineEnd x => exact (lineEndWork_frame x s).1
  | flywheelLimit x | missedFields x | scanPoint x | fieldBoundary x | holdoverExpiry x | testNolock x
  | waitendExpired x => exact ite_lineEndWork_mem _ x s

theorem serveRead_wf {s : State} (h : s.mem.wf) (q : Request) (b : BusTraffic) : (serveRead q b s).1.mem.wf :=
  Memory.wf_readRun h _ _

theorem serveWrite_wf {s : State} (h : s.mem.wf) (q : Request) (b : BusTraffic) : (serveWrite q b s).mem.wf :=
  Memory.wf_writeRun h _ _

theorem memoryFault_wf {s : State} (h : s.mem.wf) (q : Request) (t : Tick) (n : Nat) (r : Bool) (b : BusTraffic) :
    (memoryFault q t n r b s).mem.wf := by
  unfold memoryFault
  simpa using Memory.wf_writeRun h _ _

/-- Every command keeps main memory canonical (assumption log 7). -/
theorem nextState_wf {s : State} (c : Instr) (h : s.mem.wf) : (nextState c s).mem.wf := by
  cases c with
  | softReset a b n =>
    show (portOne (softResetFunction n) false false s).mem.wf
    unfold portOne
    split
    · simpa [softResetFunction] using Memory.wf_writeWords h _
    · exact h
  | memoryFault =>
    simp only [nextState, exec, execMemoryFault]
    split
    · split
      · exact memoryFault_wf h _ _ _ _ _
      · exact h
    · exact h
  | takeWriteComplete | reportWriteComplete | lonePutWriteComplete | statusWordWriteComplete =>
    simp only [nextState, exec, execTakeWriteComplete, execReportWriteComplete, execLonePutWriteComplete,
      execStatusWordWriteComplete]
    split
    · simpa using serveWrite_wf h _ _
    · exact h
  | startupLoadComplete | fillReadComplete | idleCueRead | keySourceWordRead =>
    simp only [nextState, exec, execStartupLoadComplete, execFillReadComplete, execIdleCueRead,
      execKeySourceWordRead]
    split
    · split <;> simpa using serveRead_wf h _ _
    · exact h
  | getReadComplete =>
    simp only [nextState, exec, execGetReadComplete]
    split
    · simpa using serveRead_wf h _ _
    · exact h
  | cueRecordRead =>
    simp only [nextState, exec, execCueRecordRead]
    split
    · (repeat' split) <;> simpa using serveRead_wf h _ _
    · exact h
  | _ => rw [nextState_mem_of_leavesMem rfl]; exact h

/-! ### Windows and stacks -/

theorem Window.fadeStep_ok {w : Window} (h : w.Ok) : w.fadeStep.Ok := by
  obtain ⟨hfade, htarget, hsteps, hdone⟩ := h
  have hbetween := w.fadeStep_between
  refine ⟨by omega, by simpa using htarget, by rw [Window.fadeStep_steps]; omega, fun hlast => ?_⟩
  rw [Window.fadeStep_steps] at hlast
  rw [(Window.fadeStep_frame w).2.2.2.2.2.2.1]
  rcases Nat.eq_zero_or_pos w.steps with hz | hpos
  · rw [show w.fadeStep = w by simp [Window.fadeStep, hz]]; exact hdone hz
  · exact Window.fadeStep_last (by omega)

theorem Window.stepFor_ok {w : Window} (g : Stamp) (h : w.Ok) : (w.stepFor g).Ok := by
  unfold Window.stepFor
  split
  · exact h
  · exact Window.fadeStep_ok h

theorem Window.edit_ok {w : Window} (g : Stamp) (f : EditField) (v : Nat) (h : w.Ok) : (w.edit g f v).Ok := by
  obtain ⟨hfade, -⟩ := Window.stepFor_ok g h
  have hstore : ((w.stepFor g).store f v).fade = (w.stepFor g).fade := by cases f <;> rfl
  rw [← hstore] at hfade
  exact ⟨hfade, hfade, Nat.zero_le _, fun _ => rfl⟩

theorem Window.startFade_ok {w : Window} {target steps : Nat} (g : Stamp) (ht : target ≤ 64)
    (hs : 1 ≤ steps ∧ steps ≤ 1023) (h : w.Ok) : (w.startFade g target steps).Ok := by
  obtain ⟨hfade, -⟩ := Window.stepFor_ok g h
  simp only [Window.startFade, Window.Ok]
  omega

theorem Slot.update_ok {f : Window → Window} (hf : ∀ w, Window.Ok w → (f w).Ok) {x : Slot}
    (h : ∀ w, x.window = some w → w.Ok) : ∀ w, (x.update f).window = some w → w.Ok := by
  intro w hw
  rw [Slot.window_update, Option.map_eq_some_iff] at hw
  obtain ⟨v, hv, rfl⟩ := hw
  exact hf v (h v hv)

/-- A stack's windows, by their depths. -/
theorem Stack.ok_iff {st : Stack} : st.Ok ↔ ∀ i w, (st.slot i).window = some w → w.Ok := by
  refine ⟨fun h i w hw => h (st.top + i) w hw, fun h i w hw => h (i - st.top) w ?_⟩
  rw [← Stack.slots_eq_slot]
  exact hw

theorem Stack.stepAll_ok {st : Stack} (g : Stamp) (h : st.Ok) : (st.stepAll g).Ok := by
  rw [Stack.ok_iff] at h ⊢
  intro i
  rw [Stack.stepAll_slot]
  exact Slot.update_ok (fun w => Window.stepFor_ok g) (h i)

theorem Stack.put_ok {st : Stack} {x : Slot} (i : Fin 8) (h : st.Ok) (hx : ∀ w, x.window = some w → w.Ok) :
    (st.put i x).Ok := by
  rw [Stack.ok_iff] at h ⊢
  intro j
  rw [Stack.slot_put]
  split
  · exact hx
  · exact h j

theorem Stack.push_ok {st : Stack} {w : Window} (live : Bool) (h : st.Ok) (hw : w.Ok) : (st.push w live).Ok := by
  intro i v hv
  simp only [Stack.push, Fin.getElem_fin, Vector.getElem_set] at hv
  split at hv
  · cases live <;> cases hv <;> exact hw
  · exact h i v hv

theorem Stack.pop_ok {st : Stack} (h : st.Ok) : st.pop.Ok := by
  intro i v hv
  simp only [Stack.pop, Fin.getElem_fin, Vector.getElem_set] at hv
  split at hv
  · cases hv
  · exact h i v hv

theorem Stack.slot_ok {st : Stack} (h : st.Ok) (i : Fin 8) : ∀ w, (st.slot i).window = some w → w.Ok :=
  Stack.ok_iff.1 h i

theorem Stack.exch_ok {st : Stack} (i : Fin 8) (h : st.Ok) : (st.exch i).Ok :=
  Stack.put_ok i (Stack.put_ok 0 h (Stack.slot_ok h i)) (Stack.slot_ok h 0)

theorem Stack.drop_ok {st : Stack} (i : Fin 8) (h : st.Ok) : (st.drop i).Ok :=
  Stack.put_ok i h nofun

theorem Stack.show_ok {st : Stack} (i : Fin 8) (h : st.Ok) : (st.show_ i).Ok := by
  unfold Stack.show_
  split
  case h_1 w hw => exact Stack.put_ok i h fun v hv => by cases hv; exact Stack.slot_ok h i _ hw
  case h_2 => exact h

theorem Stack.park_ok {st : Stack} (i : Fin 8) (h : st.Ok) : (st.park i).Ok := by
  unfold Stack.park
  split
  case h_1 w hw => exact Stack.put_ok i h fun v hv => by cases hv; exact Stack.slot_ok h i _ hw
  case h_2 => exact h

theorem Stack.onWindow_ok {st : Stack} {f : Window → Window} (i : Fin 8) (h : st.Ok)
    (hf : ∀ w, Window.Ok w → (f w).Ok) : (st.onWindow i f).Ok :=
  Stack.put_ok i h (Slot.update_ok hf (Stack.slot_ok h i))

theorem Stack.empty_ok : (⟨Vector.replicate 8 .empty, 0⟩ : Stack).Ok := by
  intro i w hw
  simp [Slot.window] at hw

/-! ### The window cues -/

/-- A cue that passes its field checks has every operand field in its encoding (R180). -/
theorem CueWords.field_ok {c : CueWords} {k : CueKind} (h : c.badField = none) (hk : cueKind c.kind = some k) :
    ∀ f ∈ c.fields k, f.ok = true := by
  intro f hf
  simp only [CueWords.badField, hk, Option.map_eq_none_iff, List.find?_eq_none] at h
  simpa using h f hf

theorem onFault_wsk {P : Wsk → Prop} {k : FaultKind} {c : Copy} {s : State} {f : State → CopyResult}
    (h : P s.wsk) (hf : P (f s).1.wsk) : P (onFault k c s f).1.wsk := by
  unfold onFault
  split
  · exact hf
  · simpa using h

theorem stackUnder_wsk {P : Wsk → Prop} {c : Copy} {i : Fin 8} {s : State} {f : State → CopyResult}
    (h : P s.wsk) (hf : P (f s).1.wsk) : P (stackUnder c i s f).1.wsk := by
  unfold stackUnder
  dsimp only
  split
  · exact onFault_wsk h h
  · exact hf

theorem rangeCheck_wsk {P : Wsk → Prop} {c : Copy} {d : Nat} {fs : List GeoField} {s : State}
    {f : State → CopyResult} (h : P s.wsk) (hf : ∀ t, t.wsk = s.wsk → P (f t).1.wsk) :
    P (rangeCheck c d fs s f).1.wsk := by
  unfold rangeCheck
  split
  · exact hf s rfl
  · exact onFault_wsk h (hf _ (by simp))

/-- The stack in force and the one kept for the ended field's last dots. -/
structure Wsk.Ok (w : Wsk) : Prop where
  stack : w.stack.Ok
  prev  : ∀ st, w.prev = some st → st.Ok

theorem Wsk.Ok.withStack {s : State} {st : Stack} (h : s.wsk.Ok) (hst : st.Ok) :
    (Machine.withStack s st).wsk.Ok := ⟨hst, h.prev⟩

/-- PUSH brings in a fade within its encoding, and no step to take (R130, R131). -/
theorem cuePush_wskOk {c : Copy} {s : State} (h : s.wsk.Ok) (hfade : bits c.words.w5 9 7 ≤ 64) :
    (cuePush c s).1.wsk.Ok := by
  unfold cuePush
  dsimp only
  split
  · exact onFault_wsk h h
  · refine rangeCheck_wsk h fun t ht => ?_
    have ht' : t.wsk.Ok := ht ▸ h
    exact ht'.withStack (Stack.push_ok _ ht'.stack ⟨hfade, hfade, by simp, fun _ => rfl⟩)

theorem cueEdit_wskOk {c : Copy} {s : State} (h : s.wsk.Ok) : (cueEdit c s).1.wsk.Ok := by
  unfold cueEdit
  dsimp only
  split
  · exact h
  · refine stackUnder_wsk h (rangeCheck_wsk h fun t ht => ?_)
    have ht' : t.wsk.Ok := ht ▸ h
    exact ht'.withStack (Stack.onWindow_ok _ ht'.stack fun w => Window.edit_ok _ _ _)

theorem cueExch_wskOk {c : Copy} {s : State} (h : s.wsk.Ok) : (cueExch c s).1.wsk.Ok := by
  have hgo := h.withStack (Stack.exch_ok c.words.slotDepth h.stack)
  unfold cueExch
  dsimp only
  split
  · exact stackUnder_wsk h hgo
  · exact hgo

/-- A cue whose fields pass their checks keeps the windows in their ranges. -/
theorem kindEffect_wskOk {isIdle : Bool} {k : CueKind} {c : Copy} {s : State} (hbad : c.words.badField = none)
    (hk : cueKind c.words.kind = some k) (h : s.wsk.Ok) : (kindEffect isIdle k c s).1.wsk.Ok := by
  have hfields := CueWords.field_ok hbad hk
  cases k with
  | push =>
    simp only [CueWords.fields, opField, List.mem_cons, List.not_mem_nil, or_false, forall_eq_or_imp,
      forall_eq, decide_eq_true_eq] at hfields
    exact cuePush_wskOk h hfields.2
  | pop => exact stackUnder_wsk h (h.withStack (Stack.pop_ok h.stack))
  | exch => exact cueExch_wskOk h
  | drop => exact stackUnder_wsk h (h.withStack (Stack.drop_ok _ h.stack))
  | show_ => exact stackUnder_wsk h (h.withStack (Stack.show_ok _ h.stack))
  | park => exact stackUnder_wsk h (h.withStack (Stack.park_ok _ h.stack))
  | edit => exact cueEdit_wskOk h
  | fade =>
    simp only [CueWords.fields, opField, List.mem_cons, List.not_mem_nil, or_false, forall_eq_or_imp,
      forall_eq, decide_eq_true_eq] at hfields
    obtain ⟨-, htarget, hsteps⟩ := hfields
    exact stackUnder_wsk h (h.withStack (Stack.onWindow_ok _ h.stack fun w => Window.startFade_ok _ htarget hsteps))
  | _ => simpa [kindEffect] using h

/-! ### The key banks -/

structure Kbl.Ok (k : Kbl) : Prop where
  banks    : ∀ b : Fin 4, Bank.Ok (k.banks[b])
  shadow   : Bank.Ok k.shadow
  replaced : ∀ r, k.replaced = some r → Bank.Ok r.contents

theorem Bank.zero_ok : Bank.Ok Bank.zero := by
  intro i
  simp [Bank.zero]

theorem storeEntry_ok {b : Bank} (start j v : Nat) (h : b.Ok) : (storeEntry b start j v).Ok := by
  intro i
  simp only [storeEntry, Fin.getElem_fin, Vector.getElem_set]
  split
  · exact Nat.min_le_right _ _
  · exact h i

theorem Kbl.takeWord_ok {k : Kbl} (r : LoadRecord) (w : Word) (h : k.Ok) : (k.takeWord r w).Ok := by
  refine ⟨h.banks, ?_, h.replaced⟩
  simp only [Kbl.takeWord]
  split
  · exact storeEntry_ok _ _ _ (storeEntry_ok _ _ _ h.shadow)
  · exact storeEntry_ok _ _ _ h.shadow

theorem Kbl.swap_ok {k : Kbl} (r : LoadRecord) (keep : Bool) (h : k.Ok) : (k.swap r keep).Ok := by
  refine ⟨fun b => ?_, Bank.zero_ok, fun x hx => ?_⟩
  · simp only [Kbl.swap, Fin.getElem_fin, Vector.getElem_set]
    split
    · exact h.shadow
    · exact h.banks b
  · simp only [Kbl.swap] at hx
    split at hx
    · cases hx; exact h.banks r.bank
    · cases hx

/-- A load opened copies its bank, and a load closed leaves the shadow all 0. -/
theorem Kbl.ok_loader : LoaderKeeps Kbl.Ok where
  opened b st c so tag s h := by
    simp only [openLoad, postKey]
    exact ⟨h.banks, h.banks b, h.replaced⟩
  closed s h := ⟨h.banks, Bank.zero_ok, h.replaced⟩

theorem swapTest_kblOk {s : State} (h : s.kbl.Ok) : (swapTest s).kbl.Ok := by
  by_cases hr : s.kbl.loader ≠ .ready ∨ s.kbl.load = none
  case pos => rw [swapTest_of_not_ready hr]; exact h
  case neg =>
    push Not at hr
    obtain ⟨hready, hload⟩ := hr
    obtain ⟨r, hload⟩ := Option.ne_none_iff_exists'.1 hload
    cases hheld : s.swapProtected r || (s.swapGuard r).isSome with
    | true =>
      have hhold : (s.kbl.hold r).Ok := ⟨h.banks, h.shadow, h.replaced⟩
      rw [swapTest_held hready hload hheld]
      split <;> simpa using hhold
    | false =>
      rw [swapTest_swaps hready hload hheld]
      simpa using Kbl.swap_ok r (!s.tgn.drives.isEmpty) h

/-! ### The level of a dot -/

theorem keyScale_le {k f : Nat} (hk : k ≤ 64) (hf : f ≤ 64) : keyScale k f ≤ 64 := by
  have h : k * f ≤ 64 * 64 := Nat.mul_le_mul hk hf
  unfold keyScale
  omega

theorem Window.level_le {w : Window} {banks : Vector Bank 4} (index : Byte) (hw : w.Ok)
    (hb : ∀ b : Fin 4, Bank.Ok (banks[b])) : w.level banks index ≤ 64 := by
  unfold Window.level
  split
  · exact keyScale_le (hb _ _) hw.1
  · exact keyScale_le (Nat.le_refl _) hw.1
  · exact Nat.zero_le _

/-- The window that keys is one of the stack's (R142). -/
theorem Stack.search_mem {st : Stack} {line x : Nat} {w : Window} (h : st.search line x = some w) :
    ∃ i, st.slot i = .live w := by
  obtain ⟨i, -, hi⟩ := List.exists_of_findSome?_eq_some h
  unfold Stack.keyedAt at hi
  split at hi
  case h_1 v hv =>
    split at hi
    · cases hi; exact ⟨i, hv⟩
    · cases hi
  case h_2 => cases hi

theorem Stack.level_le {st : Stack} {banks : Vector Bank 4} (line x : Nat) (index : Byte) (h : st.Ok)
    (hb : ∀ b : Fin 4, Bank.Ok (banks[b])) : st.level banks line x index ≤ 64 := by
  unfold Stack.level
  split
  case h_1 w hw =>
    obtain ⟨i, hi⟩ := Stack.search_mem hw
    exact Window.level_le index (Stack.slot_ok h i w (by rw [hi]; rfl)) hb
  case h_2 => exact Nat.zero_le _

theorem bandLevel_le (n : Nat) : bandLevel n ≤ 64 := by
  unfold bandLevel
  rcases Nat.lt_or_ge n 8 with h | h
  · interval_cases n <;> decide
  · rw [List.getD_eq_default _ _ h]

theorem Kbl.endedBanks_ok {k : Kbl} (h : k.Ok) (b : Fin 4) : Bank.Ok (k.endedBanks[b]) := by
  unfold Kbl.endedBanks
  split
  case h_1 r hr =>
    simp only [Fin.getElem_fin, Vector.getElem_set]
    split
    · exact h.replaced r hr
    · exact h.banks b
  case h_2 => exact h.banks b

theorem dotLevel_le {s : State} (d : Drive) (index : Byte) (hw : s.wsk.Ok) (hk : s.kbl.Ok) :
    s.dotLevel d index ≤ 64 := by
  unfold State.dotLevel
  split
  · exact Nat.zero_le _
  · exact bandLevel_le _
  · split
    · exact Stack.level_le _ _ _ hw.stack hk.banks
    · split
      case h_1 st hst => exact Stack.level_le _ _ _ (hw.prev st hst) (Kbl.endedBanks_ok hk)
      case h_2 => exact Nat.zero_le _

/-! ### The parts of `State.KeyOk` -/

/-- The key levels lie in their range block by block: WSK's, KBL's and TGN's. -/
theorem State.keyOk_iff (s : State) : s.KeyOk ↔ s.wsk.Ok ∧ s.kbl.Ok ∧ s.tgn.key ≤ 64 :=
  ⟨fun h => ⟨⟨h.stack, h.prev⟩, ⟨h.banks, h.shadow, h.replaced⟩, h.key⟩,
    fun ⟨hw, hk, hkey⟩ => ⟨hw.stack, hw.prev, hk.banks, hk.shadow, hk.replaced, hkey⟩⟩

/-- A command that leaves WSK, KBL and KEY leaves the key levels. -/
theorem State.KeyOk.of_eq {s t : State} (h : s.KeyOk) (hw : t.wsk = s.wsk) (hk : t.kbl = s.kbl)
    (hkey : t.tgn.key = s.tgn.key) : t.KeyOk := by
  rw [State.keyOk_iff] at h ⊢
  rw [hw, hk, hkey]
  exact h

theorem Wsk.ok_engine : EngineKeeps fun s => s.wsk.Ok where
  kind _ _ _ _ hbad hk h := kindEffect_wskOk hbad hk h
  produce _ _ h := h
  latch _ _ h := h
  mpt _ _ h := h
  cue _ _ _ _ h := h

/-- The stack of the field that ended is kept while dots of it are still to be keyed (R140). -/
theorem boundaryHead_wsk (o : WorkOrder) (e : Bool) (s : State) :
    (boundaryHead (wskLast o) e s).wsk =
      { s.wsk with prev := if s.tgn.drives.isEmpty then none else some s.wsk.stack } := by
  simp only [boundaryHead, atPlace_wskLast, atPlace_nolockTest_frame]
  split <;> simp [keepEnded, nextField_tgn]

theorem boundaryHead_wskOk (o : WorkOrder) (e : Bool) {s : State} (h : s.wsk.Ok) :
    (boundaryHead (wskLast o) e s).wsk.Ok := by
  rw [boundaryHead_wsk]
  refine ⟨h.stack, fun st hst => ?_⟩
  dsimp only at hst
  split at hst
  · cases hst
  · cases hst; exact h.stack

theorem fieldBoundary_keyOk (o : WorkOrder) (e : Bool) {s : State} (h : s.KeyOk) : (fieldBoundary o e s).KeyOk := by
  rw [State.keyOk_iff] at h ⊢
  obtain ⟨hw, hk, hkey⟩ := h
  obtain ⟨n, a, b, htgn⟩ := fieldBoundary_tgn o e s
  have hkhead : (boundaryHead (wskLast o) e s).kbl.Ok := by
    rw [boundaryHead_kbl]
    exact ⟨hk.banks, hk.shadow, nofun⟩
  have hweng := Wsk.ok_engine.engineBoundary (boundaryHead_wskOk o e hw)
  have hkeng := Kbl.ok_loader.engine.engineBoundary hkhead
  refine ⟨?_, ?_, by rw [htgn]; exact hkey⟩ <;> rw [fieldBoundary_late, fieldBoundary]
  · rw [boundaryTail_wsk, boundaryCues_wsk]
    exact ⟨Stack.stepAll_ok _ hweng.stack, hweng.prev⟩
  · rw [boundaryTail_kbl]
    exact swapTest_kblOk (by rw [boundaryCues_kbl]; exact hkeng)

/-- KEY goes on in a new line or drops to 0. -/
theorem beginLine_keyOk {s : State} (h : s.KeyOk) : (beginLine s).KeyOk := by
  rw [State.keyOk_iff] at h ⊢
  obtain ⟨hw, hk, hkey⟩ := h
  rw [beginLine_tgn]
  refine ⟨by simpa using hw, by simpa using hk, ?_⟩
  dsimp only
  split
  · exact Nat.zero_le _
  · exact hkey

theorem lineEndWork_keyOk (x : LineInputs) {s : State} (h : s.KeyOk) : (lineEndWork x s).KeyOk := by
  have hgrid : (gridStep x s).s.KeyOk := h.of_eq (by simp) (by simp) (by simp)
  rcases Nat.lt_or_ge s.tgn.line s.tgn.length with hin | hend
  · rw [lineEndWork_inField hin]
    exact beginLine_keyOk (hgrid.of_eq (by simp) (by simp) (by simp [nextLine, scanPoint_tgn]))
  · rw [lineEndWork_boundary hend]
    exact beginLine_keyOk (fieldBoundary_keyOk _ _ hgrid)

theorem ite_lineEndWork_keyOk (p : Prop) [Decidable p] (x : LineInputs) {s : State} (h : s.KeyOk) :
    (if p then lineEndWork x s else s).KeyOk := by
  split
  · exact lineEndWork_keyOk x h
  · exact h

theorem dropEnded_keyOk {s : State} (h : s.KeyOk) : (dropEnded s).KeyOk := by
  unfold dropEnded
  split
  · exact ⟨h.stack, nofun, h.banks, h.shadow, nofun, h.key⟩
  · exact h

theorem dotEdge_keyOk (index : Byte) {s : State} (h : s.KeyOk) : (dotEdge index s).KeyOk := by
  obtain ⟨hw, hk, hkey⟩ := s.keyOk_iff.1 h
  refine dropEnded_keyOk ((State.keyOk_iff _).2 ⟨hw, hk, ?_⟩)
  dsimp only
  cases ((s.tgn.drives ++ [s.newDrive]).filter (fun d => decide (d.due = s.tgn.edgeCount + 1))).getLast? with
  | none => exact Nat.zero_le _
  | some d => exact dotLevel_le d index hw hk

/-! ### The commands -/

theorem portOne_keyOk {f : State → State} {s : State} (h : s.KeyOk)
    (hf : (f { s with cue := { s.cue with second := false } }).KeyOk) (a b : Bool) : (portOne f a b s).KeyOk := by
  unfold portOne
  split
  · exact hf.of_eq (by simp) (by simp) (by simp)
  · exact h

theorem stopFunction_keyOk {s : State} (h : s.KeyOk) : (stopFunction s).KeyOk := by
  obtain ⟨hw, hk, hkey⟩ := s.keyOk_iff.1 h
  refine (State.keyOk_iff _).2 ⟨?_, ?_, by rw [stopFunction_tgn]; exact hkey⟩ <;> unfold stopFunction <;> split
  · exact hw
  · simpa using hw
  · exact hk
  · exact Kbl.ok_loader.abortLoad _ (by simpa using hk)

theorem softReset_keyOk (n : Nat) {s : State} (h : s.KeyOk) : (softResetFunction n s).KeyOk :=
  ⟨Stack.empty_ok, nofun, h.banks, Bank.zero_ok, nofun, Nat.zero_le _⟩

theorem powerOn_keyOk (straps : Straps) (mem : Memory) : (State.powerOn straps mem).KeyOk := by
  refine ⟨Stack.empty_ok, nofun, fun b => ?_, Bank.zero_ok, nofun, Nat.zero_le _⟩
  simpa [State.powerOn] using Bank.zero_ok

theorem broadPulse_key (e : Pu) (s : State) : (broadPulse e s).tgn.key = s.tgn.key := by
  obtain ⟨n, h⟩ := broadArrival_tgn e s
  simp [broadPulse, h]

theorem classified_key (k : PulseClass) (i : Input) (e : Pu) (u : Tick) (p : Byte) (s : State) :
    (classified k i e u p s).tgn.key = s.tgn.key := by
  cases k with
  | broad => simp only [classified]; split <;> simp [broadPulse_key]
  | line => simp [classified]
  | equalising | noise => rfl

/-- The banks and the rest of KBL go by the loader alone at the memory port. -/
theorem keyWordRead_keyOk (w : Word) {s : State} (h : s.KeyOk) : (keyWordRead w s).KeyOk := by
  obtain ⟨hw, hk, hkey⟩ := s.keyOk_iff.1 h
  refine (State.keyOk_iff _).2 ⟨by simpa using hw, ?_, by simpa using hkey⟩
  unfold keyWordRead
  split
  · exact hk
  · dsimp only
    split <;> simpa using Kbl.takeWord_ok _ w hk

theorem memoryFault_keyOk (q : Request) (t : Tick) (n : Nat) (r : Bool) (b : BusTraffic) {s : State}
    (h : s.KeyOk) : (memoryFault q t n r b s).KeyOk := by
  obtain ⟨hw, hk, hkey⟩ := s.keyOk_iff.1 h
  refine (State.keyOk_iff _).2 ⟨by simpa using hw, ?_, by simpa using hkey⟩
  exact Kbl.ok_loader.abortLoading .memory (by simpa using hk)

theorem startupLoaded_keyOk (l : Nat) (ws : List Word) {s : State} (h : s.KeyOk) :
    (startupLoaded l ws s).KeyOk := by
  obtain ⟨hw, hk, hkey⟩ := s.keyOk_iff.1 h
  refine (State.keyOk_iff _).2 ⟨by simpa using hw, ?_, by simpa using hkey⟩
  unfold startupLoaded
  dsimp only
  split
  · exact Kbl.ok_loader.linkFault _ _ _ hk
  · simpa using hk

/-- The commands that move neither WSK nor KBL, nor KEY. -/
def Instr.leavesLevels : Instr → Bool
  | .powerOn _ | .softReset _ _ _ | .stop _ _ | .lineEnd _ | .flywheelLimit _ | .missedFields _ | .scanPoint _
  | .fieldBoundary _ | .holdoverExpiry _ | .testNolock _ | .waitendExpired _ | .dotEdge _
  | .keySourceWordRead _ | .memoryFault _ _ _ _ | .startupLoadComplete _ => false
  | _ => true

theorem portOne_levels {f : State → State}
    (hf : ∀ s, (f s).wsk = s.wsk ∧ (f s).kbl = s.kbl ∧ (f s).tgn = s.tgn) (a b : Bool) (s : State) :
    (portOne f a b s).wsk = s.wsk ∧ (portOne f a b s).kbl = s.kbl ∧
      (portOne f a b s).tgn.key = s.tgn.key := by
  unfold portOne
  split <;> simp [hf]

theorem runFunction_levels (s : State) :
    (runFunction s).wsk = s.wsk ∧ (runFunction s).kbl = s.kbl ∧ (runFunction s).tgn = s.tgn := by
  unfold runFunction; split <;> simp

theorem continueFunction_levels (s : State) :
    (continueFunction s).wsk = s.wsk ∧ (continueFunction s).kbl = s.kbl ∧ (continueFunction s).tgn = s.tgn := by
  unfold continueFunction; split <;> simp

theorem nextState_levels {c : Instr} (h : Instr.leavesLevels c = true) (s : State) :
    (nextState c s).wsk = s.wsk ∧ (nextState c s).kbl = s.kbl ∧ (nextState c s).tgn.key = s.tgn.key := by
  cases c with
  | run a b => exact portOne_levels runFunction_levels a b s
  | continueRun a b => exact portOne_levels continueFunction_levels a b s
  | noneFunction => exact portOne_levels (f := id) (fun _ => ⟨rfl, rfl, rfl⟩) _ _ s
  | start => exact portOne_levels (f := id) (fun _ => ⟨rfl, rfl, rfl⟩) _ _ s
  | clear => exact portOne_levels (f := id) (fun _ => ⟨rfl, rfl, rfl⟩) _ _ s
  | powerOn | softReset | stop | lineEnd | flywheelLimit | missedFields | scanPoint | fieldBoundary
  | holdoverExpiry | testNolock | waitendExpired | dotEdge | keySourceWordRead | memoryFault
  | startupLoadComplete => cases h
  | linkAddressRead | causePortRead | ignoredPortWrite => exact ⟨rfl, rfl, rfl⟩
  | linkAddressWrite | strapDone =>
    simp only [nextState, exec, execLinkAddressWrite, execStrapDone]; split <;> exact ⟨rfl, rfl, rfl⟩
  | classifierArmed | leadingEdge | pulseOverrun | slicerUpdate | pulseClassification =>
    simp only [nextState, exec, execClassifierArmed, execLeadingEdge, execPulseOverrun, execSlicerUpdate,
      execPulseClassification]
    (repeat' split) <;> simp [classified_key]
  | windowEnd => rw [nextState_windowEnd]; simp
  | captureAbandon | tstLineArrival | tstBroadArrival =>
    simp only [nextState, exec, execCaptureAbandon, execTstLineArrival, execTstBroadArrival]
    (repeat' split) <;> simp [broadPulse_key]
  | requestGrant | recordWrite => simp [nextState, exec, execRequestGrant, execRecordWrite]
  | fillReadComplete | cueRecordRead | idleCueRead | takeWriteComplete | reportWriteComplete
  | getReadComplete | lonePutWriteComplete | statusWordWriteComplete =>
    simp only [nextState, exec, execFillReadComplete, execCueRecordRead, execIdleCueRead,
      execTakeWriteComplete, execReportWriteComplete, execGetReadComplete, execLonePutWriteComplete,
      execStatusWordWriteComplete]
    (repeat' split) <;> simp

theorem nextState_keyOk_of_leavesLevels {c : Instr} {s : State} (hc : Instr.leavesLevels c = true)
    (h : s.KeyOk) : (nextState c s).KeyOk := by
  obtain ⟨hw, hk, hkey⟩ := nextState_levels hc s
  exact h.of_eq hw hk hkey

theorem nextState_keyOk (c : Instr) {s : State} (h : s.KeyOk) : (nextState c s).KeyOk := by
  cases c with
  | powerOn straps => exact (powerOn_keyOk straps s.mem).of_eq rfl rfl rfl
  | softReset a b n => exact portOne_keyOk h (softReset_keyOk n (h.of_eq rfl rfl rfl)) _ _
  | stop a b => exact portOne_keyOk h (stopFunction_keyOk (h.of_eq rfl rfl rfl)) _ _
  | lineEnd x => exact lineEndWork_keyOk x h
  | flywheelLimit x | missedFields x | scanPoint x | fieldBoundary x | holdoverExpiry x | testNolock x
  | waitendExpired x => exact ite_lineEndWork_keyOk _ x h
  | dotEdge b =>
    simp only [nextState, exec_dotEdge]
    split
    · exact dotEdge_keyOk b h
    · exact h
  | keySourceWordRead | startupLoadComplete =>
    simp only [nextState, exec, execKeySourceWordRead, execStartupLoadComplete]
    split
    · have hread : ∀ q b, (serveRead q b s).1.KeyOk := fun q b => h.of_eq (by simp) (by simp) (by simp)
      split
      · exact hread _ _
      · first
        | exact keyWordRead_keyOk _ (hread _ _)
        | exact startupLoaded_keyOk _ _ (hread _ _)
    · exact h
  | memoryFault =>
    simp only [nextState, exec, execMemoryFault]
    split
    · split
      · exact memoryFault_keyOk _ _ _ _ _ h
      · exact h
    · exact h
  | _ => exact nextState_keyOk_of_leavesLevels rfl h

/-- Settles O59. -/
theorem stepKeepsMemoryAndLevels : Obligations.StepKeepsMemoryAndLevels := by
  refine ⟨fun s t h hstep => ?_, fun s t h hstep => ?_⟩ <;>
    rcases step_cases hstep with ⟨c, rest, rfl⟩ | ⟨e, n, rfl⟩ | rfl
  · exact nextState_wf c h
  · exact h
  · exact h
  · exact nextState_keyOk c (h.of_eq rfl rfl rfl)
  · exact h.of_eq rfl rfl rfl
  · exact h.of_eq rfl rfl rfl

end Sys2Proof.Machine
end

section
/-!
PROOFS. The ranges of `State.Inv`, block by block: what each block's own operations keep (R13, R20, R33, R50, R55,
R64, R89, R106, R164 to R166, R190).
-/

namespace Sys2Proof.Machine

/-! ### RPW: the FIFO and its counts (R164 to R166) -/

structure Rpw.Ok (r : Rpw) : Prop where
  fifo     : r.fifo.length ≤ 8
  withheld : r.withheld ≤ 65535
  gap      : r.openGap ≤ 65535
  stamp    : r.openStamp.isSome ↔ r.openGap ≠ 0

/-- What leaves the FIFO and its counts keeps them in their ranges. -/
theorem Rpw.Ok.of_eq {r r' : Rpw} (h : r.Ok) (hfifo : r'.fifo = r.fifo) (hwith : r'.withheld = r.withheld)
    (hgap : r'.openGap = r.openGap) (hstamp : r'.openStamp = r.openStamp) : r'.Ok :=
  ⟨hfifo ▸ h.fifo, hwith ▸ h.withheld, hgap ▸ h.gap, by rw [hgap, hstamp]; exact h.stamp⟩

theorem satSucc_pos {cap n : Nat} (h : 0 < cap) : satSucc cap n ≠ 0 := by
  unfold satSucc; split <;> omega

theorem Rpw.produce_ok {r : Rpw} (rec : Report) (h : r.Ok) : (r.produce rec).Ok := by
  refine ⟨Rpw.produce_length rec h.fifo, ?_, ?_, ?_⟩ <;> unfold Rpw.produce <;> split
  · exact h.withheld
  · exact satSucc_le h.withheld
  · exact Nat.zero_le _
  · exact satSucc_le h.gap
  · simp
  · have hpos := satSucc_pos (n := r.openGap) (show 0 < 65535 by decide)
    refine ⟨fun _ => hpos, fun _ => ?_⟩
    dsimp only
    split
    · rfl
    · next hgap => exact h.stamp.2 hgap

theorem Rpw.latch_ok {r : Rpw} (c : Cause) (h : r.Ok) : (r.latch c).Ok := h.of_eq rfl rfl rfl rfl

theorem Rpw.acknowledge_ok {r : Rpw} (b : Bool) (h : r.Ok) : (r.acknowledge b).Ok := h.of_eq rfl rfl rfl rfl

/-- A record or a GAP that leaves the FIFO lengthens nothing. -/
theorem Rpw.retire_ok {r : Rpw} (gap : Bool) (h : r.Ok) : (r.retire gap).Ok := by
  have hlen := h.fifo
  have hwith := h.withheld
  unfold Rpw.retire
  split
  · exact h
  · next x rest hfifo =>
    rw [hfifo] at hlen
    simp only [List.length_cons] at hlen
    split
    · split
      · exact ⟨by simpa using hlen, Nat.zero_le _, h.gap, h.stamp⟩
      · exact ⟨by simpa using hlen, by dsimp only; omega, h.gap, h.stamp⟩
    · exact ⟨by dsimp only; omega, h.withheld, h.gap, h.stamp⟩

/-! ### FAL: the shift, the misses and the broad record (R46, R50, R55) -/

structure Fal.Ok (f : Fal) : Prop where
  shift : f.kind = .whole → f.shift ≤ 16
  miss  : f.miss ≤ 3
  broad : ∀ r, f.broad = some r → 1 ≤ r.count ∧ r.count ≤ 2

/-- A field's length lies in R51's range. -/
def lengthOk (n : Nat) : Prop := 20 ≤ n ∧ n ≤ 329

theorem fieldLines_bounds (d : Standard) (q : Parity) : 262 ≤ d.fieldLines q ∧ d.fieldLines q ≤ 313 := by
  cases d <;> cases q <;> decide

theorem wrapTo_le (x : Int) {f : Nat} {hi : Int} (hf : 0 < f) (hhi : 0 ≤ hi) : wrapTo x f hi ≤ hi := by
  have hlt := Int.emod_lt_of_pos x (show (0 : Int) < f by omega)
  unfold wrapTo
  dsimp only
  split <;> omega

theorem frame_pos (d : Standard) : 0 < d.frame := by cases d <;> decide

/-- What a start leaves lies in the ranges: the aligner, and a length that keeps the line in progress. -/
structure AlignResult.Ok (r : AlignResult) (line : Nat) : Prop where
  fal    : r.fal.Ok
  line   : line ≤ r.length
  length : lengthOk r.length

theorem Fal.applyShift_ok {f : Fal} {c : FieldCtx} {s : Int} {k : ShiftKind} (h : f.Ok)
    (hline : c.line ≤ c.length) (hlen : lengthOk c.length) (hs : k = .whole → s ≤ 16) :
    (f.applyShift c s k).Ok c.line := by
  have hb := fieldLines_bounds c.std c.parity
  have hmoved : ∀ move : Int, c.allows (c.length + move) = true →
      c.line ≤ ((c.length : Int) + move).toNat ∧ lengthOk ((c.length : Int) + move).toNat := by
    intro move hallow
    simp only [FieldCtx.allows, decide_eq_true_eq] at hallow
    unfold lengthOk
    omega
  unfold Fal.applyShift
  cases k with
  | whole =>
    dsimp only
    split
    · next hallow => exact ⟨⟨fun _ => by simp, h.miss, h.broad⟩, (hmoved _ hallow).1, (hmoved _ hallow).2⟩
    · exact ⟨⟨fun _ => hs rfl, h.miss, h.broad⟩, hline, hlen⟩
  | slip =>
    dsimp only
    generalize (if 0 < s then (1 : Int) else -1) = move
    split
    · next hallow => exact ⟨⟨nofun, h.miss, h.broad⟩, (hmoved _ hallow).1, (hmoved _ hallow).2⟩
    · exact ⟨⟨nofun, h.miss, h.broad⟩, hline, hlen⟩

theorem Fal.handleAlign_ok {f : Fal} {c : FieldCtx} (d : Int) (ag : Bool) (h : f.Ok)
    (hline : c.line ≤ c.length) (hlen : lengthOk c.length) : (f.handleAlign c d ag).Ok c.line := by
  unfold Fal.handleAlign
  split
  · exact ⟨⟨fun _ => by simp, by simp, h.broad⟩, hline, hlen⟩
  · split
    · exact ⟨h, hline, hlen⟩
    · split
      · exact Fal.applyShift_ok h hline hlen nofun
      · exact Fal.applyShift_ok h hline hlen fun _ => wrapTo_le _ (frame_pos _) (by decide)

theorem Fal.handleLock_ok {f : Fal} {c : FieldCtx} (d : Int) (ag : Bool) (h : f.Ok)
    (hline : c.line ≤ c.length) (hlen : lengthOk c.length) : (f.handleLock c d ag).Ok c.line := by
  unfold Fal.handleLock
  split
  · exact ⟨⟨fun _ => by simp, h.miss, h.broad⟩, hline, hlen⟩
  · split
    · exact ⟨h, hline, hlen⟩
    · split
      · next hag =>
        simp only [Bool.and_eq_true, decide_eq_true_eq] at hag
        have hshift := Fal.applyShift_ok (k := .whole) h hline hlen fun _ => show d ≤ 16 by omega
        exact ⟨hshift.fal, hshift.line, hshift.length⟩
      · have hf : ({ f with field := .align, miss := 0 } : Fal).Ok := ⟨h.shift, Nat.zero_le _, h.broad⟩
        have halign := Fal.handleAlign_ok d ag hf hline hlen
        exact ⟨halign.fal, halign.line, halign.length⟩

theorem Fal.handleStart_ok {f : Fal} {c : FieldCtx} (r : BroadRecord) (h : f.Ok)
    (hline : c.line ≤ c.length) (hlen : lengthOk c.length) : (f.handleStart c r).Ok c.line := by
  unfold Fal.handleStart
  dsimp only
  split
  · exact Fal.handleAlign_ok _ _ ⟨h.shift, Nat.zero_le _, h.broad⟩ hline hlen
  · exact Fal.handleAlign_ok _ _ ⟨h.shift, h.miss, h.broad⟩ hline hlen
  · exact Fal.handleLock_ok _ _ ⟨h.shift, h.miss, h.broad⟩ hline hlen

/-- The length of the field that begins lies in R51's range, and so does the shift that stays pending (R50). -/
theorem Fal.nextLength_ok {f : Fal} (d : Standard) (q : Parity) (hold : Bool) (h : f.Ok) :
    lengthOk (f.nextLength d q hold).1 ∧ (f.kind = .whole → (f.nextLength d q hold).2 ≤ 16) := by
  have hb := fieldLines_bounds d q
  unfold Fal.nextLength lengthOk
  dsimp only
  split
  · exact ⟨by omega, by simp⟩
  · split
    · exact ⟨by omega, h.shift⟩
    · split
      · next hk =>
        have hs := h.shift hk
        dsimp only
        omega
      · next hk =>
        split
        · exact ⟨by dsimp only; omega, by simp [hk]⟩
        · exact ⟨by dsimp only; omega, by simp [hk]⟩

theorem Fal.enterSeek_ok {f : Fal} (why : LostReason) (h : f.broad = none ∨ f.Ok) :
    (f.enterSeek why).1.Ok := by
  have hbroad : ∀ r, f.broad = some r → 1 ≤ r.count ∧ r.count ≤ 2 := by
    intro r hr
    rcases h with h | h
    · simp [h] at hr
    · exact h.broad r hr
  unfold Fal.enterSeek
  dsimp only
  split
  · exact ⟨fun _ => by simp, Nat.zero_le _, nofun⟩
  · exact ⟨fun _ => by simp, Nat.zero_le _, hbroad⟩

/-! ### LLL (R20, R21, R25, R33) -/

structure Lll.Ok (l : Lll) (d : Standard) : Prop where
  pull     : d.pMin ≤ l.p ∧ l.p ≤ d.pMax
  free     : l.loop = .free → l.p = d.nominal
  hTarget  : l.hTarget.natAbs ≤ d.half
  hEff     : l.hEff.natAbs ≤ d.half
  c        : l.c.natAbs ≤ d.half
  flywheel : l.flywheel ≤ 63
  holdover : l.holdover ≤ 255
  capture  : l.loop = .capture ↔ l.capture.isSome
  origin   : ∀ r, l.capture = some r → r.origin = .free → l.p = d.nominal
  stray    : ∀ r, l.stray = some r → 1 ≤ r.count ∧ r.count ≤ 2

theorem Lll.Ok.capture_none {l : Lll} {d : Standard} (h : l.Ok d) (hl : l.loop ≠ .capture) :
    l.capture = none := by
  rw [← Option.not_isSome_iff_eq_none, ← h.capture]
  exact hl

theorem nominal_bounds (d : Standard) : d.pMin ≤ d.nominal ∧ d.nominal ≤ d.pMax := by
  cases d <;> decide

theorem Lll.measure_ok {l : Lll} {d : Standard} (st : Settings) (line : Nat) (edge : Pu) (h : l.Ok d) :
    (l.measure st d line edge).Ok d := by
  unfold Lll.measure
  split
  · exact h
  · dsimp only
    split
    · exact { h with }
    · split
      · exact { h with }
      · exact h

theorem clampN_pull (d : Standard) (x : Nat) :
    d.pMin ≤ clampN x d.pMin d.pMax ∧ clampN x d.pMin d.pMax ≤ d.pMax :=
  clampN_bounds ((nominal_bounds d).1.trans (nominal_bounds d).2)

theorem Lll.captureArrival_ok {l : Lll} {d : Standard} {r : CaptureRecord} (st : Settings) (edge : Pu) (t : Tick)
    (h : l.Ok d) (hl : l.loop = .capture) (hr : l.capture = some r) : (l.captureArrival st d r edge t).1.Ok d := by
  have keep : ∀ first, ({ l with
      capture := some { r with lastEdge := edge, lastTick := t, first := first } } : Lll).Ok d := fun first =>
    { h with
      capture := by simp [hl]
      origin := fun x hx ho => by
        cases hx
        exact h.origin r hr ho }
  unfold Lll.captureArrival
  dsimp only
  split
  · exact keep none
  · split
    · exact keep _
    · split
      · exact {
          pull := clampN_pull d _, free := nofun, hTarget := h.hTarget, hEff := h.hEff
          c := Nat.zero_le _, flywheel := Nat.zero_le _, holdover := Nat.zero_le _
          capture := by simp [Lll.snap], origin := nofun, stray := nofun }
      · exact keep _

theorem Lll.openCapture_ok {l : Lll} {d : Standard} {o : Origin} (edge : Pu) (t : Tick) (h : l.Ok d)
    (ho : o = .free → l.p = d.nominal) : (l.openCapture o edge t).Ok d :=
  { h with
    free := nofun
    capture := by simp [Lll.openCapture]
    origin := fun r hr hfree => by cases hr; exact ho hfree }

/-- Every LINE arrival keeps the loop in its ranges (R26, R36 to R38). -/
theorem Lll.arrive_ok {l : Lll} {d : Standard} (st : Settings) (line : Nat) (edge : Pu) (t : Tick) (h : l.Ok d) :
    (l.arrive st d line edge t).1.Ok d := by
  unfold Lll.arrive
  split
  · next hl => exact Lll.openCapture_ok edge t h fun _ => h.free hl
  · exact Lll.openCapture_ok edge t h nofun
  · exact Lll.measure_ok st line edge h
  · exact Lll.measure_ok st line edge h
  · next hl =>
    split
    · next r hr => exact Lll.captureArrival_ok st edge t h hl hr
    · exact h

theorem Lll.abandon_ok {l : Lll} {d : Standard} {r : CaptureRecord} (h : l.Ok d) (hr : l.capture = some r) :
    (l.abandon r).Ok d :=
  { h with
    free := fun hl => by
      refine h.origin r hr ?_
      simp only [Lll.abandon] at hl
      cases ho : r.origin with
      | free => rfl
      | holdover => rw [ho] at hl; cases hl
    capture := by simp only [Lll.abandon]; cases r.origin <;> simp
    origin := nofun }

theorem clampI_pull (d : Standard) (x : Int) :
    d.pMin ≤ (clampI x d.pMin d.pMax).toNat ∧ (clampI x d.pMin d.pMax).toNat ≤ d.pMax := by
  have h := nominal_bounds d
  have hc := clampI_bounds (x := x) (show (d.pMin : Int) ≤ d.pMax by omega)
  omega

theorem clampI_half (d : Standard) (x : Int) : (clampI x (-(d.half : Int)) d.half).natAbs ≤ d.half := by
  have hc := clampI_bounds (x := x) (show (-(d.half : Int)) ≤ d.half by omega)
  omega

/-- A stray record that goes on counts 1 or 2 (R33). -/
theorem applyStray_ok {tol : Nat} {r : Option StrayRecord} {o : Option Int}
    (h : ∀ x, r = some x → 1 ≤ x.count ∧ x.count ≤ 2) :
    ∀ x, (applyStray tol r o).1 = some x → 1 ≤ x.count ∧ x.count ≤ 2 := by
  intro x hx
  unfold applyStray at hx
  split at hx
  · cases hx
  · cases hx; exact ⟨Nat.le_refl 1, Nat.le_succ 1⟩
  · next y =>
    have hy := h y rfl
    split at hx
    · split at hx
      · cases hx
      · cases hx; dsimp only; omega
    · cases hx; exact ⟨Nat.le_refl 1, Nat.le_succ 1⟩

/-- LLL's evaluation of a line keeps the loop in its ranges (R28 to R35). -/
theorem Lll.evaluate_ok {l : Lll} {d : Standard} {st : Settings} (line : Nat) (h : l.Ok d)
    (hfly : st.flyLimit ≤ 63) : (l.evaluate st d line).lll.Ok d := by
  unfold Lll.evaluate
  split
  · exact h
  · exact h
  · exact h
  · next hfree hcap hhold =>
    have hnone := h.capture_none hcap
    have hopen : ∀ x : LoopState, x ≠ .capture → (x = .capture ↔ l.capture.isSome) := fun x hx => by
      simp [hnone, hx]
    split
    · exact { h with }
    split
    · exact { h with free := nofun, capture := hopen _ nofun }
    split
    · exact { h with
        pull := clampI_pull d _, free := nofun, flywheel := Nat.zero_le _, capture := hopen _ nofun
        origin := by simp [Lll.evalAccepted, hnone], stray := nofun }
    · split
      · next r o happ =>
        unfold Lll.evalStep
        split
        · exact { h with
            free := nofun, c := clampI_half d _, flywheel := Nat.zero_le _, capture := hopen _ nofun
            stray := nofun }
        · exact { h with free := nofun, flywheel := Nat.zero_le _, capture := hopen _ nofun, stray := nofun }
      · next r happ =>
        have hstray : ∀ x, r = some x → 1 ≤ x.count ∧ x.count ≤ 2 := fun x hx =>
          applyStray_ok (tol := st.captureTol) (o := l.lineStray) h.stray x (by rw [happ, hx])
        unfold Lll.evalCoast
        split
        · exact { h with
            free := nofun, flywheel := Nat.zero_le _, holdover := Nat.zero_le _, capture := hopen _ nofun
            stray := nofun }
        · next hlim =>
          exact { h with
            free := nofun, flywheel := by dsimp only; omega, capture := hopen _ nofun, stray := hstray }

theorem moveToward_half {x goal : Int} {n : Nat} (step : Nat) (hx : x.natAbs ≤ n) (hg : goal.natAbs ≤ n) :
    (moveToward x goal step).natAbs ≤ n := by
  have h := moveToward_between x goal step
  omega

theorem Lll.advance_ok {l : Lll} {d : Standard} (st : Settings) (len : Nat) (h : l.Ok d) : (l.advance st len).Ok d :=
  { h with
    hEff := moveToward_half _ h.hEff h.hTarget
    c := moveToward_half _ h.c (Nat.zero_le _) }

theorem Lll.expire_ok {l : Lll} {d : Standard} (h : l.Ok d) : (l.expire d).1.Ok d :=
  { h with
    pull := nominal_bounds d
    free := fun _ => rfl
    holdover := Nat.zero_le _
    capture := by
      have hc := h.capture
      simp only [Lll.expire, Option.isSome_map]
      rw [← hc]
      split <;> simp_all
    origin := fun _ _ _ => rfl
    stray := nofun }

theorem Lll.switch_ok {l : Lll} {d : Standard} (h : l.Ok d) : l.switch.1.Ok d := by
  unfold Lll.switch
  split
  · exact h
  · exact { h with holdover := Nat.zero_le _ }
  · exact { h with
      free := nofun, flywheel := Nat.zero_le _, holdover := Nat.zero_le _, capture := by simp
      origin := nofun, stray := nofun }

/-- A change of standard brings every value into the new standard's ranges, whatever it was (R43). -/
theorem Lll.standard_ok (l : Lll) (d : Standard) : (l.standard d).1.Ok d where
  pull := nominal_bounds d
  free := fun _ => rfl
  hTarget := clampI_half d _
  hEff := clampI_half d _
  c := clampI_half d _
  flywheel := Nat.zero_le _
  holdover := Nat.zero_le _
  capture := by simp [Lll.standard]
  origin := nofun
  stray := nofun

theorem Lll.start_ok (d : Standard) (ideal next : Qu) : ({ p := d.nominal, ideal := ideal, nextIdeal := next } : Lll).Ok d where
  pull := nominal_bounds d
  free := fun _ => rfl
  hTarget := Nat.zero_le _
  hEff := Nat.zero_le _
  c := Nat.zero_le _
  flywheel := Nat.zero_le _
  holdover := Nat.zero_le _
  capture := by simp
  origin := nofun
  stray := nofun

end Sys2Proof.Machine
end

section
/-!
PROOFS. The ranges of `State.Inv` as the state holds them: dots to come, the settings, and what the shared
operations, the reference inputs and the aligner keep.
-/

namespace Sys2Proof.Machine

/-! ### TGN: the field in progress and the dots to come (R50, R64, R71) -/

structure Tgn.FieldOk (t : Tgn) : Prop where
  first  : 1 ≤ t.line
  last   : t.line ≤ t.length
  length : lengthOk t.length

structure Tgn.DriveOk (t : Tgn) : Prop where
  delay : t.delay ≤ 63
  due   : ∀ i d, t.drives.reverse[i]? = some d →
    1 ≤ (d.due - t.edgeCount).toNat ∧ (d.due - t.edgeCount).toNat + i ≤ 63

/-- At most 63 drives are pending, for the oldest of them is still ahead. -/
theorem Tgn.DriveOk.count {t : Tgn} (h : t.DriveOk) : t.drives.length ≤ 63 := by
  rcases Nat.eq_zero_or_pos t.drives.length with hz | hpos
  · omega
  · have hlt : t.drives.length - 1 < t.drives.reverse.length := by rw [List.length_reverse]; omega
    have hdue := h.due _ _ (List.getElem?_eq_getElem hlt)
    omega

/-- An entry of a filtered list stood no earlier in the list. -/
theorem exists_le_of_filter_getElem? {α : Type} {p : α → Bool} {l : List α} {i : Nat} {x : α}
    (h : (l.filter p)[i]? = some x) : p x = true ∧ ∃ j, i ≤ j ∧ l[j]? = some x := by
  induction l generalizing i with
  | nil => simp at h
  | cons y ys ih =>
    rw [List.filter_cons] at h
    split at h
    · next hy =>
      cases i with
      | zero =>
        obtain rfl : y = x := by simpa using h
        exact ⟨hy, 0, Nat.le_refl _, rfl⟩
      | succ i =>
        obtain ⟨hx, j, hj, hget⟩ := ih (by simpa using h)
        exact ⟨hx, j + 1, Nat.succ_le_succ hj, by simpa using hget⟩
    · obtain ⟨hx, j, hj, hget⟩ := ih h
      exact ⟨hx, j + 1, Nat.le_succ_of_le hj, by simpa using hget⟩

/-- The dots to come after an edge: every one is one edge nearer, the new one the delay ahead, and the one
whose drive edge this is has gone (R71). -/
theorem drives_after_edge {t : Tgn} (h : t.DriveOk) {d : Drive}
    (hd : d.due = t.edgeCount + 1 + BitVec.ofNat 16 t.delay) {i : Nat} {x : Drive}
    (hx : ((t.drives ++ [d]).filter (fun y => decide (y.due ≠ t.edgeCount + 1))).reverse[i]? = some x) :
    1 ≤ (x.due - (t.edgeCount + 1)).toNat ∧ (x.due - (t.edgeCount + 1)).toNat + i ≤ 63 := by
  rw [← List.filter_reverse, List.reverse_append, List.reverse_singleton] at hx
  obtain ⟨hne, j, hij, hj⟩ := exists_le_of_filter_getElem? hx
  have hne : x.due ≠ t.edgeCount + 1 := by simpa using hne
  have hdelay := h.delay
  cases j with
  | zero =>
    obtain rfl : d = x := by simpa using hj
    rw [hd] at hne ⊢
    bv_omega
  | succ j =>
    have hdue := h.due j x (by simpa using hj)
    bv_omega

/-! ### The settings (R89, R90) -/

/-- The settings lie within R89's table. -/
structure Settings.InTable (st : Settings) : Prop where
  dots     : 256 ≤ st.dots ∧ st.dots ≤ 2047
  vOffset  : st.vOffset ≤ 15
  kp       : st.kp ≤ 8
  ki       : 4 ≤ st.ki ∧ st.ki ≤ 14
  slew     : 1 ≤ st.slew ∧ st.slew ≤ 64
  tol      : 1 ≤ st.captureTol ∧ st.captureTol ≤ 255
  fly      : 12 ≤ st.flyLimit ∧ st.flyLimit ≤ 63
  hold     : 1 ≤ st.holdLimit ∧ st.holdLimit ≤ 255
  hTarget  : st.hTarget.natAbs ≤ Standard.s625.half
  coast    : st.coastFirst ≤ 329 ∧ st.coastLast ≤ 329
  floor    : 8 ≤ st.floor ∧ st.floor ≤ 128
  window   : 1 ≤ st.switchWin ∧ st.switchWin ≤ 15
  scan     : 4 ≤ st.scanLines ∧ st.scanLines ≤ 32
  pipe     : st.pipeDelay ≤ 63
  prot     : st.protect ≤ 4

/-- A forced standard mode has its standard at work (R14). -/
def State.Forced (s : State) : Prop := ∀ d, s.cue.settings.stdMode = .force d → s.rfe.working = d

theorem clampN_le {x lo hi : Nat} (h : lo ≤ hi) : clampN x lo hi ≤ hi := (clampN_bounds h).2

theorem half_le (d : Standard) : d.half ≤ Standard.s625.half := by cases d <;> decide

/-- The settings of every load lie within the table (R90). -/
theorem settingsOf_inTable (ws : List Word) (d : Standard) : (settingsOf ws d).InTable where
  dots := clampN_bounds (by decide)
  vOffset := clampN_le (lo := 0) (hi := 15) (by decide)
  kp := clampN_le (lo := 0) (hi := 8) (by decide)
  ki := clampN_bounds (by decide)
  slew := clampN_bounds (by decide)
  tol := clampN_bounds (by decide)
  fly := clampN_bounds (by decide)
  hold := clampN_bounds (by decide)
  hTarget := (clampI_half _ _).trans (half_le _)
  coast := ⟨clampN_le (lo := 0) (hi := 329) (by decide), clampN_le (lo := 0) (hi := 329) (by decide)⟩
  floor := clampN_bounds (by decide)
  window := clampN_bounds (by decide)
  scan := clampN_bounds (by decide)
  pipe := clampN_le (lo := 0) (hi := 63) (by decide)
  prot := clampN_le (lo := 0) (hi := 4) (by decide)

theorem Settings.default_inTable (straps : Straps) : (Settings.default straps).InTable := by
  constructor <;> simp [Settings.default, Standard.half, Standard.nominal]

/-! ### The whole state -/

structure Rfe.Ok (r : Rfe) : Prop where
  absence : r.absence ≤ 15
  differ  : r.differ ≤ 2

def Tst.Ok (t : Tst) : Prop := ∀ r, t.count = some r → r.excess ≤ 1023

/-- The ranges of `State.Inv`, but for main memory, the key levels and the forced standard. -/
structure State.Ranges (s : State) : Prop where
  rfe      : s.rfe.Ok
  lll      : s.lll.Ok s.rfe.working
  fal      : s.fal.Ok
  field    : s.tgn.FieldOk
  drive    : s.tgn.DriveOk
  settings : s.cue.settings.InTable
  due      : s.cue.due.length ≤ 16
  rpw      : s.rpw.Ok
  tst      : s.tst.Ok

/-- The invariant is its parts by block. -/
theorem State.inv_iff (s : State) : s.Inv ↔ s.mem.wf ∧ s.KeyOk ∧ s.Ranges ∧ s.Forced := by
  constructor
  · rintro ⟨hmem, hkey, hset, hloop, hfield, hdrive, hcount⟩
    refine ⟨hmem, hkey, ?_, hset.forced⟩
    exact {
      rfe := ⟨hcount.absence, hcount.differ⟩
      lll := { hloop with stray := hcount.stray }
      fal := ⟨hfield.shift, hcount.miss, hcount.broad⟩
      field := ⟨hfield.line.1, hfield.line.2, hfield.length⟩
      drive := ⟨hdrive.delay, hdrive.due⟩
      settings := { hset with }
      due := hcount.due
      rpw := ⟨hcount.fifo, hcount.withheld, hcount.gap, hcount.stamp⟩
      tst := hcount.excess }
  · rintro ⟨hmem, hkey, hr, hforced⟩
    exact {
      mem := hmem
      key := hkey
      settings := { hr.settings with forced := hforced }
      loop := { hr.lll with }
      field := ⟨⟨hr.field.first, hr.field.last⟩, hr.field.length, hr.fal.shift⟩
      drive := ⟨hr.drive.delay, hr.drive.count, hr.drive.due⟩
      count := {
        fifo := hr.rpw.fifo, withheld := hr.rpw.withheld, gap := hr.rpw.gap, stamp := hr.rpw.stamp
        absence := hr.rfe.absence, excess := hr.tst, due := hr.due, differ := hr.rfe.differ
        miss := hr.fal.miss, stray := hr.lll.stray, broad := hr.fal.broad } }

namespace State.Ranges

variable {s t : State}

/-- What leaves RFE, LLL, FAL, TGN and TST, and the settings, keeps the ranges where it keeps the due list's and
the FIFO's. -/
theorem of_eq (h : s.Ranges) (hrfe : t.rfe = s.rfe) (hlll : t.lll = s.lll) (hfal : t.fal = s.fal)
    (htgn : t.tgn = s.tgn) (hset : t.cue.settings = s.cue.settings) (hdue : t.cue.due.length ≤ 16)
    (hrpw : t.rpw.Ok) (htst : t.tst = s.tst) : t.Ranges where
  rfe := hrfe ▸ h.rfe
  lll := by rw [hlll, hrfe]; exact h.lll
  fal := hfal ▸ h.fal
  field := htgn ▸ h.field
  drive := htgn ▸ h.drive
  settings := hset ▸ h.settings
  due := hdue
  rpw := hrpw
  tst := htst ▸ h.tst

/-- A new tick, and an input's own state, are in no range. -/
theorem withRfe (h : s.Ranges) (r : Rfe) (habs : r.absence = s.rfe.absence) (hdiff : r.differ = s.rfe.differ)
    (hwork : r.working = s.rfe.working) : ({ s with rfe := r } : State).Ranges :=
  { h with
    rfe := ⟨habs ▸ h.rfe.absence, hdiff ▸ h.rfe.differ⟩
    lll := by
      show s.lll.Ok r.working
      rw [hwork]
      exact h.lll }

theorem atTick (h : s.Ranges) (t : Tick) : (s.atTick t).Ranges := h.withRfe _ rfl rfl rfl

theorem setInput (h : s.Ranges) (i : Input) (r : RefInput) : (s.setInput i r).Ranges := by
  cases i <;> exact h.withRfe _ rfl rfl rfl

theorem slicerRestart (h : s.Ranges) : (slicerRestart s).Ranges := h.withRfe _ rfl rfl rfl

theorem produce (h : s.Ranges) (r : Report) : (produce r s).Ranges :=
  { h with rpw := Rpw.produce_ok _ h.rpw }

theorem produceAll (h : s.Ranges) (rs : List Report) : (produceAll rs s).Ranges := by
  induction rs generalizing s with
  | nil => exact h
  | cons r rs ih => exact ih (h.produce r)

theorem latch (h : s.Ranges) (c : Cause) : (latch c s).Ranges := { h with rpw := Rpw.latch_ok c h.rpw }

theorem withLoop (h : s.Ranges) {r : Lll × List Report} (hr : r.1.Ok s.rfe.working) : (s.withLoop r).Ranges :=
  produceAll (s := { s with lll := r.1 }) { h with lll := hr } r.2

theorem falSeek (h : s.Ranges) (why : LostReason) : (falSeek why s).Ranges :=
  produceAll (s := { s with fal := (s.fal.enterSeek why).1 })
    { h with fal := Fal.enterSeek_ok why (.inr h.fal) } _

theorem sourceNotice (h : s.Ranges) : (sourceNotice s).Ranges :=
  (h.withLoop (Lll.switch_ok h.lll)).falSeek .switch

theorem changeActive (h : s.Ranges) (i : Input) (why : SwitchReason) : (changeActive i why s).Ranges := by
  let rfe := { s.rfe with active := i, differ := 0, warned := false }
  have hrfe : ({ s with rfe := rfe } : State).Ranges :=
    { h with rfe := ⟨h.rfe.absence, Nat.zero_le _⟩ }
  exact ((hrfe.produce _).latch _).sourceNotice

/-- A change of standard brings the loop into the new standard's ranges (R43). -/
theorem changeStandard (h : s.Ranges) (d : Standard) (forced : Bool) : (changeStandard d forced s).Ranges := by
  let s1 := Machine.produce (repStandard d s.rfe.active forced) { s with rfe := { s.rfe with working := d } }
  have hloop : ({ s1 with lll := (s1.lll.standard d).1 } : State).Ranges :=
    { h with
      rfe := ⟨h.rfe.absence, h.rfe.differ⟩
      lll := Lll.standard_ok _ _
      rpw := Rpw.produce_ok _ h.rpw }
  exact (hloop.produceAll _).falSeek .standard

theorem policyArrival (h : s.Ranges) (old new : Policy) : (policyArrival old new s).Ranges := by
  unfold Machine.policyArrival
  split
  · exact h
  · split
    · exact { h with rfe := ⟨Nat.zero_le _, h.rfe.differ⟩ }
    · split
      · exact h
      · exact h.changeActive _ _

theorem stdModeLoad (h : s.Ranges) (old new : StdMode) : (stdModeLoad old new s).Ranges := by
  have hrfe : ({ s with rfe := { s.rfe with differ := 0, warned := false } } : State).Ranges :=
    { h with rfe := ⟨h.rfe.absence, Nat.zero_le _⟩ }
  unfold Machine.stdModeLoad
  split
  · exact h
  · dsimp only
    split
    · exact hrfe
    · split
      · exact hrfe
      · exact hrfe.changeStandard _ _

theorem tstWatch (h : s.Ranges) : (tstWatch s).Ranges := by
  unfold Machine.tstWatch
  split
  · split
    · exact (produce (s := { s with tst := { s.tst with lockTime := none } }) { h with } _)
    · exact h
  · exact h

theorem lineArrival (h : s.Ranges) (edge : Pu) (t : Tick) : (lineArrival edge t s).Ranges :=
  (h.withLoop (Lll.arrive_ok _ _ _ _ h.lll)).tstWatch

/-- A BROAD arrival keeps the broad record, the shift and the field's length in their ranges (R46, R51). -/
theorem broadArrival (h : s.Ranges) (edge : Pu) : (broadArrival edge s).Ranges := by
  unfold Machine.broadArrival
  dsimp only
  cases hstep : s.fal.broadStep s.lll edge with
  | ignored => exact h
  | opened =>
    exact { h with fal := ⟨h.fal.shift, h.fal.miss, fun r hr => by cases hr; exact ⟨Nat.le_refl 1, Nat.le_succ 1⟩⟩ }
  | counted =>
    refine { h with fal := ⟨h.fal.shift, h.fal.miss, fun r hr => ?_⟩ }
    simp only [Option.map_eq_some_iff] at hr
    obtain ⟨b, hb, rfl⟩ := hr
    have hcount := h.fal.broad b hb
    have hnot : b.count + 1 ≠ 3 := by
      intro h3
      simp [Fal.broadStep, hb, h3] at hstep
      split at hstep
      · cases hstep
      · split at hstep <;> cases hstep
    dsimp only
    omega
  | detected r =>
    dsimp only
    split
    · have hf : ({ s.fal with broad := none, lockout := some r.first } : Fal).Ok :=
        ⟨h.fal.shift, h.fal.miss, nofun⟩
      have ha := Fal.handleStart_ok (c := s.fieldCtx) r hf h.field.last h.field.length
      let a := Fal.handleStart { s.fal with broad := none, lockout := some r.first } s.fieldCtx r
      exact produceAll (s := { s with fal := a.fal, tgn := { s.tgn with length := a.length } })
        { h with
          fal := ha.fal
          field := ⟨h.field.first, ha.line, ha.length⟩
          drive := ⟨h.drive.delay, h.drive.due⟩ } _
    · exact { h with fal := ⟨h.fal.shift, h.fal.miss, nofun⟩ }

theorem broadPulse (h : s.Ranges) (edge : Pu) : (broadPulse edge s).Ranges := (h.broadArrival edge).tstWatch

theorem missCheck (h : s.Ranges) : (missCheck s).Ranges := by
  have hmiss := h.fal.miss
  unfold Machine.missCheck
  split
  · exact h
  split
  · exact { h with fal := ⟨h.fal.shift, h.fal.miss, h.fal.broad⟩ }
  split
  · exact { h with fal := ⟨h.fal.shift, Nat.zero_le _, h.fal.broad⟩ }
  split
  · let f := { s.fal with miss := s.fal.miss + 1 }
    have hseek : (f.enterSeek .missed).1.Ok := by
      refine ⟨fun _ => ?_, Nat.zero_le _, h.fal.broad⟩
      simp [Fal.enterSeek]
    exact produceAll (s := { s with fal := (f.enterSeek .missed).1 }) { h with fal := hseek } _
  · next hlim => exact { h with fal := ⟨h.fal.shift, by dsimp only; omega, h.fal.broad⟩ }

theorem vOffsetChange (h : s.Ranges) (old : Nat) : (vOffsetChange old s).Ranges := by
  unfold Machine.vOffsetChange
  split
  · exact produce (s := { s with fal := { s.fal with field := .align, miss := 0 } })
      { h with fal := ⟨h.fal.shift, Nat.zero_le _, h.fal.broad⟩ } _
  · exact h

/-! ### The presence window (R8 to R15) -/

theorem windowJudge (h : s.Ranges) : (windowJudge s).Ranges := h.withRfe _ rfl rfl rfl

theorem produceLost (h : s.Ranges) (i : Input) : (produceLost i s).Ranges := (h.produce _).setInput _ _

theorem windowReports (h : s.Ranges) (i : Input) (was : Bool) : (windowReports i was s).Ranges := by
  have hretry : (if (s.input i).lossLatch then Machine.produceLost i s else s).Ranges := by
    split
    · exact h.produceLost i
    · exact h
  unfold Machine.windowReports
  generalize (if (s.input i).lossLatch then Machine.produceLost i s else s) = s1 at hretry
  dsimp only
  split
  · exact hretry
  · split
    · exact (hretry.produceLost i).latch _
    · exact (hretry.produce _).latch _

theorem windowPolicy (h : s.Ranges) : (windowPolicy s).Ranges := by
  have habs : ∀ n ≤ 15, ({ s with rfe := { s.rfe with absence := n } } : State).Ranges := fun n hn =>
    { h with rfe := ⟨hn, h.rfe.differ⟩ }
  unfold Machine.windowPolicy
  split
  · exact h
  · split
    · exact habs 0 (Nat.zero_le _)
    · dsimp only
      split
      · exact (habs 0 (Nat.zero_le _)).changeActive _ _
      · exact habs _ (satSucc_le h.rfe.absence)

theorem windowStandard (h : s.Ranges) : (windowStandard s).Ranges := by
  have hdiff : ∀ n ≤ 2, ({ s with rfe := { s.rfe with differ := n } } : State).Ranges := fun n hn =>
    { h with rfe := ⟨h.rfe.absence, hn⟩ }
  unfold Machine.windowStandard
  dsimp only
  split
  · split
    · exact hdiff 0 (Nat.zero_le _)
    · split
      · exact hdiff 0 (Nat.zero_le _)
      · split
        · exact (hdiff 0 (Nat.zero_le _)).changeStandard _ _
        · exact hdiff _ (by omega)
  · split
    · exact h
    · split
      · exact h.withRfe _ rfl rfl rfl
      · split
        · exact h
        · exact (h.withRfe { s.rfe with warned := true } rfl rfl rfl).produce _

theorem windowWork (h : s.Ranges) : (windowWork s).Ranges :=
  (((h.windowJudge.windowReports .a _).windowReports .b _).windowPolicy).windowStandard

end State.Ranges

end Sys2Proof.Machine
end

section
/-!
PROOFS. The ranges of `State.Inv` through loads, cues, line ends and boundaries.
-/

namespace Sys2Proof.Machine

namespace State.Ranges

variable {s t : State}

/-! ### The port, the writer and the engine's own state -/

theorem withMpt (h : s.Ranges) (m : Mpt) : ({ s with mpt := m } : State).Ranges := { h with }

theorem withCue (h : s.Ranges) {c : Cue} (hset : c.settings = s.cue.settings)
    (hdue : c.due = s.cue.due ∨ c.due = []) : ({ s with cue := c } : State).Ranges := by
  refine h.of_eq rfl rfl rfl rfl hset ?_ h.rpw rfl
  rcases hdue with hdue | hdue
  · show c.due.length ≤ 16
    rw [hdue]
    exact h.due
  · show c.due.length ≤ 16
    rw [hdue]
    exact Nat.zero_le _

theorem withLll (h : s.Ranges) {l : Lll} (hl : l.Ok s.rfe.working) : ({ s with lll := l } : State).Ranges :=
  { h with lll := hl }

theorem withSettings (h : s.Ranges) {st : Settings} (hst : st.InTable) :
    ({ s with cue := { s.cue with settings := st } } : State).Ranges :=
  { h with settings := hst }

theorem withRpw (h : s.Ranges) {r : Rpw} (hr : r.Ok) : ({ s with rpw := r } : State).Ranges := { h with rpw := hr }

theorem shared : SharedKeeps State.Ranges where
  produce r _ h := h.produce r
  latch c _ h := h.latch c
  mpt m _ h := h.withMpt m
  cue _ _ hset hdue h := h.withCue hset hdue.due

theorem rpwNext (h : s.Ranges) : (rpwNext s).Ranges := by
  unfold Machine.rpwNext
  split
  · exact h
  split
  · exact (h.withRpw (r := { s.rpw with putDue := false }) (h.rpw.of_eq rfl rfl rfl rfl)).withMpt _
  split
  · exact (h.withRpw (r := { s.rpw with getDue := false }) (h.rpw.of_eq rfl rfl rfl rfl)).withMpt _
  · exact h

theorem boundaryGet (h : s.Ranges) : (boundaryGet s).Ranges := by
  unfold Machine.boundaryGet
  split
  · exact h
  · exact (h.withRpw (r := { s.rpw with getDue := true }) (h.rpw.of_eq rfl rfl rfl rfl)).rpwNext

theorem postStatus (h : s.Ranges) : (postStatus s).Ranges := by
  unfold Machine.postStatus
  split
  · split
    · exact h
    · exact h.of_eq rfl rfl rfl rfl rfl h.due (h.rpw.of_eq rfl rfl rfl rfl) rfl
  · exact h

theorem statusCopy (h : s.Ranges) (n : Nat) : (statusCopy n s).Ranges := by
  unfold Machine.statusCopy
  split
  · refine State.Ranges.postStatus ?_
    exact h.of_eq rfl rfl rfl rfl rfl h.due (h.rpw.of_eq rfl rfl rfl rfl) rfl
  · exact h

theorem fieldstat (h : s.Ranges) : (fieldstat s).Ranges := by
  unfold Machine.fieldstat
  split
  · exact h.produce _
  · exact h

theorem dropWriters (h : s.Ranges) : (dropWriters s).Ranges :=
  h.of_eq rfl rfl rfl rfl rfl h.due (h.rpw.of_eq rfl rfl rfl rfl) rfl

theorem abortLoad (h : s.Ranges) (w : AbortReason) : (abortLoad w s).Ranges := by
  unfold Machine.abortLoad
  split
  · exact produce (s := closeLoad s) { h with } _
  · exact h

theorem abortLoading (h : s.Ranges) (w : AbortReason) : (abortLoading w s).Ranges := by
  unfold Machine.abortLoading
  split
  · exact h.abortLoad w
  · exact h

theorem linkFault (h : s.Ranges) (tag : Word) (b : Bool) (n : Nat) : (linkFault tag b n s).Ranges := by
  have hdrop : (dropCueRequests (Machine.dropWriters s)).Ranges := h.dropWriters.withMpt _
  let s1 := enterHalted .link (dropCueRequests (Machine.dropWriters s))
  have h1 : s1.Ranges := shared.enterHalted .link hdrop
  let s2 := { s1 with cue := { s1.cue with linkValid := false, startup := false } }
  have h2 : s2.Ranges := h1.withCue rfl (.inl rfl)
  exact ((h2.latch .link).produce (repHaltLink tag b n s2.cue.take)).abortLoading .link

/-! ### Loads (R81 to R91) -/

theorem adoptDescriptors (h : s.Ranges) (x : Image) (take put : Nat) : (adoptDescriptors x take put s).Ranges :=
  h.of_eq rfl rfl rfl rfl rfl h.due (h.rpw.of_eq rfl rfl rfl rfl) rfl

theorem checkIndices (h : s.Ranges) (tag : Word) : (checkIndices tag s).Ranges := by
  have htake : (if s.cue.qLen ≤ s.cue.take then
      Machine.postTake (Machine.produce (repWarnIndex tag 0 s.cue.take s.cue.qLen)
        { s with cue := { s.cue with take := 0 } }) else s).Ranges := by
    split
    · exact shared.postTake ((h.withCue (c := { s.cue with take := 0 }) rfl (.inl rfl)).produce _)
    · exact h
  unfold Machine.checkIndices
  generalize (if s.cue.qLen ≤ s.cue.take then _ else s) = s1 at htake
  dsimp only
  split
  · exact (htake.withRpw (r := { s1.rpw with put := 0, putDue := true })
      (htake.rpw.of_eq rfl rfl rfl rfl)).produce _
  · exact htake

theorem testModeLoad (h : s.Ranges) (m : TestMode) : (testModeLoad m s).Ranges := by
  unfold Machine.testModeLoad
  split
  · exact h
  split
  · exact sourceNotice (s := { s with tst := _ })
      { h with tst := fun r hr => by cases hr; exact Nat.zero_le _ }
  split
  · exact sourceNotice (s := { s with tst := _ }) { h with tst := nofun }
  · exact { h with tst := h.tst }

end State.Ranges

/-- A load of a standard mode leaves the forced standard at work, or the working one under AUTO (R14, R90). -/
theorem stdModeLoad_working {old new : StdMode} {s : State}
    (hold : ∀ d, old = .force d → s.rfe.working = d) :
    (stdModeLoad old new s).rfe.working = new.leaves s.rfe.working := by
  unfold stdModeLoad
  split
  · next h =>
    subst h
    cases new with
    | auto => rfl
    | force d => exact hold d rfl
  · dsimp only
    split
    · rfl
    · next d =>
      split
      · next h => exact h
      · simp [changeStandard, StdMode.leaves]

theorem policyArrival_working (old new : Policy) (s : State) :
    (policyArrival old new s).rfe.working = s.rfe.working := by
  unfold policyArrival
  split
  · rfl
  · split
    · rfl
    · split
      · rfl
      · simp [changeActive]

theorem loadEffects_working {old : Settings} {s : State}
    (hold : ∀ d, old.stdMode = .force d → s.rfe.working = d) :
    (loadEffects old s).rfe.working = s.cue.settings.stdMode.leaves s.rfe.working := by
  have hrestart : (if s.cue.settings.restart then slicerRestart s else s).rfe.working = s.rfe.working := by
    split <;> rfl
  unfold loadEffects
  simp only [testModeLoad_frame, vOffsetChange_frame, policyArrival_working]
  rw [stdModeLoad_working (by rw [hrestart]; exact hold), hrestart]

theorem State.Ranges.loadEffects {old : Settings} {s : State} (h : s.Ranges)
    (hold : ∀ d, old.stdMode = .force d → s.rfe.working = d)
    (htarget : s.cue.settings.hTarget.natAbs ≤ (s.cue.settings.stdMode.leaves s.rfe.working).half) :
    (loadEffects old s).Ranges := by
  have hrestart : (if s.cue.settings.restart then Machine.slicerRestart s else s).Ranges := by
    split
    · exact h.slicerRestart
    · exact h
  have hwork : (if s.cue.settings.restart then Machine.slicerRestart s else s).rfe.working = s.rfe.working := by
    split <;> rfl
  have hpolicy := (hrestart.stdModeLoad old.stdMode s.cue.settings.stdMode).policyArrival old.policy
    s.cue.settings.policy
  let s3 := Machine.policyArrival old.policy s.cue.settings.policy
    (Machine.stdModeLoad old.stdMode s.cue.settings.stdMode
      (if s.cue.settings.restart then Machine.slicerRestart s else s))
  have hhalf : s.cue.settings.hTarget.natAbs ≤ s3.rfe.working.half := by
    rw [policyArrival_working, stdModeLoad_working (by rw [hwork]; exact hold), hwork]
    exact htarget
  have hset := hpolicy.withLll (l := { s3.lll with hTarget := s.cue.settings.hTarget })
    { hpolicy.lll with hTarget := hhalf }
  exact (hset.vOffsetChange old.vOffset).testModeLoad s.cue.settings.testMode

theorem linkFault_settings (t : Word) (b : Bool) (n : Nat) (s : State) :
    (linkFault t b n s).cue.settings = s.cue.settings := by
  simp [linkFault, enterHalted]

/-- The ranges and the forced standard: what every command keeps beside main memory and the key levels. -/
def State.InRange (s : State) : Prop := s.Ranges ∧ s.Forced

namespace State.InRange

variable {s : State}

/-- A work that keeps the ranges, the working standard and the standard mode. -/
theorem of_ranges {t : State} (h : s.InRange) (ht : t.Ranges) (hwork : t.rfe.working = s.rfe.working)
    (hmode : t.cue.settings.stdMode = s.cue.settings.stdMode) : t.InRange :=
  ⟨ht, fun d hd => hwork.trans (h.2 d (hmode ▸ hd))⟩

theorem shared : SharedKeeps State.InRange where
  produce r _ h := h.of_ranges (h.1.produce r) rfl rfl
  latch c _ h := h.of_ranges (h.1.latch c) rfl rfl
  mpt m _ h := h.of_ranges (h.1.withMpt m) rfl rfl
  cue _ _ hset hdue h := h.of_ranges (h.1.withCue hset hdue.due) rfl (congrArg Settings.stdMode hset)

/-- An adopted load leaves clamped settings, an H target in the range of the standard it leaves, and a forced
standard at work (R13, R14, R90). -/
theorem adoptLoad (h : s.InRange) (tag : Word) (x : Image) (take put : Nat) : (adoptLoad tag x take put s).InRange := by
  have hcheck := (h.1.adoptDescriptors x take put).checkIndices tag
  have hrfe : (checkIndices tag (adoptDescriptors x take put s)).rfe = s.rfe := by simp
  unfold Machine.adoptLoad
  dsimp only
  generalize checkIndices tag (adoptDescriptors x take put s) = s1 at hcheck hrfe
  let st := settingsOf x.settings s1.rfe.working
  let s2 := produceAll (settingWarnings tag x.settings s1.rfe.working)
    { s1 with cue := { s1.cue with settings := st } }
  have hs2 : s2.Ranges := State.Ranges.produceAll (s := { s1 with cue := { s1.cue with settings := st } })
    { hcheck with settings := settingsOf_inTable _ _ } _
  have hrfe2 : s2.rfe = s1.rfe := by simp [s2]
  have hset2 : s2.cue.settings = st := by simp [s2]
  have hold : ∀ d, s.cue.settings.stdMode = .force d → s2.rfe.working = d := fun d hd => by
    rw [hrfe2, hrfe]
    exact h.2 d hd
  have htarget : s2.cue.settings.hTarget.natAbs ≤ (s2.cue.settings.stdMode.leaves s2.rfe.working).half := by
    rw [hset2, hrfe2]
    exact clampI_half _ _
  have heffects := hs2.loadEffects hold htarget
  have hwork := loadEffects_working hold
  let s3 := loadEffects s.cue.settings s2
  have hlast := heffects.withCue (c := { s3.cue with linkValid := true, startup := false, masks := st.faultMask })
    rfl (.inl rfl)
  refine ⟨hlast.rpwNext, fun d hd => ?_⟩
  simp only [rpwNext_frame, loadEffects_frame] at hd
  simp only [rpwNext_frame]
  show (loadEffects s.cue.settings s2).rfe.working = d
  have hd : s2.cue.settings.stdMode = .force d := hd
  rw [hwork, hd]
  rfl

/-! ### The cues -/

theorem onFault (h : s.InRange) {k : FaultKind} {c : Copy} {f : State → CopyResult} (hf : (f s).1.InRange) :
    (onFault k c s f).1.InRange := shared.onFault h hf

theorem produceAll (h : s.InRange) (rs : List Report) : (produceAll rs s).InRange :=
  h.of_ranges (h.1.produceAll rs) (by simp) (by simp)

theorem withWsk (h : s.InRange) (w : Wsk) : ({ s with wsk := w } : State).InRange :=
  h.of_ranges { h.1 with } rfl rfl

theorem stackUnder (h : s.InRange) {c : Copy} {i : Fin 8} {f : State → CopyResult} (hf : (f s).1.InRange) :
    (stackUnder c i s f).1.InRange := by
  unfold Machine.stackUnder
  dsimp only
  split
  · exact h.onFault (shared.produce _ _ h)
  · exact hf

theorem rangeCheck (h : s.InRange) {c : Copy} {n : Nat} {fs : List GeoField} {f : State → CopyResult}
    (hf : ∀ t, t.InRange → (f t).1.InRange) : (rangeCheck c n fs s f).1.InRange := by
  unfold Machine.rangeCheck
  split
  · exact hf s h
  · exact h.onFault (hf _ (shared.produce _ _ h))

theorem lockdownCheck (h : s.InRange) {c : Copy} {f : State → CopyResult} (hf : (f s).1.InRange) :
    (lockdownCheck c s f).1.InRange := by
  unfold Machine.lockdownCheck
  split
  · exact h.onFault (shared.produce _ _ h)
  · exact hf

theorem cuePush (h : s.InRange) (c : Copy) : (cuePush c s).1.InRange := by
  unfold Machine.cuePush
  dsimp only
  split
  · exact h.onFault (shared.produce _ _ h)
  · exact h.rangeCheck fun t ht => ht.withWsk _

theorem cueExch (h : s.InRange) (c : Copy) : (cueExch c s).1.InRange := by
  unfold Machine.cueExch
  dsimp only
  split
  · exact h.stackUnder (h.withWsk _)
  · exact h.withWsk _

theorem cueEdit (h : s.InRange) (c : Copy) : (cueEdit c s).1.InRange := by
  unfold Machine.cueEdit
  dsimp only
  split
  · exact h
  · exact h.stackUnder (h.rangeCheck fun t ht => ht.withWsk _)

theorem deferLoad (h : s.InRange) (isIdle : Bool) (c : Copy) : (deferLoad isIdle c s).1.InRange := by
  unfold Machine.deferLoad
  split
  · exact shared.produce _ _ h
  split
  · exact h
  · exact shared.produce _ _ (shared.cue _ _ rfl (.same rfl rfl rfl) h)

theorem cueKeyload (h : s.InRange) (isIdle : Bool) (c : Copy) : (cueKeyload isIdle c s).1.InRange := by
  have busy := h.onFault (k := .busy) (c := c) (h.deferLoad isIdle c)
  unfold Machine.cueKeyload
  dsimp only
  split
  · split
    · exact h
    · split
      · exact shared.produce _ (closeLoad s) (h.of_ranges { h.1 with } rfl rfl)
      · exact busy
  · split
    · exact h.onFault (shared.produce _ _ h)
    · split
      · exact busy
      · exact h.of_ranges { h.1 with } rfl rfl

/-- PHASE brings in an H target, a V offset and a slew that passed their checks (R121). -/
theorem cuePhase (h : s.InRange) {c : Copy} (hv : c.words.w5.toNat ≤ 15)
    (hslew : 1 ≤ c.words.w6.toNat ∧ c.words.w6.toNat ≤ 64) : (cuePhase c s).1.InRange := by
  refine h.lockdownCheck ?_
  dsimp only
  split
  · exact h.onFault (shared.produce _ _ h)
  · next hh =>
    have hset := h.1.withSettings
      (st := { s.cue.settings with slew := c.words.w6.toNat, vOffset := c.words.w5.toNat })
      { h.1.settings with vOffset := hv, slew := hslew }
    have hloop := hset.withLll (l := { s.lll with hTarget := c.words.w4.toInt })
      { h.1.lll with hTarget := Nat.le_of_not_lt hh }
    refine h.of_ranges (hloop.vOffsetChange s.cue.settings.vOffset) ?_ ?_
    · rw [(vOffsetChange_frame _ _).1]
    · rw [(vOffsetChange_frame _ _).2.2.2.2.1]

theorem cueSelect (h : s.InRange) (isIdle : Bool) (c : Copy) : (cueSelect isIdle c s).1.InRange := by
  refine h.lockdownCheck ?_
  dsimp only
  have hpolicy : ({ s with cue := { s.cue with settings :=
      { s.cue.settings with policy := policyOf c.words.w4.toNat } } } : State).InRange :=
    h.of_ranges (h.1.withSettings { h.1.settings with }) rfl rfl
  have hdone := shared.reportDone c.words (shared.retire isIdle hpolicy)
  exact hdone.of_ranges (hdone.1.policyArrival _ _) (policyArrival_working _ _ _)
    (by rw [(policyArrival_frame _ _ _).2.2.1])

theorem cueSettings (h : s.InRange) (isIdle : Bool) (c : Copy) : (cueSettings isIdle c s).1.InRange := by
  refine h.lockdownCheck ?_
  dsimp only
  split
  · exact h
  · split
    · exact h.of_ranges (h.1.linkFault _ _ _) (by simp) (by simp [linkFault_settings])
    · cases isIdle with
      | true => exact shared.reportDone _ (h.adoptLoad _ _ _ _)
      | false => exact shared.reportDone _ (shared.writeTake ((shared.advanceTake h).adoptLoad _ _ _ _))

theorem cueWaitlock (h : s.InRange) (isIdle : Bool) (c : Copy) : (cueWaitlock isIdle c s).1.InRange := by
  unfold Machine.cueWaitlock
  dsimp only
  generalize (if c.words.w4.toNat = 0 then WaitCond.line else .field) = cond
  split
  · exact h
  · exact shared.cue _ _ rfl (.same rfl rfl rfl) h

theorem cueSnapshot (h : s.InRange) (c : Copy) : (cueSnapshot c s).1.InRange := by
  unfold Machine.cueSnapshot
  dsimp only
  split
  · exact shared.cue _ _ rfl (.same rfl rfl rfl) (h.produceAll _)
  · exact h.produceAll _

/-- Every cue whose fields pass their checks keeps the ranges. -/
theorem engine : EngineKeeps State.InRange where
  toSharedKeeps := shared
  kind isIdle k c s hbad hk h := by
    have hfields := CueWords.field_ok hbad hk
    cases k with
    | none | halt => exact h
    | mark => exact shared.produce _ _ h
    | push => exact h.cuePush c
    | exch => exact h.cueExch c
    | edit => exact h.cueEdit c
    | pop | drop | show_ | park | fade => exact h.stackUnder (h.withWsk _)
    | keyload => exact h.cueKeyload isIdle c
    | phase =>
      simp only [CueWords.fields, opField, List.mem_cons, List.not_mem_nil, or_false, forall_eq_or_imp,
        forall_eq, decide_eq_true_eq] at hfields
      exact h.cuePhase hfields.1 hfields.2
    | select => exact h.cueSelect isIdle c
    | settings => exact h.cueSettings isIdle c
    | output =>
      exact h.of_ranges { h.1 with
        field := ⟨h.1.field.first, h.1.field.last, h.1.field.length⟩
        drive := ⟨h.1.drive.delay, h.1.drive.due⟩ } rfl rfl
    | waitlock => exact h.cueWaitlock isIdle c
    | snapshot => exact h.cueSnapshot c

end State.InRange

end Sys2Proof.Machine
end

section
/-!
PROOFS. Every step keeps `State.Inv`: the line ends and boundaries, the dot edges, the memory traffic and the
resets.
-/

namespace Sys2Proof.Machine

namespace State.Ranges

variable {s : State}

/-! ### The line that ends (R23 to R35, R55) -/

theorem takeOffer (h : s.Ranges) (o : Option Int) : (takeOffer o s).Ranges := by
  unfold Machine.takeOffer
  split
  · next r hr =>
    split
    · refine { h with tst := fun x hx => ?_ }
      cases hx
      exact satSucc_le (h.tst r hr)
    · exact h
  · exact h

theorem evaluateLine (h : s.Ranges) : (evaluateLine s).s.Ranges :=
  ((h.withLll (Lll.evaluate_ok s.tgn.line h.lll h.settings.fly.2)).produceAll _).takeOffer _

theorem endLine (h : s.Ranges) (missFirst : Bool) : (endLine missFirst s).s.Ranges := by
  unfold Machine.endLine
  split
  · split
    · exact h.missCheck.evaluateLine
    · exact h.evaluateLine.missCheck
  · exact h.evaluateLine

theorem lineInstant (h : s.Ranges) (x : LineInputs) : (lineInstant x s).Ranges :=
  (h.atTick s.lineEndTick).of_eq rfl rfl rfl rfl rfl h.due h.rpw rfl

theorem gridStep (h : s.Ranges) (x : LineInputs) : (gridStep x s).s.Ranges := by
  have hend := (h.lineInstant x).endLine x.order.missFirst
  exact hend.withLll (Lll.advance_ok _ _ hend.lll)

/-! ### The line that begins -/

/-- What keeps the field in progress, the delay and the dots to come of TGN. -/
theorem withTgn (h : s.Ranges) {t : Tgn} (hfield : t.FieldOk) (hdrive : t.DriveOk) :
    ({ s with tgn := t } : State).Ranges := { h with field := hfield, drive := hdrive }

theorem tstLineStart (h : s.Ranges) : (tstLineStart s).Ranges := by
  unfold Machine.tstLineStart
  split
  · exact { h with tst := h.tst }
  · exact h

theorem beginLine (h : s.Ranges) : (beginLine s).Ranges :=
  tstLineStart (h.withTgn ⟨h.field.first, h.field.last, h.field.length⟩ ⟨h.drive.delay, h.drive.due⟩)

theorem scanBegin (h : s.Ranges) : (scanBegin s).Ranges := by
  unfold Machine.scanBegin
  split
  · exact h.of_eq rfl rfl rfl rfl rfl h.due h.rpw rfl
  · exact h

theorem scanPoint (h : s.Ranges) : (scanPoint s).Ranges := by
  unfold Machine.scanPoint
  split
  · exact scanBegin (h.withTgn ⟨h.field.first, h.field.last, h.field.length⟩ ⟨h.drive.delay, h.drive.due⟩)
  · exact h

theorem nextLine (h : s.Ranges) (hin : s.tgn.line < s.tgn.length) : (nextLine s).Ranges :=
  h.withTgn ⟨Nat.succ_le_succ (Nat.zero_le _), hin, h.field.length⟩ ⟨h.drive.delay, h.drive.due⟩

/-! ### The field boundary (R66) -/

theorem nextField (h : s.Ranges) : (nextField s).Ranges :=
  h.withTgn ⟨Nat.le_refl 1, h.field.first.trans h.field.last, h.field.length⟩ ⟨h.drive.delay, h.drive.due⟩

theorem handStatistics (h : s.Ranges) (ended : Stamp) : (handStatistics ended s).Ranges := by
  have hstats : ({ s with lll := { s.lll with stats := {} }, rpw := { s.rpw with ended := s.lll.stats } } :
      State).Ranges :=
    { h with lll := { h.lll with }, rpw := h.rpw.of_eq rfl rfl rfl rfl }
  unfold Machine.handStatistics
  dsimp only
  split
  · split
    · refine produce (s := { s with
          lll := { s.lll with stats := {} }, rpw := { s.rpw with ended := s.lll.stats }
          tst := { s.tst with count := some ⟨s.tgn.stamp, 0⟩ } }) { hstats with tst := fun x hx => ?_ } _
      cases hx
      exact Nat.zero_le _
    · exact hstats
  · exact hstats

theorem countHoldover (h : s.Ranges) (entered : Bool) : (countHoldover entered s).Ranges := by
  unfold Machine.countHoldover
  split
  · exact h
  split
  · exact (h.withLoop (Lll.expire_ok h.lll)).falSeek .free
  · exact h.withLll { h.lll with holdover := satSucc_le h.lll.holdover }

theorem keepEnded (h : s.Ranges) : (keepEnded s).Ranges := { h with }

theorem stepFades (h : s.Ranges) : (stepFades s).Ranges := { h with }

/-- FAL's boundary work, once the new field is at its first line (R47, R50). -/
theorem falBoundary (h : s.Ranges) (hline : s.tgn.line = 1) : (falBoundary s).Ranges := by
  have hnext := Fal.nextLength_ok s.rfe.working s.tgn.parity s.lll.inHoldover h.fal
  refine { h with
    fal := ⟨hnext.2, h.fal.miss, fun r hr => ?_⟩
    field := ⟨h.field.first, ?_, hnext.1⟩
    drive := ⟨h.drive.delay, h.drive.due⟩ }
  · simp only [Machine.falBoundary, Option.map_eq_some_iff] at hr
    obtain ⟨b, hb, rfl⟩ := hr
    exact h.fal.broad b hb
  · show s.tgn.line ≤ _
    rw [hline]
    exact le_trans (by decide) hnext.1.1

theorem nolockTest (h : s.Ranges) : (nolockTest s).Ranges := by
  unfold Machine.nolockTest
  split
  · exact produce (s := { s with tst := { s.tst with lockTime := none } }) { h with tst := h.tst } _
  · exact h

theorem atPlace {α : Type} [DecidableEq α] {p here : α} {f : State → State} (h : s.Ranges)
    (hf : ∀ s : State, s.Ranges → (f s).Ranges) : (atPlace p here f s).Ranges := by
  unfold Machine.atPlace
  split
  · exact hf s h
  · exact h

theorem withKbl (h : s.Ranges) (k : Kbl) : ({ s with kbl := k } : State).Ranges := { h with }

theorem swapTest (h : s.Ranges) : (swapTest s).Ranges := by
  by_cases hr : s.kbl.loader ≠ .ready ∨ s.kbl.load = none
  case pos => rw [swapTest_of_not_ready hr]; exact h
  case neg =>
    push Not at hr
    obtain ⟨hready, hload⟩ := hr
    obtain ⟨r, hload⟩ := Option.ne_none_iff_exists'.1 hload
    cases hheld : s.swapProtected r || (s.swapGuard r).isSome with
    | true =>
      rw [swapTest_held hready hload hheld]
      split
      · exact h.withKbl _
      · exact (h.withKbl _).produce _
    | false =>
      rw [swapTest_swaps hready hload hheld]
      exact (h.withKbl _).produce _

theorem swapAndStat (h : s.Ranges) (o : WorkOrder) : (swapAndStat o s).Ranges := by
  have htst : ∀ t : State, t.Ranges → (Machine.atPlace o.tst .between Machine.nolockTest t).Ranges :=
    fun t ht => ht.atPlace fun _ => nolockTest
  have hswap : ∀ t : State, t.Ranges →
      (Machine.atPlace o.wsk .last Machine.stepFades (Machine.swapTest t)).Ranges :=
    fun t ht => ht.swapTest.atPlace fun _ => stepFades
  unfold Machine.swapAndStat
  dsimp only
  split
  · exact hswap _ (htst _ h.fieldstat)
  · exact (htst _ (hswap _ h)).atPlace fun _ => fieldstat

theorem boundaryTail (h : s.Ranges) (o : WorkOrder) (n : Nat) : (boundaryTail o n s).Ranges := by
  have htst : ∀ (p : TstPlace) (t : State), t.Ranges → (Machine.atPlace o.tst p Machine.nolockTest t).Ranges :=
    fun p t ht => ht.atPlace fun _ => nolockTest
  have hlast := htst .last _ ((htst .afterCopy _ ((htst .beforeCopy _ (h.swapAndStat o)).boundaryGet.statusCopy n)
    ).atPlace (p := o.stat) (here := .last) fun _ => fieldstat)
  exact hlast.withTgn ⟨hlast.field.first, hlast.field.last, hlast.field.length⟩
    ⟨hlast.settings.pipe, hlast.drive.due⟩

theorem boundaryHead (h : s.Ranges) (o : WorkOrder) (e : Bool) : (boundaryHead o e s).Ranges := by
  have hkeep := (h.nextField.handStatistics s.tgn.stamp |>.countHoldover e).keepEnded
  have hline : (Machine.keepEnded (Machine.countHoldover e
      (Machine.handStatistics s.tgn.stamp (Machine.nextField s)))).tgn.line = 1 := by simp [nextField_tgn]
  unfold Machine.boundaryHead
  refine atPlace (atPlace ?_ fun _ => stepFades) fun _ => nolockTest
  split
  · exact hkeep
  · exact hkeep.falBoundary hline

end State.Ranges

theorem boundaryHead_line (o : WorkOrder) (e : Bool) (s : State) : (boundaryHead o e s).tgn.line = 1 := by
  obtain ⟨n, h⟩ := boundaryHead_tgn o e s
  rw [h]

theorem engineBoundary_line (s : State) : (engineBoundary s).1.tgn.line = s.tgn.line := by
  obtain ⟨a, b, h⟩ := engineBoundary_tgn s
  rw [h]

namespace State.InRange

variable {s : State}

theorem gridStep (h : s.InRange) (x : LineInputs) : (gridStep x s).s.InRange :=
  h.of_ranges (h.1.gridStep x) (by simp [Machine.gridStep, lineInstant, State.atTick]) (by simp)

/-- Both the works before the cues and those behind them keep the working standard and the settings. -/
theorem fieldBoundary (h : s.InRange) (o : WorkOrder) (e : Bool) : (fieldBoundary o e s).InRange := by
  have hhead : (boundaryHead o e s).InRange := h.of_ranges (h.1.boundaryHead o e) (by simp) (by simp)
  have heng := engine.engineBoundary hhead
  have hline : (engineBoundary (boundaryHead o e s)).1.tgn.line = 1 := by
    rw [engineBoundary_line, boundaryHead_line]
  have hcues : (boundaryCues o (boundaryHead o e s)).1.Ranges := by
    unfold boundaryCues
    refine State.Ranges.atPlace (State.Ranges.atPlace ?_ fun _ => State.Ranges.stepFades)
      fun _ => State.Ranges.nolockTest
    split
    · exact heng.1.falBoundary hline
    · exact heng.1
  have hframe : ∀ t : State, (if o.falLate then falBoundary t else t).rfe = t.rfe ∧
      (if o.falLate then falBoundary t else t).cue = t.cue := fun t => by split <;> simp
  unfold Machine.fieldBoundary
  refine heng.of_ranges (hcues.boundaryTail o _) ?_ ?_
  · simp only [boundaryTail_frame, boundaryCues, atPlace_nolockTest_frame, atPlace_stepFades_frame, hframe]
  · simp only [boundaryTail_frame, boundaryCues, atPlace_nolockTest_frame, atPlace_stepFades_frame, hframe]

theorem lineEndWork (h : s.InRange) (x : LineInputs) : (lineEndWork x s).InRange := by
  have hgrid := h.gridStep x
  rcases Nat.lt_or_ge s.tgn.line s.tgn.length with hin | hend
  · rw [lineEndWork_inField hin]
    refine hgrid.of_ranges ((hgrid.1.scanPoint.nextLine ?_).beginLine) (by simp) ?_
    · simpa [scanPoint_tgn] using hin
    · unfold Machine.scanPoint Machine.scanBegin
      split
      · split <;> simp
      · simp
  · rw [lineEndWork_boundary hend]
    have hb := hgrid.fieldBoundary x.order (Machine.gridStep x s).entered
    exact hb.of_ranges hb.1.beginLine (by simp) (by simp)

theorem ite_lineEndWork (h : s.InRange) (p : Prop) [Decidable p] (x : LineInputs) :
    (if p then Machine.lineEndWork x s else s).InRange := by
  split
  · exact h.lineEndWork x
  · exact h

end State.InRange

end Sys2Proof.Machine
end

section
/-!
PROOFS. The ranges of `State.Inv` over every command and every step, and at reset.
-/

namespace Sys2Proof.Machine

/-! ### The computer's commands -/

namespace State.InRange

variable {s t : State}

/-- What leaves RFE, LLL, FAL, TGN and TST, and the settings, keeps the ranges where it keeps the due list's and
the FIFO's. -/
theorem of_eq (h : s.InRange) (hrfe : t.rfe = s.rfe) (hlll : t.lll = s.lll) (hfal : t.fal = s.fal)
    (htgn : t.tgn = s.tgn) (hset : t.cue.settings = s.cue.settings) (hdue : t.cue.due.length ≤ 16)
    (hrpw : t.rpw.Ok) (htst : t.tst = s.tst) : t.InRange :=
  h.of_ranges (h.1.of_eq hrfe hlll hfal htgn hset hdue hrpw htst) (congrArg Rfe.working hrfe)
    (congrArg Settings.stdMode hset)

theorem ackBits (h : s.InRange) (a b : Bool) : (ackBits a b s).InRange := by
  have hack : ∀ c, ({ s with rpw := s.rpw.acknowledge c } : State).InRange := fun c =>
    h.of_ranges (h.1.withRpw (Rpw.acknowledge_ok c h.1.rpw)) rfl rfl
  unfold Machine.ackBits
  split
  · exact hack false
  · split
    · exact hack true
    · exact h

theorem portOne (h : s.InRange) {f : State → State} (hf : ∀ t : State, t.InRange → (f t).InRange) (a b : Bool) :
    (portOne f a b s).InRange := by
  unfold Machine.portOne
  split
  · refine (hf _ ?_).ackBits a b
    exact h.of_eq rfl rfl rfl rfl rfl h.1.due h.1.rpw rfl
  · exact h

theorem runFunction (h : s.InRange) : (runFunction s).InRange := by
  unfold Machine.runFunction
  split
  · exact h.of_eq rfl rfl rfl rfl rfl (Nat.zero_le _) (h.1.rpw.of_eq rfl rfl rfl rfl) rfl
  · exact h

theorem stopFunction (h : s.InRange) : (stopFunction s).InRange := by
  unfold Machine.stopFunction
  split
  · exact h
  · let s1 : State := { s with
        cue := { s.cue with
          engine := .stopped, startup := false, scan := none, due := [], idle := none, wait := none
          heldFrom := none, deferral := none, haltReason := none }
        mpt := s.mpt.stop s.wordsAtStop
        draw := s.draw + 1 }
    have h1 : s1.Ranges := h.1.of_eq rfl rfl rfl rfl rfl (Nat.zero_le _) h.1.rpw rfl
    exact h.of_ranges (h1.dropWriters.abortLoad .stop) (by simp) (by simp)

theorem continueFunction (h : s.InRange) : (continueFunction s).InRange := by
  unfold Machine.continueFunction
  split
  · exact shared.postTake (h.of_eq rfl rfl rfl rfl rfl h.1.due (h.1.rpw.of_eq rfl rfl rfl rfl) rfl)
  · exact h

end State.InRange

theorem Tst.start_ok (straps : Straps) (lines run : List Pu) : (Tst.start straps lines run).Ok := by
  intro r hr
  unfold Tst.start at hr
  split at hr
  · cases hr
    exact Nat.zero_le _
  · cases hr

theorem Rpw.start_ok : ({} : Rpw).Ok := ⟨Nat.zero_le _, Nat.zero_le _, Nat.zero_le _, by simp⟩

theorem Fal.start_ok : ({} : Fal).Ok := ⟨fun _ => by decide, Nat.zero_le _, nofun⟩

/-- Under the default settings the standard at start-up is the one the straps force (R76, R89). -/
theorem default_forced (straps : Straps) (d : Standard) (h : (Settings.default straps).stdMode = .force d) :
    Straps.startStd straps = d := Straps.startStd_of_stdMode_force h

theorem State.InRange.softResetFunction {s : State} (h : s.InRange) (n : Nat) : (softResetFunction n s).InRange := by
  refine ⟨{
    rfe := ⟨Nat.zero_le _, Nat.zero_le _⟩
    lll := Lll.start_ok _ _ _
    fal := Fal.start_ok
    field := ⟨h.1.field.first, h.1.field.last, h.1.field.length⟩
    drive := ⟨Nat.zero_le _, fun i d hd => by simp [Machine.softResetFunction, Tgn.softReset] at hd⟩
    settings := Settings.default_inTable _
    due := Nat.zero_le _
    rpw := Rpw.start_ok
    tst := ?_ }, fun d hd => default_forced _ d hd⟩
  show Tst.Ok (if s.tst.mode = .internalLoop then _ else _)
  split <;> exact Tst.start_ok _ _ _

theorem State.powerOn_inRange (straps : Straps) (m : Memory) : (State.powerOn straps m).InRange := by
  have hlines : 262 ≤ (Straps.startStd straps).fieldLines .one ∧ (Straps.startStd straps).fieldLines .one ≤ 313 :=
    fieldLines_bounds _ _
  refine ⟨{
    rfe := ⟨Nat.zero_le _, Nat.zero_le _⟩
    lll := Lll.start_ok _ _ _
    fal := Fal.start_ok
    field := ⟨Nat.le_refl 1, ?_, ?_⟩
    drive := ⟨Nat.zero_le _, fun i d hd => by simp [State.powerOn] at hd⟩
    settings := Settings.default_inTable _
    due := Nat.zero_le _
    rpw := Rpw.start_ok
    tst := Tst.start_ok _ _ _ }, fun d hd => default_forced _ d hd⟩
  · exact le_trans (show 1 ≤ 262 by decide) hlines.1
  · exact ⟨le_trans (by decide) hlines.1, hlines.2.trans (by decide)⟩

/-- Settles O58. -/
theorem resetMeetsTheInvariant : Obligations.ResetMeetsTheInvariant := by
  rw [Obligations.ResetMeetsTheInvariant, State.inv_iff]
  obtain ⟨hranges, hforced⟩ := State.powerOn_inRange ⟨0, 0⟩ []
  exact ⟨⟨List.Pairwise.nil, nofun⟩, powerOn_keyOk _ _, hranges, hforced⟩

/-! ### The reference inputs -/

theorem windowReports_working (i : Input) (was : Bool) (s : State) :
    (windowReports i was s).rfe.working = s.rfe.working := by
  have hset : ∀ (r : RefInput) (s : State), (s.setInput i r).rfe.working = s.rfe.working := by
    intro r s
    cases i <;> rfl
  simp only [windowReports]
  (repeat' split) <;> simp [produceLost, hset]

theorem windowPolicy_working (s : State) : (windowPolicy s).rfe.working = s.rfe.working := by
  simp only [windowPolicy]
  (repeat' split) <;> simp [changeActive]

/-- A forced standard stays at work over a window end (R14). -/
theorem windowStandard_working {s : State} {d : Standard} (h : s.cue.settings.stdMode = .force d) :
    (windowStandard s).rfe.working = s.rfe.working := by
  simp only [windowStandard, h]
  (repeat' split) <;> simp

theorem windowWork_working {s : State} {d : Standard} (h : s.cue.settings.stdMode = .force d) :
    (windowWork s).rfe.working = s.rfe.working := by
  unfold windowWork
  rw [windowStandard_working (d := d) (by simpa using h), windowPolicy_working, windowReports_working,
    windowReports_working]
  rfl

theorem setInput_working (i : Input) (r : RefInput) (s : State) : (s.setInput i r).rfe.working = s.rfe.working := by
  cases i <;> rfl

/-- What a dot edge does to TGN, but for the next dot's number and KEY (R71). -/
theorem dotEdge_tgn (b : Byte) (s : State) :
    ∃ next level till, (dotEdge b s).tgn =
      { s.tgn with
        edgeCount := s.tgn.edgeCount + 1
        nextDot := next
        drives := (s.tgn.drives ++ [s.newDrive]).filter (fun d => decide (d.due ≠ s.tgn.edgeCount + 1))
        key := level
        keyUntil := till } := by
  simp only [dotEdge, dropEnded_frame, State.atTick_frame]
  exact ⟨_, _, _, rfl⟩

namespace State.InRange

variable {s : State}

theorem atTick (h : s.InRange) (t : Tick) : (s.atTick t).InRange := h.of_ranges (h.1.atTick t) rfl rfl

theorem setInput (h : s.InRange) (i : Input) (r : RefInput) : (s.setInput i r).InRange :=
  h.of_ranges (h.1.setInput i r) (setInput_working i r s) (by simp)

theorem windowWork (h : s.InRange) : (windowWork s).InRange := by
  refine ⟨h.1.windowWork, fun d hd => ?_⟩
  have hmode : s.cue.settings.stdMode = .force d := by simpa using hd
  exact (windowWork_working hmode).trans (h.2 d hmode)

theorem withWindowAt (h : s.InRange) (t : Tick) : ({ s with rfe := { s.rfe with windowAt := t } } : State).InRange :=
  h.of_ranges (h.1.withRfe _ rfl rfl rfl) rfl rfl

theorem windowEnd (h : s.InRange) : (nextState .windowEnd s).InRange := by
  rw [nextState_windowEnd]
  exact (h.atTick s.rfe.windowAt).windowWork.withWindowAt _

theorem lineArrival (h : s.InRange) (e : Pu) (t : Tick) : (lineArrival e t s).InRange :=
  h.of_ranges (h.1.lineArrival e t) (by simp) (by simp)

theorem broadPulse (h : s.InRange) (e : Pu) : (broadPulse e s).InRange :=
  h.of_ranges (h.1.broadPulse e) (by simp) (by simp)

theorem classified (h : s.InRange) (k : PulseClass) (i : Input) (e : Pu) (u : Tick) (tip : Byte) :
    (classified k i e u tip s).InRange := by
  cases k with
  | line =>
    simp only [Machine.classified, linePulse]
    split
    · exact (h.setInput i _).lineArrival e u
    · exact h.setInput i _
  | broad =>
    simp only [Machine.classified]
    split
    · exact h.broadPulse e
    · exact h
  | equalising => exact h
  | noise => exact h

theorem captureAbandon (h : s.InRange) : (nextState .captureAbandon s).InRange := by
  simp only [nextState, exec, execCaptureAbandon]
  split
  · next r _ hr =>
    generalize r.abandonAt s.rfe.working = t
    have h1 : (s.atTick t).InRange := h.atTick t
    exact h1.of_ranges (h1.1.withLll (Lll.abandon_ok h1.1.lll hr)) rfl rfl
  · exact h

theorem tstLineArrival (h : s.InRange) : (nextState .tstLineArrival s).InRange := by
  simp only [nextState, exec, execTstLineArrival]
  split
  · exact h
  · next e rest _ =>
    split
    · generalize tstLineTick e = t
      let s1 : State := { s.atTick t with tst := { s.tst with lines := rest } }
      have h1 : s1.InRange := h.of_ranges { (h.1.atTick t) with tst := h.1.tst } rfl rfl
      exact h1.lineArrival e _
    · exact h

theorem tstBroadArrival (h : s.InRange) : (nextState .tstBroadArrival s).InRange := by
  simp only [nextState, exec, execTstBroadArrival]
  split
  · exact h
  · next e rest _ =>
    split
    · generalize tstBroadTick e = t
      let s1 : State := { s.atTick t with tst := { s.tst with run := rest } }
      have h1 : s1.InRange := h.of_ranges { (h.1.atTick t) with tst := h.1.tst } rfl rfl
      exact h1.broadPulse e
    · exact h

theorem dotEdge (h : s.InRange) (b : Byte) : (dotEdge b s).InRange := by
  obtain ⟨l, k, u, htgn⟩ := dotEdge_tgn b s
  have hdrive : (Machine.dotEdge b s).tgn.DriveOk := by
    rw [htgn]
    refine ⟨h.1.drive.delay, fun i x hx => ?_⟩
    have hnew : s.newDrive.due = s.tgn.edgeCount + 1 + BitVec.ofNat 16 s.tgn.delay := rfl
    exact drives_after_edge h.1.drive hnew hx
  have hfield : (Machine.dotEdge b s).tgn.FieldOk := by
    rw [htgn]
    exact ⟨h.1.field.first, h.1.field.last, h.1.field.length⟩
  have hwork : (Machine.dotEdge b s).rfe.Ok ∧ (Machine.dotEdge b s).rfe.working = s.rfe.working := by
    simp only [Machine.dotEdge, dropEnded_frame]
    exact ⟨⟨h.1.rfe.absence, h.1.rfe.differ⟩, rfl⟩
  refine h.of_ranges {
    rfe := hwork.1
    lll := by simpa [hwork.2] using h.1.lll
    fal := by simpa using h.1.fal
    field := hfield
    drive := hdrive
    settings := by simpa using h.1.settings
    due := by simpa using h.1.due
    rpw := by simpa using h.1.rpw
    tst := by simpa using h.1.tst } hwork.2 (by simp)

/-! ### The memory traffic -/

theorem serveRead (h : s.InRange) (q : Request) (b : BusTraffic) : (serveRead q b s).1.InRange :=
  h.of_eq (by simp) (by simp) (by simp) (by simp) (by simp) (by simpa using h.1.due) (by simpa using h.1.rpw) (by simp)

theorem serveWrite (h : s.InRange) (q : Request) (b : BusTraffic) : (serveWrite q b s).InRange :=
  h.of_eq (by simp) (by simp) (by simp) (by simp) (by simp) (by simpa using h.1.due) (by simpa using h.1.rpw) (by simp)

/-- The end of a fetch or its next request leaves the settings, and the due list, as they are. -/
theorem fetchNext (h : s.InRange) (n : Stamp) (i : Nat) : (fetchNext n i s).InRange := by
  unfold Machine.fetchNext
  split
  · exact shared.cue _ s rfl (.same rfl rfl rfl) h
  · refine shared.mpt _ _ (shared.cue _ s rfl (.same rfl rfl rfl) h)

theorem fillRead (h : s.InRange) (n : Stamp) (fill trig : Nat) : (fillRead n fill trig s).InRange := by
  have hcue : ∀ {s : State} {c : Cue}, s.InRange → c.settings = s.cue.settings → s.cue.Leaves c →
      ({ s with cue := c } : State).InRange := fun h hset hdue => shared.cue _ _ hset hdue h
  unfold Machine.fillRead
  dsimp only
  set s1 : State := { s with cue := { s.cue with
    lastFill := if decide (s.cue.qLen ≤ fill) then s.cue.take else fill
    trigger := triggerOf s.cue.qLen trig
    badFill := decide (s.cue.qLen ≤ fill) } } with hs1
  have h1 : s1.InRange := hcue h rfl (.same rfl rfl rfl)
  have h2 : (if decide (s.cue.qLen ≤ fill) && !s.cue.badFill then produce (repWarnIndex 0 2 fill s.cue.qLen) s1
      else s1).InRange := by
    split
    · exact shared.produce _ _ h1
    · exact h1
  generalize (if decide (s.cue.qLen ≤ fill) && !s.cue.badFill then produce (repWarnIndex 0 2 fill s.cue.qLen) s1
      else s1) = s2 at h2 ⊢
  split
  · split
    · exact hcue h2 rfl (.same rfl rfl rfl)
    · exact shared.mpt _ _ (shared.latch .queueEmpty _ (hcue (s := s2) h2 rfl (.same rfl rfl rfl)))
  · refine fetchNext ?_ _ _
    exact hcue h2 rfl (.same rfl rfl rfl)

/-- A copy joins the due list where it holds fewer than 16 (R106). -/
theorem recordRead (h : s.InRange) (n : Stamp) (i : Nat) (ws : List Word) : (recordRead n i ws s).InRange := by
  have hend : ∀ sc, ({ s with cue := { s.cue with scan := sc } } : State).InRange := fun sc =>
    h.of_eq rfl rfl rfl rfl rfl h.1.due h.1.rpw rfl
  unfold Machine.recordRead
  dsimp only
  split
  · exact hend none
  · split
    · exact hend none
    · next hroom =>
      refine fetchNext ?_ _ _
      refine h.of_eq rfl rfl rfl rfl rfl ?_ h.1.rpw rfl
      simp only [List.length_append, List.length_singleton]
      omega

theorem idleRead (h : s.InRange) (ws : List Word) : (idleRead ws s).InRange := by
  unfold Machine.idleRead
  dsimp only
  split
  · exact h
  · exact h.of_eq rfl rfl rfl rfl rfl h.1.due h.1.rpw rfl

theorem startupLoaded (h : s.InRange) (l : Nat) (ws : List Word) : (startupLoaded l ws s).InRange := by
  unfold Machine.startupLoaded
  dsimp only
  split
  · exact h.of_ranges (h.1.linkFault _ _ _) (by simp) (by rw [linkFault_settings])
  · exact h.adoptLoad _ _ _ _

theorem rpwNext (h : s.InRange) : (rpwNext s).InRange := h.of_ranges h.1.rpwNext (by simp) (by simp)

theorem putWritten (h : s.InRange) (put : Nat) : (putWritten put s).InRange := by
  unfold Machine.putWritten
  split
  · exact h.of_ranges (h.1.withRpw (h.1.rpw.of_eq rfl rfl rfl rfl)) rfl rfl
  · exact shared.produce _ _ (h.of_ranges (h.1.withRpw (h.1.rpw.of_eq rfl rfl rfl rfl)) rfl rfl)

theorem reportWritten (h : s.InRange) (rec : Report) (gap : Bool) (put : Nat) :
    (reportWritten rec gap put s).InRange := by
  have hretire : ({ s with rpw := s.rpw.retire gap } : State).InRange :=
    h.of_ranges (h.1.withRpw (Rpw.retire_ok gap h.1.rpw)) rfl rfl
  have hput := hretire.putWritten put
  unfold Machine.reportWritten
  refine rpwNext ?_
  unfold Machine.matchTest Machine.triggerTest
  split
  · split
    · exact shared.latch _ _ (shared.latch _ _ hput)
    · exact shared.latch _ _ hput
  · split
    · exact shared.latch _ _ hput
    · exact hput

theorem getRead (h : s.InRange) (f : Bool) (g t : Nat) : (getRead f g t s).InRange := by
  have hrpw : ∀ r : Rpw, r.Ok → ({ s with rpw := r } : State).InRange := fun r hr =>
    h.of_ranges (h.1.withRpw hr) rfl rfl
  let r1 : Rpw := { s.rpw with lastGet := g, trigger := triggerOf s.rpw.len t, badGet := decide (s.rpw.len ≤ g) }
  have hr : (if r1.room then { r1 with fullWait := false } else if f then { r1 with fullWait := true } else r1).Ok := by
    split
    · exact h.1.rpw.of_eq rfl rfl rfl rfl
    · split <;> exact h.1.rpw.of_eq rfl rfl rfl rfl
  unfold Machine.getRead
  dsimp only
  refine rpwNext ?_
  split
  · exact shared.produce _ _ (hrpw _ hr)
  · exact hrpw _ hr

theorem abortLoading (h : s.InRange) (w : AbortReason) : (abortLoading w s).InRange :=
  h.of_ranges (h.1.abortLoading w) (by simp) (by simp)

theorem memoryFault (h : s.InRange) (q : Request) (t : Tick) (n : Nat) (r : Bool) (b : BusTraffic) :
    (memoryFault q t n r b s).InRange := by
  have hmem : ({ s.atTick t with mem := s.mem.writeRun (q.writes.take (n + bitOf r)) b } : State).InRange :=
    (h.atTick t).of_eq rfl rfl rfl rfl rfl h.1.due h.1.rpw rfl
  have hdrop := hmem.of_ranges hmem.1.dropWriters (by simp) (by simp)
  have hhalt := shared.enterHalted .memory hdrop
  refine abortLoading (shared.produce _ _ (shared.latch _ _ ?_)) _
  exact hhalt.of_eq rfl rfl rfl rfl rfl hhalt.1.due (hhalt.1.rpw.of_eq rfl rfl rfl rfl) rfl

/-! ### Every command -/

theorem keyWordRead (h : s.InRange) (w : Word) : (keyWordRead w s).InRange :=
  h.of_eq (by simp) (by simp) (by simp) (by simp) (by simp) (by simpa using h.1.due) (by simpa using h.1.rpw) (by simp)

theorem postStatus (h : s.InRange) : (postStatus s).InRange := h.of_ranges h.1.postStatus (by simp) (by simp)

theorem writeRecord (h : s.InRange) : (writeRecord s).InRange :=
  h.of_eq (by simp) (by simp) (by simp) (by simp) (by simp) (by simpa using h.1.due) (by simpa using h.1.rpw) (by simp)

/-- A request that is not in service completes without effect (assumption log 4). -/
theorem nextState_traffic (h : s.InRange) (b : BusTraffic) :
    (nextState (.startupLoadComplete b) s).InRange ∧ (nextState (.fillReadComplete b) s).InRange ∧
    (nextState (.cueRecordRead b) s).InRange ∧ (nextState (.idleCueRead b) s).InRange ∧
    (nextState (.takeWriteComplete b) s).InRange ∧ (nextState (.keySourceWordRead b) s).InRange := by
  simp only [nextState, exec, execStartupLoadComplete, execFillReadComplete, execCueRecordRead, execIdleCueRead,
    execTakeWriteComplete, execKeySourceWordRead]
  refine ⟨?_, ?_, ?_, ?_, ?_, ?_⟩
  · split
    · split
      · exact h.serveRead _ b
      · exact (h.serveRead _ b).startupLoaded _ _
    · exact h
  · split
    · split
      · exact h.serveRead _ b
      · exact (h.serveRead _ b).fillRead _ _ _
    · exact h
  · split
    · split
      · split
        · exact h.serveRead _ b
        · exact (h.serveRead _ b).recordRead _ _ _
      · exact h.serveRead _ b
    · exact h
  · split
    · split
      · exact h.serveRead _ b
      · exact (h.serveRead _ b).idleRead _
    · exact h
  · split
    · exact h.serveWrite _ b
    · exact h
  · split
    · split
      · exact h.serveRead _ b
      · exact (h.serveRead _ b).keyWordRead _
    · exact h

theorem nextState_writers (h : s.InRange) (b : BusTraffic) :
    (nextState (.reportWriteComplete b) s).InRange ∧ (nextState (.getReadComplete b) s).InRange ∧
    (nextState (.lonePutWriteComplete b) s).InRange ∧ (nextState (.statusWordWriteComplete b) s).InRange := by
  simp only [nextState, exec, execReportWriteComplete, execGetReadComplete, execLonePutWriteComplete,
    execStatusWordWriteComplete]
  refine ⟨?_, ?_, ?_, ?_⟩
  · split
    · exact (h.serveWrite _ b).reportWritten _ _ _
    · exact h
  · split
    · exact (h.serveRead _ b).getRead _ _ _
    · exact h
  · split
    · exact (h.serveWrite _ b).rpwNext
    · exact h
  · split
    · exact (h.serveWrite _ b).postStatus
    · exact h

/-- Every command keeps the ranges. -/
theorem nextState (h : s.InRange) (c : Instr) : (Machine.nextState c s).InRange := by
  cases c with
  | powerOn straps =>
    have hp := State.powerOn_inRange straps s.mem
    exact hp.of_eq (t := { State.powerOn straps s.mem with
      pins := s.pins, readData := s.readData, draw := s.draw, pending := s.pending }) rfl rfl rfl rfl rfl hp.1.due
      hp.1.rpw rfl
  | strapDone =>
    simp only [Machine.nextState, exec, execStrapDone]
    split
    · exact h
    · exact (h.atTick 1024).of_ranges ((h.1.atTick 1024).withTgn
        ⟨h.1.field.first, h.1.field.last, h.1.field.length⟩ ⟨h.1.drive.delay, h.1.drive.due⟩) rfl rfl
  | linkAddressWrite w =>
    simp only [Machine.nextState, exec, execLinkAddressWrite]
    split
    · exact h.of_eq rfl rfl rfl rfl rfl h.1.due h.1.rpw rfl
    · exact h
  | linkAddressRead => exact h.of_eq rfl rfl rfl rfl rfl h.1.due h.1.rpw rfl
  | run a b => exact h.portOne (fun _ => runFunction) a b
  | stop a b => exact h.portOne (fun _ => stopFunction) a b
  | continueRun a b => exact h.portOne (fun _ => continueFunction) a b
  | softReset a b n => exact h.portOne (fun _ ht => ht.softResetFunction n) false false
  | noneFunction => exact h.portOne (fun _ ht => ht) false false
  | start => exact h.portOne (fun _ ht => ht) true false
  | clear => exact h.portOne (fun _ ht => ht) false true
  | causePortRead => exact h.of_eq rfl rfl rfl rfl rfl h.1.due (h.1.rpw.of_eq rfl rfl rfl rfl) rfl
  | ignoredPortWrite w => exact h
  | classifierArmed i t sample =>
    simp only [Machine.nextState, exec, execClassifierArmed]
    split
    · exact (h.atTick _).setInput _ _
    · exact h
  | leadingEdge i t s0 s1 =>
    simp only [Machine.nextState, exec, execLeadingEdge]
    split
    · exact (h.atTick _).setInput _ _
    · exact h
  | pulseClassification i u s1 least =>
    simp only [Machine.nextState, exec, execPulseClassification]
    split
    · split
      · exact ((h.atTick _).setInput _ _).classified _ _ _ _ _
      · exact h
    · exact h
  | pulseOverrun i =>
    simp only [Machine.nextState, exec, execPulseOverrun]
    split
    · exact (h.atTick _).setInput _ _
    · exact h
  | slicerUpdate i blank =>
    simp only [Machine.nextState, exec, execSlicerUpdate]
    split
    · split
      · exact (h.atTick _).setInput _ _
      · exact h
    · exact h
  | captureAbandon => exact h.captureAbandon
  | windowEnd => exact h.windowEnd
  | lineEnd x => exact h.lineEndWork x
  | flywheelLimit x | missedFields x | scanPoint x | fieldBoundary x | holdoverExpiry x | testNolock x
  | waitendExpired x => exact h.ite_lineEndWork _ x
  | tstLineArrival => exact h.tstLineArrival
  | tstBroadArrival => exact h.tstBroadArrival
  | requestGrant => exact shared.grant h
  | memoryFault why n r b =>
    simp only [Machine.nextState, exec, execMemoryFault]
    split
    · split
      · exact h.memoryFault _ _ _ _ _
      · exact h
    · exact h
  | startupLoadComplete b => exact (h.nextState_traffic b).1
  | fillReadComplete b => exact (h.nextState_traffic b).2.1
  | cueRecordRead b => exact (h.nextState_traffic b).2.2.1
  | idleCueRead b => exact (h.nextState_traffic b).2.2.2.1
  | takeWriteComplete b => exact (h.nextState_traffic b).2.2.2.2.1
  | keySourceWordRead b => exact (h.nextState_traffic b).2.2.2.2.2
  | recordWrite => exact h.writeRecord
  | reportWriteComplete b => exact (h.nextState_writers b).1
  | getReadComplete b => exact (h.nextState_writers b).2.1
  | lonePutWriteComplete b => exact (h.nextState_writers b).2.2.1
  | statusWordWriteComplete b => exact (h.nextState_writers b).2.2.2
  | dotEdge b =>
    simp only [Machine.nextState, exec, execDotEdge]
    split
    · exact h.dotEdge b
    · exact h

end State.InRange

/-- Settles O60: the parts that every command keeps, and the clock's two moves, which keep them all. -/
theorem stepKeepsTheRanges : Obligations.StepKeepsTheRanges := by
  intro s t hs hstep
  rw [State.inv_iff] at hs ⊢
  obtain ⟨hmem, hkey, hranges, hforced⟩ := hs
  have hin : s.InRange := ⟨hranges, hforced⟩
  have hall : ∀ t : State, t.mem.wf → t.KeyOk → t.InRange → t.mem.wf ∧ t.KeyOk ∧ t.Ranges ∧ t.Forced :=
    fun t hm hk hr => ⟨hm, hk, hr.1, hr.2⟩
  rcases step_cases hstep with ⟨c, rest, rfl⟩ | ⟨e, n, rfl⟩ | rfl
  · have hrest : ({ s with pending := rest } : State).InRange :=
      hin.of_eq rfl rfl rfl rfl rfl hranges.due hranges.rpw rfl
    exact hall _ (nextState_wf c hmem) (nextState_keyOk c (hkey.of_eq rfl rfl rfl)) (hrest.nextState c)
  · exact hall _ hmem (hkey.of_eq rfl rfl rfl) (hin.of_eq rfl rfl rfl rfl rfl hranges.due hranges.rpw rfl)
  · exact hall _ hmem (hkey.of_eq rfl rfl rfl) (hin.atTick _)

end Sys2Proof.Machine
end

section
/-!
PROOFS. A presence window end in its parts (R9): the judgement of both inputs with their reports, the input policy,
the working standard.
-/

namespace Sys2Proof.Machine

/-! ### Records handed to a FIFO with room (R165) -/

/-- With no gap open and room for them all, the records `rs` join the FIFO in their order, each without a gap part,
and no gap opens. -/
def Rpw.Adds (r r' : Rpw) (rs : List Report) : Prop :=
  r.openGap = 0 → r.fifo.length + rs.length ≤ 8 →
    r'.openGap = 0 ∧ r'.fifo = r.fifo ++ rs.map (fun x => ⟨x, none⟩)

namespace Rpw.Adds

variable {r r' r'' : Rpw} {rs rs' : List Report}

theorem refl (r : Rpw) : r.Adds r [] := fun hgap _ => ⟨hgap, by simp⟩

theorem of_eq (hfifo : r'.fifo = r.fifo) (hgap : r'.openGap = r.openGap) : r.Adds r' [] :=
  fun h _ => ⟨hgap.trans h, by simp [hfifo]⟩

theorem trans (h : r.Adds r' rs) (h' : r'.Adds r'' rs') : r.Adds r'' (rs ++ rs') := by
  intro hgap hroom
  rw [List.length_append] at hroom
  obtain ⟨hgap', hfifo'⟩ := h hgap (by omega)
  obtain ⟨hgap'', hfifo''⟩ := h' hgap' (by rw [hfifo']; simp; omega)
  exact ⟨hgap'', by rw [hfifo'', hfifo', List.append_assoc, List.map_append]⟩

theorem then_eq (h : r.Adds r' rs) (hfifo : r''.fifo = r'.fifo) (hgap : r''.openGap = r'.openGap) : r.Adds r'' rs := by
  simpa using h.trans (of_eq hfifo hgap)

end Rpw.Adds

theorem Rpw.produce_adds (r : Rpw) (rec : Report) : r.Adds (r.produce rec) [rec] := by
  intro hgap hroom
  have hlt : r.fifo.length < 8 := by simpa using hroom
  simp [Rpw.produce, Rpw.accepts, hlt, Rpw.closingGap, hgap]

theorem produce_adds (rec : Report) (s : State) : s.rpw.Adds (produce rec s).rpw [rec.stamped s.tgn.stamp] :=
  Rpw.produce_adds _ _

theorem produceAll_adds (rs : List Report) (s : State) :
    s.rpw.Adds (produceAll rs s).rpw (rs.map (·.stamped s.tgn.stamp)) := by
  induction rs generalizing s with
  | nil => exact Rpw.Adds.refl _
  | cons rec rs ih => exact (produce_adds rec s).trans (ih (produce rec s))

theorem latch_adds (c : Cause) (s : State) : s.rpw.Adds (latch c s).rpw [] := Rpw.Adds.of_eq rfl rfl

/-! ### Latched causes (R175) -/

/-- The cause is latched. -/
def Rpw.Latched (r : Rpw) (c : Cause) : Prop := r.latched &&& c.bit = c.bit

theorem latch_latched (c : Cause) (s : State) : (latch c s).rpw.Latched c := by
  simp only [Rpw.Latched, latch, Rpw.latch]
  ext i; simp; tauto

theorem produce_latched {c : Cause} {s : State} (rec : Report) (h : s.rpw.Latched c) : (produce rec s).rpw.Latched c := by
  simp only [produce, Rpw.produce]
  split <;> exact h

theorem produceAll_latched {c : Cause} {s : State} (rs : List Report) (h : s.rpw.Latched c) :
    (produceAll rs s).rpw.Latched c := by
  induction rs generalizing s with
  | nil => exact h
  | cons rec rs ih => exact ih (produce_latched rec h)

theorem latch_keeps_latched {c : Cause} {s : State} (d : Cause) (h : s.rpw.Latched c) : (latch d s).rpw.Latched c := by
  simp only [Rpw.Latched, latch, Rpw.latch] at h ⊢
  ext i hi
  have hbit := congrArg (fun x : BitVec 8 => x[i]) h
  simp only [BitVec.getElem_and, BitVec.getElem_or] at hbit ⊢
  revert hbit
  cases s.rpw.latched[i] <;> cases c.bit[i] <;> simp

theorem changeActive_latched (i : Input) (why : SwitchReason) (s : State) :
    (changeActive i why s).rpw.Latched .inputChange := by
  unfold changeActive sourceNotice falSeek State.withLoop
  exact produceAll_latched _ (produceAll_latched _ (latch_latched .inputChange _))

/-! ### RFE's inputs -/

theorem State.input_setInput (s : State) (i j : Input) (r : RefInput) :
    (s.setInput i r).input j = if j = i then r else s.input j := by
  cases i <;> cases j <;> rfl

@[simp] theorem State.input_setInput_same (s : State) (i : Input) (r : RefInput) : (s.setInput i r).input i = r := by
  cases i <;> rfl

@[simp] theorem State.input_setInput_other (s : State) (i : Input) (r : RefInput) :
    (s.setInput i r).input (otherInput i) = s.input (otherInput i) := by
  cases i <;> rfl

theorem State.input_congr {s t : State} (h : t.rfe.inA = s.rfe.inA ∧ t.rfe.inB = s.rfe.inB) (i : Input) :
    t.input i = s.input i := by
  cases i
  · exact h.1
  · exact h.2

/-- Nothing but the two inputs of RFE has changed. -/
def Rfe.SameBut (r r' : Rfe) : Prop := r' = { r with inA := r'.inA, inB := r'.inB }

theorem setInput_sameBut (s : State) (i : Input) (r : RefInput) : s.rfe.SameBut (s.setInput i r).rfe := by
  cases i <;> rfl

theorem Rfe.SameBut.trans {r r' r'' : Rfe} (h : r.SameBut r') (h' : r'.SameBut r'') : r.SameBut r'' := by
  unfold Rfe.SameBut at *
  rw [h', h]

/-! ### The reports of one input (R10, R11) -/

/-- The records of one input at a window end: its loss again where the latch is set, then a change of presence. -/
def windowRecords (r : Rfe) (i : Input) (lossLatch was : Bool) : List Report :=
  (if lossLatch then [repInputLost r i] else []) ++
  (if (r.get i).present = was then [] else if was then [repInputLost r i] else [repInputPresent r i])

/-- Two states of RFE whose inputs differ in their loss latches alone. -/
def Rfe.SameButLatches (r r' : Rfe) : Prop :=
  r.SameBut r' ∧ ∀ i, r'.get i = { r.get i with lossLatch := (r'.get i).lossLatch }

namespace Rfe.SameButLatches

variable {r r' r'' : Rfe}

theorem refl (r : Rfe) : r.SameButLatches r := ⟨rfl, fun _ => rfl⟩

theorem trans (h : r.SameButLatches r') (h' : r'.SameButLatches r'') : r.SameButLatches r'' :=
  ⟨h.1.trans h'.1, fun i => by rw [h'.2 i, h.2 i]⟩

theorem present (h : r.SameButLatches r') (i : Input) : (r'.get i).present = (r.get i).present := by rw [h.2 i]

theorem detected (h : r.SameButLatches r') (i : Input) : (r'.get i).detected = (r.get i).detected := by rw [h.2 i]

theorem active (h : r.SameButLatches r') : r'.active = r.active := by
  have hrest : r' = { r with inA := r'.inA, inB := r'.inB } := h.1
  rw [hrest]

end Rfe.SameButLatches

theorem State.input_eq_get (s : State) (i : Input) : s.input i = s.rfe.get i := by cases i <;> rfl

/-- A record of an input says nothing of the loss latches. -/
theorem repInput_congr {r r' : Rfe} (h : r.SameButLatches r') (w : Word) (i : Input) : repInput w r' i = repInput w r i := by
  have ha : r'.inA.present = r.inA.present := h.present .a
  have hb : r'.inB.present = r.inB.present := h.present .b
  simp only [repInput, inputWord, ha, hb, h.active, h.detected i]

theorem windowRecords_congr {r r' : Rfe} (h : r.SameButLatches r') (i : Input) (l was : Bool) :
    windowRecords r' i l was = windowRecords r i l was := by
  simp only [windowRecords, repInputLost, repInputPresent, repInput_congr h, h.present i]

theorem produceLost_rfe (i : Input) (s : State) :
    (produceLost i s).rfe = (s.setInput i { s.input i with lossLatch := !s.rpw.accepts }).rfe := by
  cases i <;> rfl

theorem produceLost_rpw (i : Input) (s : State) : (produceLost i s).rpw = (produce (repInputLost s.rfe i) s).rpw := by
  cases i <;> rfl

theorem produceLost_latch (i : Input) (s : State) : ((produceLost i s).input i).lossLatch = !s.rpw.accepts := by
  rw [State.input_eq_get, produceLost_rfe, ← State.input_eq_get, State.input_setInput_same]

/-- INPUT/LOST of one input changes its loss latch alone of RFE. -/
theorem produceLost_same (i : Input) (s : State) : s.rfe.SameButLatches (produceLost i s).rfe := by
  rw [produceLost_rfe]
  refine ⟨setInput_sameBut _ _ _, fun j => ?_⟩
  cases i <;> cases j <;> rfl

theorem produceLost_adds (i : Input) (s : State) :
    s.rpw.Adds (produceLost i s).rpw [(repInputLost s.rfe i).stamped s.tgn.stamp] := by
  rw [produceLost_rpw]
  exact produce_adds _ s

theorem produceLost_keeps_latched {c : Cause} {s : State} (i : Input) (h : s.rpw.Latched c) :
    (produceLost i s).rpw.Latched c := by
  rw [produceLost_rpw]
  exact produce_latched _ h

/-- The retry of a loss that could not be reported (R11). -/
def lossRetry (i : Input) (s : State) : State := if (s.input i).lossLatch then produceLost i s else s

/-- The report of a change of presence (R10). -/
def presenceReport (i : Input) (was : Bool) (s : State) : State :=
  if (s.input i).present = was then s
  else if was then latch .inputChange (produceLost i s)
  else latch .inputChange (produce (repInputPresent s.rfe i) s)

theorem windowReports_eq (i : Input) (was : Bool) (s : State) :
    windowReports i was s = presenceReport i was (lossRetry i s) := rfl

theorem lossRetry_same (i : Input) (s : State) : s.rfe.SameButLatches (lossRetry i s).rfe := by
  unfold lossRetry
  split
  · exact produceLost_same i s
  · exact Rfe.SameButLatches.refl _

theorem presenceReport_same (i : Input) (was : Bool) (s : State) :
    s.rfe.SameButLatches (presenceReport i was s).rfe := by
  unfold presenceReport
  split
  · exact Rfe.SameButLatches.refl _
  · split
    · exact produceLost_same i s
    · exact Rfe.SameButLatches.refl _

theorem windowReports_same (i : Input) (was : Bool) (s : State) : s.rfe.SameButLatches (windowReports i was s).rfe :=
  (lossRetry_same i s).trans (presenceReport_same i was _)

theorem lossRetry_adds (i : Input) (s : State) : s.rpw.Adds (lossRetry i s).rpw
    ((if (s.input i).lossLatch then [repInputLost s.rfe i] else []).map (·.stamped s.tgn.stamp)) := by
  unfold lossRetry
  split
  · exact produceLost_adds i s
  · exact Rpw.Adds.refl _

theorem presenceReport_adds (i : Input) (was : Bool) (s : State) : s.rpw.Adds (presenceReport i was s).rpw
    ((if (s.rfe.get i).present = was then [] else if was then [repInputLost s.rfe i]
      else [repInputPresent s.rfe i]).map (·.stamped s.tgn.stamp)) := by
  unfold presenceReport
  rw [State.input_eq_get]
  split
  · exact Rpw.Adds.refl _
  · split
    · exact (produceLost_adds i s).then_eq rfl rfl
    · exact (produce_adds (repInputPresent s.rfe i) s).then_eq rfl rfl

/-- The records of one input join the FIFO (R10, R11). -/
theorem windowReports_adds (i : Input) (was : Bool) (s : State) :
    s.rpw.Adds (windowReports i was s).rpw
      ((windowRecords s.rfe i (s.input i).lossLatch was).map (·.stamped s.tgn.stamp)) := by
  have hsame := lossRetry_same i s
  have htgn : (lossRetry i s).tgn = s.tgn := by
    unfold lossRetry
    split <;> simp
  have h := (lossRetry_adds i s).trans (presenceReport_adds i was (lossRetry i s))
  simpa only [windowReports_eq, windowRecords, List.map_append, htgn, hsame.present i, repInputLost, repInputPresent,
    repInput_congr hsame] using h

theorem lossRetry_keeps_latched {c : Cause} {s : State} (i : Input) (h : s.rpw.Latched c) :
    (lossRetry i s).rpw.Latched c := by
  unfold lossRetry
  split
  · exact produceLost_keeps_latched i h
  · exact h

theorem windowReports_keeps_latched {c : Cause} {s : State} (i : Input) (was : Bool) (h : s.rpw.Latched c) :
    (windowReports i was s).rpw.Latched c := by
  have h1 := lossRetry_keeps_latched i h
  rw [windowReports_eq, presenceReport]
  split
  · exact h1
  · split
    · exact latch_keeps_latched _ (produceLost_keeps_latched i h1)
    · exact latch_keeps_latched _ (produce_latched _ h1)

/-- A change of presence latches INPUT_CHANGE (R10). -/
theorem windowReports_latched {i : Input} {was : Bool} {s : State} (h : (s.input i).present ≠ was) :
    (windowReports i was s).rpw.Latched .inputChange := by
  have hne : ((lossRetry i s).input i).present ≠ was := by
    rwa [State.input_eq_get, (lossRetry_same i s).present, ← State.input_eq_get]
  rw [windowReports_eq, presenceReport, if_neg hne]
  split <;> exact latch_latched _ _

/-! ### The loss latch (R11) -/

theorem Rpw.produce_length_le (r : Rpw) (rec : Report) : (r.produce rec).fifo.length ≤ r.fifo.length + 1 := by
  simp only [Rpw.produce]
  split <;> simp

theorem Rpw.produce_full {r : Rpw} (rec : Report) (h : 8 ≤ r.fifo.length) : (r.produce rec).fifo = r.fifo := by
  simp [Rpw.produce, Rpw.accepts, Nat.not_lt.2 h]

theorem Rpw.not_accepts {r : Rpw} (h : 8 ≤ r.fifo.length) : r.accepts = false := by simp [Rpw.accepts, h]

theorem Rpw.accepts_of_lt {r : Rpw} (h : r.fifo.length < 8) : r.accepts = true := by simp [Rpw.accepts, h]

theorem produceLost_full {i : Input} {s : State} (h : 8 ≤ s.rpw.fifo.length) :
    (produceLost i s).rpw.fifo = s.rpw.fifo := by
  rw [produceLost_rpw]
  exact Rpw.produce_full _ h

theorem produceLost_length (i : Input) (s : State) : (produceLost i s).rpw.fifo.length ≤ s.rpw.fifo.length + 1 := by
  rw [produceLost_rpw]
  exact Rpw.produce_length_le _ _

/-- A full FIFO leaves a latch that is set, and one that is not. -/
theorem lossRetry_full {i : Input} {s : State} (h : 8 ≤ s.rpw.fifo.length) :
    ((lossRetry i s).input i).lossLatch = (s.input i).lossLatch ∧ (lossRetry i s).rpw.fifo = s.rpw.fifo := by
  unfold lossRetry
  split
  · next hl => exact ⟨by rw [produceLost_latch, Rpw.not_accepts h, hl]; rfl, produceLost_full h⟩
  · exact ⟨rfl, rfl⟩

theorem presenceReport_full {i : Input} {was : Bool} {s : State} (h : 8 ≤ s.rpw.fifo.length) :
    ((presenceReport i was s).input i).lossLatch = ((s.input i).lossLatch || (was && !(s.input i).present)) ∧
      (presenceReport i was s).rpw.fifo = s.rpw.fifo := by
  unfold presenceReport
  split
  · next heq => exact ⟨by rw [heq]; cases was <;> simp, rfl⟩
  · next hne =>
    split
    · next hwas =>
      have hp : (s.input i).present = false := by simpa [hwas] using hne
      have hl : ((produceLost i s).input i).lossLatch = true := by
        rw [produceLost_latch, Rpw.not_accepts h]
        rfl
      rw [hwas, hp, Bool.not_false, Bool.and_self, Bool.or_true]
      exact ⟨hl, produceLost_full h⟩
    · next hwas => exact ⟨by simp [hwas]; rfl, Rpw.produce_full _ h⟩

/-- A full FIFO leaves a set latch set and sets it at a loss (R11). -/
theorem windowReports_full {i : Input} {was : Bool} {s : State} (h : 8 ≤ s.rpw.fifo.length) :
    ((windowReports i was s).input i).lossLatch = ((s.input i).lossLatch || (was && !(s.input i).present)) ∧
      (windowReports i was s).rpw.fifo = s.rpw.fifo := by
  obtain ⟨hl, hf⟩ := lossRetry_full (i := i) h
  obtain ⟨hl', hf'⟩ := presenceReport_full (i := i) (was := was) (s := lossRetry i s) (by rw [hf]; exact h)
  have hp : ((lossRetry i s).input i).present = (s.input i).present := by
    rw [State.input_eq_get, (lossRetry_same i s).present, ← State.input_eq_get]
  rw [windowReports_eq]
  exact ⟨by rw [hl', hl, hp], hf'.trans hf⟩

/-- With room every loss is reported and the latch clear (R11). -/
theorem windowReports_room {i : Input} {was : Bool} {s : State} (h : s.rpw.fifo.length ≤ 6) :
    ((windowReports i was s).input i).lossLatch = false ∧
      (windowReports i was s).rpw.fifo.length ≤ s.rpw.fifo.length + 2 := by
  have h1 : ((lossRetry i s).input i).lossLatch = false ∧ (lossRetry i s).rpw.fifo.length ≤ s.rpw.fifo.length + 1 := by
    unfold lossRetry
    split
    · exact ⟨by rw [produceLost_latch, Rpw.accepts_of_lt (by omega)]; rfl, produceLost_length i s⟩
    · next hl => exact ⟨by simpa using hl, Nat.le_succ _⟩
  obtain ⟨hl, hlen⟩ := h1
  rw [windowReports_eq, presenceReport]
  split
  · exact ⟨hl, by omega⟩
  · split
    · have hlost := produceLost_length i (lossRetry i s)
      refine ⟨?_, show (produceLost i (lossRetry i s)).rpw.fifo.length ≤ _ by omega⟩
      show ((produceLost i (lossRetry i s)).input i).lossLatch = false
      rw [produceLost_latch, Rpw.accepts_of_lt (by omega)]
      rfl
    · have hlen' := Rpw.produce_length_le (lossRetry i s).rpw
        ((repInputPresent (lossRetry i s).rfe i).stamped (lossRetry i s).tgn.stamp)
      exact ⟨hl, show ((lossRetry i s).rpw.produce _).fifo.length ≤ _ by omega⟩

/-- The reports of one input leave the other input alone. -/
theorem windowReports_other (i : Input) (was : Bool) (s : State) :
    (windowReports i was s).input (otherInput i) = s.input (otherInput i) := by
  have hlost : ∀ s : State, (produceLost i s).input (otherInput i) = s.input (otherInput i) := fun s => by
    rw [State.input_eq_get, produceLost_rfe, ← State.input_eq_get, State.input_setInput_other]
  have h1 : (lossRetry i s).input (otherInput i) = s.input (otherInput i) := by
    unfold lossRetry
    split
    · exact hlost s
    · rfl
  rw [windowReports_eq, ← h1, presenceReport]
  split
  · rfl
  · split
    · exact hlost _
    · rfl

end Sys2Proof.Machine
end

section
/-!
PROOFS. A presence window end as a whole (R8 to R17): what it leaves of the inputs, the active input, the working
standard, and the records it hands on.
-/

namespace Sys2Proof.Machine

/-! ### Steps 1 and 2: both inputs judged and reported (R9) -/

/-- The state once both inputs have been judged and reported. -/
def windowJudged (s : State) : State :=
  windowReports .b s.rfe.inB.present (windowReports .a s.rfe.inA.present (windowJudge s))

theorem windowWork_eq (s : State) : windowWork s = windowStandard (windowPolicy (windowJudged s)) := rfl

@[simp] theorem windowJudged_frame (s : State) :
    (windowJudged s).lll = s.lll ∧ (windowJudged s).fal = s.fal ∧ (windowJudged s).tgn = s.tgn ∧
    (windowJudged s).cue = s.cue := by
  simp [windowJudged]

theorem windowJudge_input (s : State) (i : Input) :
    (windowJudge s).input i = (s.input i).window s.cue.settings.floor := by
  cases i <;> rfl

theorem windowJudged_same (s : State) : (windowJudge s).rfe.SameButLatches (windowJudged s).rfe :=
  (windowReports_same .a _ _).trans (windowReports_same .b _ _)

/-- Both inputs as judged, but for their loss latches. -/
theorem windowJudged_input (s : State) (i : Input) :
    (windowJudged s).input i = { (s.input i).window s.cue.settings.floor with
      lossLatch := ((windowJudged s).input i).lossLatch } := by
  rw [State.input_eq_get, (windowJudged_same s).2 i, ← State.input_eq_get, windowJudge_input]

theorem windowJudged_rest (s : State) : s.rfe.SameBut (windowJudged s).rfe :=
  Rfe.SameBut.trans (r' := (windowJudge s).rfe) rfl (windowJudged_same s).1

theorem windowJudged_latched {s : State} {i : Input}
    (h : (s.input i).judge s.cue.settings.floor ≠ (s.input i).present) :
    (windowJudged s).rpw.Latched .inputChange := by
  have hj : ((windowJudge s).input i).present ≠ (s.input i).present := by rw [windowJudge_input]; exact h
  cases i with
  | a => exact windowReports_keeps_latched _ _ (windowReports_latched hj)
  | b =>
    refine windowReports_latched ?_
    rwa [show Input.b = otherInput .a from rfl, windowReports_other]

theorem windowJudged_full {s : State} (h : 8 ≤ s.rpw.fifo.length) (i : Input) :
    ((windowJudged s).input i).lossLatch =
      ((s.input i).lossLatch || ((s.input i).present && !(s.input i).judge s.cue.settings.floor)) := by
  have hj : 8 ≤ (windowJudge s).rpw.fifo.length := h
  obtain ⟨hla, hfa⟩ := windowReports_full (i := .a) (was := s.rfe.inA.present) hj
  have ha : 8 ≤ (windowReports .a s.rfe.inA.present (windowJudge s)).rpw.fifo.length := by rw [hfa]; exact h
  cases i with
  | a =>
    rw [windowJudged, show Input.a = otherInput .b from rfl, windowReports_other]
    exact hla.trans (by rw [windowJudge_input]; rfl)
  | b =>
    rw [windowJudged, (windowReports_full ha).1, show Input.b = otherInput .a from rfl, windowReports_other,
      windowJudge_input]
    rfl

theorem windowJudged_room {s : State} (h : s.rpw.fifo.length ≤ 4) (i : Input) :
    ((windowJudged s).input i).lossLatch = false := by
  have hj : (windowJudge s).rpw.fifo.length ≤ 6 := show s.rpw.fifo.length ≤ 6 by omega
  obtain ⟨hla, hfa⟩ := windowReports_room (i := .a) (was := s.rfe.inA.present) hj
  have ha : (windowReports .a s.rfe.inA.present (windowJudge s)).rpw.fifo.length ≤ 6 :=
    hfa.trans (show s.rpw.fifo.length + 2 ≤ 6 by omega)
  cases i with
  | a =>
    rw [windowJudged, show Input.a = otherInput .b from rfl, windowReports_other]
    exact hla
  | b => exact (windowReports_room ha).1

/-! ### Step 3: the input policy (R15, R16) -/

theorem windowPolicy_named {s : State} {i : Input} (h : s.cue.settings.policy = .named i) : windowPolicy s = s := by
  simp only [windowPolicy, h]

theorem windowPolicy_present {s : State} (h : s.cue.settings.policy = .auto)
    (hp : (s.input s.rfe.active).present = true) :
    windowPolicy s = { s with rfe := { s.rfe with absence := 0 } } := by
  simp only [windowPolicy, h, hp, if_true]

theorem windowPolicy_waits {s : State} (h : s.cue.settings.policy = .auto)
    (hp : (s.input s.rfe.active).present = false)
    (hw : (s.input (otherInput s.rfe.active)).present = false ∨ satSucc 15 s.rfe.absence < s.cue.settings.switchWin) :
    windowPolicy s = { s with rfe := { s.rfe with absence := satSucc 15 s.rfe.absence } } := by
  have hcond : (decide (s.cue.settings.switchWin ≤ satSucc 15 s.rfe.absence) &&
      (s.input (otherInput s.rfe.active)).present) = false := by
    rcases hw with hw | hw
    · simp [hw]
    · simp [Nat.not_le.2 hw]
  simp only [windowPolicy, h, hp, hcond]
  rfl

theorem windowPolicy_switches {s : State} (h : s.cue.settings.policy = .auto)
    (hp : (s.input s.rfe.active).present = false) (ho : (s.input (otherInput s.rfe.active)).present = true)
    (hw : s.cue.settings.switchWin ≤ satSucc 15 s.rfe.absence) :
    windowPolicy s =
      changeActive (otherInput s.rfe.active) .auto { s with rfe := { s.rfe with absence := 0 } } := by
  simp only [windowPolicy, h, hp, ho, decide_eq_true hw]
  rfl

/-- The active input changes, or the policy does no more than count. -/
theorem windowPolicy_cases (s : State) :
    (∃ n, windowPolicy s = { s with rfe := { s.rfe with absence := n } }) ∨
    windowPolicy s = changeActive (otherInput s.rfe.active) .auto { s with rfe := { s.rfe with absence := 0 } } := by
  cases hpol : s.cue.settings.policy with
  | named i => exact .inl ⟨s.rfe.absence, windowPolicy_named hpol⟩
  | auto =>
    cases hp : (s.input s.rfe.active).present with
    | true => exact .inl ⟨0, windowPolicy_present hpol hp⟩
    | false =>
      cases ho : (s.input (otherInput s.rfe.active)).present with
      | false => exact .inl ⟨_, windowPolicy_waits hpol hp (.inl ho)⟩
      | true =>
        rcases Nat.lt_or_ge (satSucc 15 s.rfe.absence) s.cue.settings.switchWin with hw | hw
        · exact .inl ⟨_, windowPolicy_waits hpol hp (.inr hw)⟩
        · exact .inr (windowPolicy_switches hpol hp ho hw)

/-- RFE after a change of active input (R17). -/
theorem changeActive_rfe (i : Input) (why : SwitchReason) (s : State) :
    (changeActive i why s).rfe = { s.rfe with active := i, differ := 0, warned := false } := by
  simp [changeActive]

theorem changeActive_lll (i : Input) (why : SwitchReason) (s : State) :
    (changeActive i why s).lll = s.lll.switch.1 := by
  simp [changeActive, sourceNotice, State.withLoop]

theorem changeActive_fal (i : Input) (why : SwitchReason) (s : State) :
    (changeActive i why s).fal = (s.fal.enterSeek .switch).1 := by
  simp [changeActive, sourceNotice, falSeek]

theorem windowPolicy_input (s : State) (i : Input) : (windowPolicy s).input i = s.input i := by
  rcases windowPolicy_cases s with ⟨n, h⟩ | h
  · rw [h]
    exact State.input_congr (s := s) ⟨rfl, rfl⟩ i
  · rw [h]
    exact State.input_congr (s := s) (by rw [changeActive_rfe]; exact ⟨rfl, rfl⟩) i

theorem windowPolicy_keeps_latched {s : State} (h : s.rpw.Latched .inputChange) :
    (windowPolicy s).rpw.Latched .inputChange := by
  rcases windowPolicy_cases s with ⟨n, hp⟩ | hp
  · rw [hp]; exact h
  · rw [hp]; exact changeActive_latched _ _ _

/-! ### Step 4: the working standard (R13, R14) -/

section
variable {s : State}

theorem windowStandard_agrees (h : s.cue.settings.stdMode = .auto)
    (hd : (s.input s.rfe.active).detected = none ∨ (s.input s.rfe.active).detected = some s.rfe.working) :
    windowStandard s = { s with rfe := { s.rfe with differ := 0 } } := by
  rcases hd with hd | hd <;> simp only [windowStandard, h, hd, if_true]

theorem windowStandard_first {d : Standard} (h : s.cue.settings.stdMode = .auto)
    (hd : (s.input s.rfe.active).detected = some d) (hne : d ≠ s.rfe.working) (hdiff : s.rfe.differ = 0) :
    windowStandard s = { s with rfe := { s.rfe with differ := 1 } } := by
  simp [windowStandard, h, hd, hne, hdiff]

theorem windowStandard_changes {d : Standard} (h : s.cue.settings.stdMode = .auto)
    (hd : (s.input s.rfe.active).detected = some d) (hne : d ≠ s.rfe.working) (hdiff : 1 ≤ s.rfe.differ) :
    windowStandard s = changeStandard d false { s with rfe := { s.rfe with differ := 0 } } := by
  have h2 : 2 ≤ s.rfe.differ + 1 := by omega
  simp only [windowStandard, h, hd, if_neg hne, if_pos h2]

theorem windowStandard_unknown {f : Standard} (h : s.cue.settings.stdMode = .force f)
    (hd : (s.input s.rfe.active).detected = none) : windowStandard s = s := by
  simp only [windowStandard, h, hd]

theorem windowStandard_met {f : Standard} (h : s.cue.settings.stdMode = .force f)
    (hd : (s.input s.rfe.active).detected = some f) :
    windowStandard s = { s with rfe := { s.rfe with warned := false } } := by
  simp only [windowStandard, h, hd, if_true]

theorem windowStandard_warned {d f : Standard} (h : s.cue.settings.stdMode = .force f)
    (hd : (s.input s.rfe.active).detected = some d) (hne : d ≠ f) (hw : s.rfe.warned = true) :
    windowStandard s = s := by
  simp only [windowStandard, h, hd, if_neg hne, hw, if_true]

theorem windowStandard_warns {d f : Standard} (h : s.cue.settings.stdMode = .force f)
    (hd : (s.input s.rfe.active).detected = some d) (hne : d ≠ f) (hw : s.rfe.warned = false) :
    windowStandard s =
      produce (repWarnStandard d f s.rfe.active) { s with rfe := { s.rfe with warned := true } } := by
  simp [windowStandard, h, hd, hne, hw]

end

/-- The standard changes, under AUTO, or no more than RFE's own marks and a warning. -/
theorem windowStandard_cases (s : State) :
    (∃ n b rs, windowStandard s = produceAll rs { s with rfe := { s.rfe with differ := n, warned := b } }) ∨
    (s.cue.settings.stdMode = .auto ∧ 1 ≤ s.rfe.differ ∧
      ∃ d, windowStandard s = changeStandard d false { s with rfe := { s.rfe with differ := 0 } }) := by
  cases hmode : s.cue.settings.stdMode with
  | auto =>
    cases hd : (s.input s.rfe.active).detected with
    | none => exact .inl ⟨0, s.rfe.warned, [], windowStandard_agrees hmode (.inl hd)⟩
    | some d =>
      by_cases hne : d = s.rfe.working
      · exact .inl ⟨0, s.rfe.warned, [], windowStandard_agrees hmode (.inr (hne ▸ hd))⟩
      · rcases Nat.eq_zero_or_pos s.rfe.differ with hz | hpos
        · exact .inl ⟨1, s.rfe.warned, [], windowStandard_first hmode hd hne hz⟩
        · exact .inr ⟨rfl, hpos, d, windowStandard_changes hmode hd hne hpos⟩
  | force f =>
    refine .inl ?_
    cases hd : (s.input s.rfe.active).detected with
    | none => exact ⟨s.rfe.differ, s.rfe.warned, [], windowStandard_unknown hmode hd⟩
    | some d =>
      by_cases hne : d = f
      · exact ⟨s.rfe.differ, false, [], windowStandard_met hmode (hne ▸ hd)⟩
      · cases hw : s.rfe.warned with
        | true => exact ⟨s.rfe.differ, s.rfe.warned, [], windowStandard_warned hmode hd hne hw⟩
        | false => exact ⟨s.rfe.differ, true, [_], windowStandard_warns hmode hd hne hw⟩

/-- RFE after a change of the working standard. -/
theorem changeStandard_rfe (d : Standard) (f : Bool) (s : State) :
    (changeStandard d f s).rfe = { s.rfe with working := d } := by
  simp [changeStandard]

theorem changeStandard_lll (d : Standard) (f : Bool) (s : State) :
    (changeStandard d f s).lll = (s.lll.standard d).1 := by
  simp [changeStandard, State.withLoop]

theorem changeStandard_fal (d : Standard) (f : Bool) (s : State) :
    (changeStandard d f s).fal = (s.fal.enterSeek .standard).1 := by
  simp [changeStandard, falSeek]

/-- Step 4 leaves the inputs, the active one and the absence count. -/
theorem windowStandard_rfe (s : State) :
    (windowStandard s).rfe = { s.rfe with
      working := (windowStandard s).rfe.working
      differ := (windowStandard s).rfe.differ, warned := (windowStandard s).rfe.warned } := by
  rcases windowStandard_cases s with ⟨n, b, rs, h⟩ | ⟨-, -, d, h⟩
  · rw [h]; simp
  · rw [h]; simp [changeStandard_rfe]

theorem windowStandard_input (s : State) (i : Input) : (windowStandard s).input i = s.input i :=
  State.input_congr (s := s) (by rw [windowStandard_rfe s]; exact ⟨rfl, rfl⟩) i

theorem windowStandard_active (s : State) : (windowStandard s).rfe.active = s.rfe.active := by
  rw [windowStandard_rfe s]

theorem windowStandard_absence (s : State) : (windowStandard s).rfe.absence = s.rfe.absence := by
  rw [windowStandard_rfe s]

theorem windowStandard_keeps_latched {c : Cause} {s : State} (h : s.rpw.Latched c) :
    (windowStandard s).rpw.Latched c := by
  rcases windowStandard_cases s with ⟨n, b, rs, hw⟩ | ⟨-, -, d, hw⟩
  · rw [hw]; exact produceAll_latched _ h
  · rw [hw]
    unfold changeStandard falSeek State.withLoop
    exact produceAll_latched _ (produceAll_latched _ (produce_latched _ h))

/-! ### The whole window end -/

section
variable (s : State)

/-- The state that a window end judges and that its later steps go on from. -/
def State.windowStart : State := s.atTick s.rfe.windowAt

theorem windowEnd_rfe : (nextState .windowEnd s).rfe =
    { (windowWork s.windowStart).rfe with windowAt := s.rfe.windowAt + 720000 } := by
  rw [nextState_windowEnd]
  rfl

theorem windowEnd_input (i : Input) : (nextState .windowEnd s).input i = (windowJudged s.windowStart).input i := by
  rw [State.input_congr (s := windowWork s.windowStart) (by rw [windowEnd_rfe]; exact ⟨rfl, rfl⟩), windowWork_eq,
    windowStandard_input, windowPolicy_input]

theorem windowEnd_active : (nextState .windowEnd s).rfe.active = (windowPolicy (windowJudged s.windowStart)).rfe.active := by
  rw [windowEnd_rfe, windowWork_eq]
  generalize s.rfe.windowAt + 720000 = next
  exact windowStandard_active _

theorem windowJudged_start_rest : (windowJudged s.windowStart).rfe =
    { s.rfe with
      tick := s.rfe.windowAt
      inA := (windowJudged s.windowStart).rfe.inA, inB := (windowJudged s.windowStart).rfe.inB } := by
  have h : (windowJudged s.windowStart).rfe = { s.windowStart.rfe with
      inA := (windowJudged s.windowStart).rfe.inA, inB := (windowJudged s.windowStart).rfe.inB } :=
    windowJudged_rest s.windowStart
  exact h

end

/-- R12's detected standard, by its two ranges of the mean spacing. -/
theorem detectStandard_iff (count sum : Nat) :
    (detectStandard count sum = some .s625 ↔ 100 ≤ count ∧ 2298 ≤ sum / count ∧ sum / count ≤ 2310) ∧
    (detectStandard count sum = some .s525 ↔ 100 ≤ count ∧ 2282 ≤ sum / count ∧ sum / count ≤ 2294) := by
  unfold detectStandard
  generalize sum / count = mean
  constructor
  · split
    · simp; omega
    · split
      · simp; omega
      · split <;> simp <;> omega
  · split
    · simp; omega
    · split
      · simp; omega
      · split <;> simp <;> omega

/-- Settles O17. -/
theorem windowEndJudges : Obligations.WindowEndJudges := by
  intro s
  have hfloor : s.windowStart.cue.settings.floor = s.cue.settings.floor := rfl
  refine ⟨nextState .windowEnd s, exec_eq_nextState _ _, ?_, ?_, fun i => ?_, ?_⟩
  · rw [windowEnd_rfe, windowWork_eq, windowStandard_rfe]
    rcases windowPolicy_cases (windowJudged s.windowStart) with ⟨n, h⟩ | h
    · rw [h, windowJudged_start_rest]
    · rw [h, changeActive_rfe, windowJudged_start_rest]
  · rw [windowEnd_rfe]
  · have hin : s.windowStart.input i = s.input i := State.input_congr ⟨rfl, rfl⟩ i
    have hlatch : ∀ {t : State}, t.rpw.Latched .inputChange → (windowStandard (windowPolicy t)).rpw.Latched .inputChange :=
      fun h => windowStandard_keeps_latched (windowPolicy_keeps_latched h)
    have hrpw : (nextState .windowEnd s).rpw = (windowStandard (windowPolicy (windowJudged s.windowStart))).rpw := by
      rw [nextState_windowEnd, ← windowWork_eq]
      rfl
    have hall := windowJudged_input s.windowStart i
    rw [hin] at hall
    have hdet : ((windowJudged s.windowStart).input i).detected =
        detectStandard (s.input i).spacingCount (s.input i).spacingSum := by rw [hall]; rfl
    obtain ⟨h625, h525⟩ := detectStandard_iff (s.input i).spacingCount (s.input i).spacingSum
    dsimp only
    rw [windowEnd_input, hdet]
    refine ⟨hall, h625, h525, fun hne => ?_, fun hfull => ?_, fun hroom => windowJudged_room (s := s.windowStart) hroom i⟩
    · rw [hrpw]
      exact hlatch (windowJudged_latched (i := i) (by rw [hin]; exact hne))
    · rw [windowJudged_full (s := s.windowStart) hfull, hin]
      rfl
  · rw [nextState_windowEnd]
    simp

end Sys2Proof.Machine
end

section
/-!
PROOFS. What a presence window end decides: the active input (R15 to R17), the working standard (R13, R14), and the
records it hands on in their order (R10, R11, R14, R15, R17).
-/

namespace Sys2Proof.Machine

section
variable (s : State)

/-- A window end, but for RFE's instant of the next one. -/
theorem windowEnd_rest :
    (nextState .windowEnd s).lll = (windowStandard (windowPolicy (windowJudged s.windowStart))).lll ∧
    (nextState .windowEnd s).fal = (windowStandard (windowPolicy (windowJudged s.windowStart))).fal ∧
    (nextState .windowEnd s).rpw = (windowStandard (windowPolicy (windowJudged s.windowStart))).rpw := by
  rw [nextState_windowEnd, ← windowWork_eq]
  exact ⟨rfl, rfl, rfl⟩

theorem windowEnd_marks :
    (nextState .windowEnd s).rfe.working = (windowStandard (windowPolicy (windowJudged s.windowStart))).rfe.working ∧
    (nextState .windowEnd s).rfe.differ = (windowStandard (windowPolicy (windowJudged s.windowStart))).rfe.differ ∧
    (nextState .windowEnd s).rfe.warned = (windowStandard (windowPolicy (windowJudged s.windowStart))).rfe.warned ∧
    (nextState .windowEnd s).rfe.absence = (windowPolicy (windowJudged s.windowStart)).rfe.absence := by
  rw [windowEnd_rfe, windowWork_eq]
  generalize s.rfe.windowAt + 720000 = next
  exact ⟨rfl, rfl, rfl, windowStandard_absence _⟩

/-- The marks of RFE that the policy finds are those the window end found. -/
theorem windowJudged_start_marks :
    (windowJudged s.windowStart).rfe.active = s.rfe.active ∧
    (windowJudged s.windowStart).rfe.absence = s.rfe.absence ∧
    (windowJudged s.windowStart).rfe.working = s.rfe.working ∧
    (windowJudged s.windowStart).rfe.differ = s.rfe.differ ∧
    (windowJudged s.windowStart).rfe.warned = s.rfe.warned := by
  rw [windowJudged_start_rest]
  exact ⟨rfl, rfl, rfl, rfl, rfl⟩

theorem windowJudged_start_frame :
    (windowJudged s.windowStart).lll = s.lll ∧ (windowJudged s.windowStart).fal = s.fal ∧
    (windowJudged s.windowStart).tgn = s.tgn ∧ (windowJudged s.windowStart).cue = s.cue := by
  simp [State.windowStart]

end

theorem satSucc_eq_min {cap n : Nat} : satSucc cap n = min cap (n + 1) := by
  unfold satSucc
  split <;> omega

/-! ### The active input (R15 to R17) -/

/-- A standard found anew after a change of active input is one window in a row at most, and no change. -/
theorem windowStandard_of_differ_zero {s : State} (h : s.rfe.differ = 0) :
    (windowStandard s).rfe.working = s.rfe.working ∧ (windowStandard s).lll = s.lll ∧ (windowStandard s).fal = s.fal := by
  rcases windowStandard_cases s with ⟨n, b, rs, hw⟩ | ⟨-, hpos, -⟩
  · rw [hw]; simp
  · omega

/-- Settles O18. -/
theorem windowEndSwitchesInputs : Obligations.WindowEndSwitchesInputs := by
  intro s
  obtain ⟨hactive, habs, hwork, -, -⟩ := windowJudged_start_marks s
  obtain ⟨hlll, hfal, -, hcue⟩ := windowJudged_start_frame s
  obtain ⟨hl, hf, hr⟩ := windowEnd_rest s
  obtain ⟨hw, -, -, ha⟩ := windowEnd_marks s
  have hact := windowEnd_active s
  have hin := windowEnd_input s
  set j := windowJudged s.windowStart
  refine ⟨nextState .windowEnd s, exec_eq_nextState _ _, fun i hpol => ?_, fun hpol => ?_⟩
  · rw [hact, ha, windowPolicy_named (i := i) (by rw [hcue]; exact hpol)]
    exact ⟨hactive, habs⟩
  rw [← hcue] at hpol ⊢
  rw [hin, hin, hact, ha, ← hactive, ← habs, ← satSucc_eq_min]
  refine ⟨fun hp => ?_, fun hp => ⟨fun hwait => ?_, fun ho hge => ?_⟩⟩
  · rw [windowPolicy_present hpol hp]
    exact ⟨rfl, rfl⟩
  · rw [windowPolicy_waits hpol hp hwait]
    exact ⟨rfl, rfl⟩
  · rw [hl, hf, hr, hw]
    have hsw := windowPolicy_switches hpol hp ho hge
    obtain ⟨hkeep, hkeepL, hkeepF⟩ := windowStandard_of_differ_zero (s := windowPolicy j)
      (by rw [hsw, changeActive_rfe])
    rw [hkeep, hkeepL, hkeepF]
    refine ⟨by rw [hsw, changeActive_rfe], by rw [hsw, changeActive_rfe], ?_, by rw [hsw, changeActive_rfe, hwork], ?_, ?_⟩
    · exact windowStandard_keeps_latched (by rw [hsw]; exact changeActive_latched _ _ _)
    · rw [hsw, changeActive_fal, ← hfal]
      rfl
    · rw [hsw, changeActive_lll]
      rw [show ({ j with rfe := { j.rfe with absence := 0 } } : State).lll = s.lll from hlll]
      refine ⟨fun hfree => ?_, fun hhold => ?_, fun hnf hnh => ?_⟩
      · simp only [Lll.switch, hfree]
      · simp only [Lll.switch, hhold]
      · unfold Lll.switch
        split <;> simp_all

/-! ### The working standard (R13, R14) -/

/-- Settles O19. -/
theorem windowEndSettlesTheStandard : Obligations.WindowEndSettlesTheStandard := by
  intro s
  obtain ⟨hactive, -, hwork, hdiff, -⟩ := windowJudged_start_marks s
  obtain ⟨-, -, -, hcue⟩ := windowJudged_start_frame s
  obtain ⟨hl, hf, -⟩ := windowEnd_rest s
  obtain ⟨hw, hd, -, -⟩ := windowEnd_marks s
  have hact := windowEnd_active s
  have hin := windowEnd_input s
  set j := windowJudged s.windowStart
  have hpcue : (windowPolicy j).cue = s.cue := by simpa using hcue
  have hpwork : (windowPolicy j).rfe.working = s.rfe.working := by rw [windowPolicy_working, hwork]
  refine ⟨nextState .windowEnd s, exec_eq_nextState _ _, fun d hmode => ?_, fun hmode => ⟨fun d hdet hne hsame => ?_,
    fun hdet => ?_⟩⟩
  · rw [hw, windowStandard_working (d := d) (by rw [hpcue]; exact hmode), hpwork]
  · rw [← hpcue] at hmode
    rw [hact] at hsame
    rw [hin, hact, ← windowPolicy_input] at hdet
    rw [← hpwork] at hne
    have hpdiff : (windowPolicy j).rfe.differ = s.rfe.differ := by
      rcases windowPolicy_cases j with ⟨n, h⟩ | h
      · rw [h]; exact hdiff
      · rw [h, changeActive_rfe] at hsame
        have hother : otherInput s.rfe.active = s.rfe.active := hactive ▸ hsame
        cases hin : s.rfe.active <;> simp [hin, otherInput] at hother
    rw [hw, hd, hl, hf]
    refine ⟨fun hz => ?_, fun hpos => ?_⟩
    · rw [windowStandard_first hmode hdet hne (hpdiff.trans hz)]
      exact ⟨hpwork, rfl⟩
    · rw [windowStandard_changes hmode hdet hne (by omega), changeStandard_rfe, changeStandard_lll, changeStandard_fal]
      exact ⟨rfl, rfl, rfl, rfl, rfl, clampI_half _ _, clampI_half _ _, clampI_half _ _, rfl, rfl⟩
  · rw [← hpcue] at hmode
    rw [hin, hact, ← windowPolicy_input, ← hpwork] at hdet
    rw [hw, hd, windowStandard_agrees hmode hdet]
    exact ⟨hpwork, rfl⟩

/-! ### The records (R10, R11, R14, R15, R17) -/

/-- The records of steps 1 and 2: those of input A, then those of input B. -/
def State.windowChanges (s : State) : List Report :=
  (windowRecords (windowJudge s).rfe .a s.rfe.inA.lossLatch s.rfe.inA.present ++
    windowRecords (windowJudge s).rfe .b s.rfe.inB.lossLatch s.rfe.inB.present).map (·.stamped s.tgn.stamp)

theorem windowRecords_length (r : Rfe) (i : Input) (l was : Bool) : (windowRecords r i l was).length ≤ 2 := by
  rw [windowRecords, List.length_append]
  have h1 : (if l then [repInputLost r i] else []).length ≤ 1 := by split <;> simp
  have h2 : (if (r.get i).present = was then [] else if was then [repInputLost r i]
      else [repInputPresent r i]).length ≤ 1 := by (repeat' split) <;> simp
  omega

theorem State.windowChanges_length (s : State) : s.windowChanges.length ≤ 4 := by
  have ha := windowRecords_length (windowJudge s).rfe .a s.rfe.inA.lossLatch s.rfe.inA.present
  have hb := windowRecords_length (windowJudge s).rfe .b s.rfe.inB.lossLatch s.rfe.inB.present
  rw [State.windowChanges, List.length_map, List.length_append]
  omega

theorem windowJudged_adds (s : State) : s.rpw.Adds (windowJudged s).rpw s.windowChanges := by
  have ha := windowReports_adds .a s.rfe.inA.present (windowJudge s)
  have hb := windowReports_adds .b s.rfe.inB.present (windowReports .a s.rfe.inA.present (windowJudge s))
  have hlatch : ((windowReports .a s.rfe.inA.present (windowJudge s)).input .b).lossLatch = s.rfe.inB.lossLatch := by
    rw [show Input.b = otherInput .a from rfl, windowReports_other]
    rfl
  rw [windowRecords_congr (windowReports_same .a _ _), hlatch] at hb
  have hall := ha.trans hb
  simp only [windowReports_frame, ← List.map_append] at hall
  exact hall

/-- The warning of a forced standard mode (R14). -/
def State.windowWarning (s : State) (f : Standard) : List Report :=
  match (s.input s.rfe.active).detected with
  | some d => if d ≠ f ∧ s.rfe.warned = false then [(repWarnStandard d f s.rfe.active).stamped s.tgn.stamp] else []
  | none => []

theorem windowStandard_force {s : State} {f : Standard} (h : s.cue.settings.stdMode = .force f) :
    s.rpw.Adds (windowStandard s).rpw (s.windowWarning f) ∧
    (windowStandard s).rfe.warned =
      (match (s.input s.rfe.active).detected with | some d => decide (d ≠ f) | none => s.rfe.warned) := by
  cases hd : (s.input s.rfe.active).detected with
  | none =>
    rw [windowStandard_unknown h hd, State.windowWarning, hd]
    exact ⟨Rpw.Adds.refl _, rfl⟩
  | some d =>
    by_cases hne : d = f
    · subst hne
      have hnone : s.windowWarning d = [] := by simp [State.windowWarning, hd]
      rw [windowStandard_met h hd, hnone]
      exact ⟨Rpw.Adds.refl _, by simp⟩
    · cases hw : s.rfe.warned with
      | true =>
        have hnone : s.windowWarning f = [] := by simp [State.windowWarning, hd, hw]
        rw [windowStandard_warned h hd hne hw, hnone]
        exact ⟨Rpw.Adds.refl _, by simp [hw, hne]⟩
      | false =>
        have hone : s.windowWarning f = [(repWarnStandard d f s.rfe.active).stamped s.tgn.stamp] := by
          simp [State.windowWarning, hd, hw, hne]
        rw [windowStandard_warns h hd hne hw, hone]
        exact ⟨produce_adds _ { s with rfe := { s.rfe with warned := true } }, by simp [hne]⟩

theorem withLoop_adds (r : Lll × List Report) (s : State) :
    s.rpw.Adds (s.withLoop r).rpw (r.2.map (·.stamped s.tgn.stamp)) :=
  produceAll_adds r.2 { s with lll := r.1 }

theorem falSeek_adds (why : LostReason) (s : State) :
    s.rpw.Adds (falSeek why s).rpw ((s.fal.enterSeek why).2.map (·.stamped s.tgn.stamp)) :=
  produceAll_adds (s.fal.enterSeek why).2 { s with fal := (s.fal.enterSeek why).1 }

/-- A change of the working standard: LOCK/STANDARD, then LLL's and FAL's records (R43, R56). -/
theorem changeStandard_adds (d : Standard) (b : Bool) (s : State) :
    s.rpw.Adds (changeStandard d b s).rpw ((repStandard d s.rfe.active b).stamped s.tgn.stamp ::
      ((s.lll.standard d).2 ++ (s.fal.enterSeek .standard).2).map (·.stamped s.tgn.stamp)) := by
  let s1 := produce (repStandard d s.rfe.active b) { s with rfe := { s.rfe with working := d } }
  have h1 : s.rpw.Adds s1.rpw [(repStandard d s.rfe.active b).stamped s.tgn.stamp] :=
    produce_adds _ { s with rfe := { s.rfe with working := d } }
  have hall := h1.trans ((withLoop_adds (s1.lll.standard d) s1).trans
    (falSeek_adds .standard (s1.withLoop (s1.lll.standard d))))
  rw [(State.withLoop_frame _ s1).2.1, (State.withLoop_frame _ s1).2.2.1] at hall
  rw [List.map_append]
  exact hall

/-- A change of active input: INPUT/SWITCHED, then LLL's and FAL's records (R17, R42, R56). -/
theorem changeActive_adds (i : Input) (why : SwitchReason) (s : State) :
    s.rpw.Adds (changeActive i why s).rpw
      ((repInputSwitched { s.rfe with active := i, differ := 0, warned := false } why).stamped s.tgn.stamp ::
        (s.lll.switch.2 ++ (s.fal.enterSeek .switch).2).map (·.stamped s.tgn.stamp)) := by
  let s1 := latch .inputChange (produce (repInputSwitched { s.rfe with active := i, differ := 0, warned := false } why)
    { s with rfe := { s.rfe with active := i, differ := 0, warned := false } })
  have h1 : s.rpw.Adds s1.rpw
      [(repInputSwitched { s.rfe with active := i, differ := 0, warned := false } why).stamped s.tgn.stamp] :=
    (produce_adds _ { s with rfe := { s.rfe with active := i, differ := 0, warned := false } }).then_eq rfl rfl
  have hall := h1.trans ((withLoop_adds s1.lll.switch s1).trans (falSeek_adds .switch (s1.withLoop s1.lll.switch)))
  rw [(State.withLoop_frame _ s1).2.1, (State.withLoop_frame _ s1).2.2.1] at hall
  rw [List.map_append]
  exact hall

/-- The words that name LLL's record of a standard change, and FAL's of an entry to F_SEEK. -/
theorem standard_words (l : Lll) (d : Standard) :
    (l.standard d).2.map (·.w0) = if l.loop = .free then [] else [0x0205#16] := by
  simp only [Lll.standard]
  split <;> rfl

theorem switch_words (l : Lll) :
    l.switch.2.map (·.w0) = if l.loop = .free ∨ l.loop = .holdover then [] else [0x0204#16] := by
  unfold Lll.switch
  split <;> simp_all [repHoldover]

theorem enterSeek_words (f : Fal) (why : LostReason) :
    (f.enterSeek why).2.map (·.w0) = if f.field = .seek then [] else [0x0304#16] := by
  simp only [Fal.enterSeek]
  split <;> rfl

theorem words_of_records (rs : List Report) (g : Stamp) :
    ((rs.map (·.stamped g)).map (fun r => (⟨r, none⟩ : FifoRecord))).map (fun r => r.report.w0) = rs.map (·.w0) := by
  simp [Report.stamped]

theorem length_le_of_words {rs : List Report} {p : Prop} [Decidable p] {w : Word}
    (h : rs.map (·.w0) = if p then [] else [w]) : rs.length ≤ 1 := by
  have hlen := congrArg List.length h
  rw [List.length_map] at hlen
  split at hlen <;> simp_all

/-- The active input stays and the policy adds no record, or it changes. -/
theorem windowPolicy_stays {s : State} (h : (windowPolicy s).rfe.active = s.rfe.active) :
    ∃ n, windowPolicy s = { s with rfe := { s.rfe with absence := n } } := by
  rcases windowPolicy_cases s with hn | hsw
  · exact hn
  · rw [hsw, changeActive_rfe] at h
    have hother : otherInput s.rfe.active = s.rfe.active := h
    cases hin : s.rfe.active <;> simp [hin, otherInput] at hother

theorem windowPolicy_moves {s : State} (h : (windowPolicy s).rfe.active ≠ s.rfe.active) :
    windowPolicy s = changeActive (otherInput s.rfe.active) .auto { s with rfe := { s.rfe with absence := 0 } } := by
  rcases windowPolicy_cases s with ⟨n, hn⟩ | hsw
  · rw [hn] at h
    exact absurd rfl h
  · exact hsw

/-- Under AUTO the standard changes, or no more than RFE's own count of windows. -/
theorem windowStandard_auto_cases {s : State} (h : s.cue.settings.stdMode = .auto) :
    (∃ n, windowStandard s = { s with rfe := { s.rfe with differ := n } }) ∨
    (∃ d, d ≠ s.rfe.working ∧ 1 ≤ s.rfe.differ ∧
      windowStandard s = changeStandard d false { s with rfe := { s.rfe with differ := 0 } }) := by
  cases hd : (s.input s.rfe.active).detected with
  | none => exact .inl ⟨0, windowStandard_agrees h (.inl hd)⟩
  | some d =>
    by_cases hne : d = s.rfe.working
    · exact .inl ⟨0, windowStandard_agrees h (.inr (hne ▸ hd))⟩
    · rcases Nat.eq_zero_or_pos s.rfe.differ with hz | hpos
      · exact .inl ⟨1, windowStandard_first h hd hne hz⟩
      · exact .inr ⟨d, hne, hpos, windowStandard_changes h hd hne hpos⟩

/-- What a window end leaves of an input's presence and standard is what the judgement gave. -/
theorem windowEnd_judged (s : State) (i : Input) :
    ((nextState .windowEnd s).input i).present = ((windowJudge s.windowStart).rfe.get i).present ∧
    ((nextState .windowEnd s).input i).detected = ((windowJudge s.windowStart).rfe.get i).detected := by
  have hsame := windowJudged_same s.windowStart
  rw [windowEnd_input, State.input_eq_get]
  exact ⟨hsame.present i, hsame.detected i⟩

/-- Settles O20. -/
theorem windowEndReports : Obligations.WindowEndReports := by
  intro s hgap
  obtain ⟨hactive, -, hwork, hdiff, hwarned⟩ := windowJudged_start_marks s
  obtain ⟨hlll, hfal, htgn, hcue⟩ := windowJudged_start_frame s
  obtain ⟨-, -, hr⟩ := windowEnd_rest s
  obtain ⟨hw, -, hwarn, -⟩ := windowEnd_marks s
  have hact := windowEnd_active s
  have hin := windowEnd_input s
  have hjudged := windowEnd_judged s
  have hadds := windowJudged_adds s.windowStart
  have hlen := s.windowStart.windowChanges_length
  refine ⟨nextState .windowEnd s, exec_eq_nextState _ _, ?_⟩
  intro inCode word found stdCode input ofInput changes switched warn records
  set j := windowJudged s.windowStart
  have hcode : ∀ i, inCode i = inputCode i := fun i => by cases i <;> rfl
  have hstd : ∀ d, stdCode d = wordOfNat d.code := fun d => by cases d <;> rfl
  have hword : ∀ i act, word i act = wordOfNat (inputCode i + 2 * bitOf (nextState .windowEnd s).rfe.inA.present
      + 4 * bitOf (nextState .windowEnd s).rfe.inB.present + 8 * inputCode act) := fun i act => by
    simp only [word, hcode, wordOfNat]
    cases (nextState .windowEnd s).rfe.inA.present <;> cases (nextState .windowEnd s).rfe.inB.present <;> rfl
  have hinput : ∀ w0 i, input w0 i = (repInput w0 (windowJudge s.windowStart).rfe i).stamped s.tgn.stamp := fun w0 i => by
    have ha : (nextState .windowEnd s).rfe.inA.present = (windowJudge s.windowStart).rfe.inA.present := (hjudged .a).1
    have hb : (nextState .windowEnd s).rfe.inB.present = (windowJudge s.windowStart).rfe.inB.present := (hjudged .b).1
    have hfound : found i = wordOfNat (detectedCode ((windowJudge s.windowStart).rfe.get i).detected) := by
      rw [← (hjudged i).2]
      rcases hd : ((nextState .windowEnd s).input i).detected with _ | _ | _ <;> simp only [found, hd] <;> rfl
    simp only [input, hword, hfound, ha, hb]
    rfl
  have hchg : changes = s.windowStart.windowChanges := by
    have hof : ∀ i, ofInput i = (windowRecords (windowJudge s.windowStart).rfe i (s.input i).lossLatch
        (s.input i).present).map (·.stamped s.tgn.stamp) := fun i => by
      simp only [ofInput, hinput, (hjudged i).1, windowRecords, List.map_append]
      refine congrArg₂ _ ?_ ?_
      · split <;> rfl
      · (repeat' split) <;> rfl
    simp only [changes, hof, ← List.map_append]
    rfl
  have hwarning : ∀ (f : Standard), (windowPolicy j).windowWarning f = warn (windowPolicy j).rfe.warned f := fun f => by
    have hstamp : (windowPolicy j).tgn.stamp = s.tgn.stamp := by simpa using congrArg Tgn.stamp htgn
    simp only [State.windowWarning, warn, hact, hin, windowPolicy_input, hstamp, hcode, hstd]
    cases (j.input (windowPolicy j).rfe.active).detected <;> rfl
  have hpcue : (windowPolicy j).cue = s.cue := by simpa using hcue
  have hpwork : (windowPolicy j).rfe.working = s.rfe.working := by rw [windowPolicy_working, hwork]
  have hrec : ∀ rs, records rs = rs.map (fun r => ⟨r, none⟩) := fun _ => rfl
  have hgap' : s.windowStart.rpw.openGap = 0 := hgap
  have hfifo : s.windowStart.rpw.fifo = s.rpw.fifo := rfl
  rw [hr, hchg]
  refine ⟨fun hstay => ⟨fun f hmode => ⟨fun hroom => ?_, ?_⟩, fun hmode hkeep hroom => ?_, fun hmode hne hroom => ?_⟩,
    fun hmove hempty => ?_⟩
  · obtain ⟨n, hp⟩ := windowPolicy_stays (s := j) (by rw [← hact, hstay, hactive])
    have hforce := (windowStandard_force (s := windowPolicy j) (f := f) (by rw [hpcue]; exact hmode)).1
    have hwas : (windowPolicy j).rfe.warned = s.rfe.warned := by rw [hp]; exact hwarned
    rw [hwarning, hwas] at hforce
    have hone : (warn s.rfe.warned f).length ≤ 1 := by
      simp only [warn]
      (repeat' split) <;> simp
    have hall := hadds.trans (((Rpw.Adds.of_eq (by rw [hp]) (by rw [hp])) : j.rpw.Adds (windowPolicy j).rpw []).trans hforce)
    rw [List.nil_append] at hall
    exact (hall hgap' (by rw [List.length_append, hfifo]; omega)).2
  · obtain ⟨n, hp⟩ := windowPolicy_stays (s := j) (by rw [← hact, hstay, hactive])
    have hforce := (windowStandard_force (s := windowPolicy j) (f := f) (by rw [hpcue]; exact hmode)).2
    have hwas : (windowPolicy j).rfe.warned = s.rfe.warned := by rw [hp]; exact hwarned
    rw [hwarn, hact, hin, ← windowPolicy_input j, ← hwas]
    exact hforce
  · obtain ⟨n, hp⟩ := windowPolicy_stays (s := j) (by rw [← hact, hstay, hactive])
    have hsame : (windowStandard (windowPolicy j)).rpw = (windowPolicy j).rpw := by
      rcases windowStandard_auto_cases (s := windowPolicy j) (by rw [hpcue]; exact hmode) with ⟨n, h⟩ | ⟨d, hd, -, h⟩
      · rw [h]
      · rw [hw, h, changeStandard_rfe] at hkeep
        exact absurd (hkeep.trans hpwork.symm) hd
    have hall := hadds.then_eq (r'' := (windowStandard (windowPolicy j)).rpw) (by rw [hsame, hp]) (by rw [hsame, hp])
    exact (hall hgap' (by rw [hfifo]; omega)).2
  · obtain ⟨n, hp⟩ := windowPolicy_stays (s := j) (by rw [← hact, hstay, hactive])
    rcases windowStandard_auto_cases (s := windowPolicy j) (by rw [hpcue]; exact hmode) with ⟨n, h⟩ | ⟨d, hd, -, h⟩
    · rw [hw, h] at hne
      exact absurd hpwork hne
    · set p : State := { windowPolicy j with rfe := { (windowPolicy j).rfe with differ := 0 } } with hpdef
      have hpl : p.lll = s.lll ∧ p.fal = s.fal ∧ p.tgn = s.tgn := by
        rw [hpdef, hp]
        exact ⟨hlll, hfal, htgn⟩
      have hchange := changeStandard_adds d false p
      have hfrom : j.rpw.Adds p.rpw [] := Rpw.Adds.of_eq (by rw [hpdef, hp]) (by rw [hpdef, hp])
      have hnew : (nextState .windowEnd s).rfe.working = d := by rw [hw, h, changeStandard_rfe]
      have hrep : (repStandard d p.rfe.active false).stamped p.tgn.stamp =
          { w0 := 0x0206#16, stamp := s.tgn.stamp, w4 := stdCode (nextState .windowEnd s).rfe.working
            w5 := BitVec.ofNat 16 (inCode (nextState .windowEnd s).rfe.active), w6 := 0 } := by
        rw [hnew, hact, hstd, hcode, hpl.2.2]
        rfl
      have hw1 := standard_words s.lll d
      have hw2 := enterSeek_words s.fal .standard
      have hl1 := length_le_of_words hw1
      have hl2 := length_le_of_words hw2
      rw [hrep, hpl.1, hpl.2.1, hpl.2.2] at hchange
      have hall := hadds.trans (hfrom.trans hchange)
      rw [List.nil_append] at hall
      have hfinal := (hall hgap' (by simp only [List.length_append, List.length_cons, List.length_map, hfifo]; omega)).2
      refine ⟨(((s.lll.standard d).2 ++ (s.fal.enterSeek .standard).2).map (·.stamped s.tgn.stamp)).map
        (fun r => ⟨r, none⟩), ?_, ?_⟩
      · rw [h, hfinal]
        simp [hrec, hfifo]
      · rw [words_of_records, List.map_append, hw1, hw2]
  · have hsw := windowPolicy_moves (s := j) (by rw [← hact, hactive]; exact hmove)
    have hchange := changeActive_adds (otherInput j.rfe.active) .auto { j with rfe := { j.rfe with absence := 0 } }
    have hdiff0 : (windowPolicy j).rfe.differ = 0 := by rw [hsw, changeActive_rfe]
    have hrest : (windowJudge s.windowStart).rfe.SameButLatches j.rfe := windowJudged_same s.windowStart
    have hrep : (repInputSwitched { j.rfe with
          absence := 0, active := otherInput j.rfe.active, differ := 0, warned := false } .auto).stamped
        s.tgn.stamp = switched := by
      have hnew : (nextState .windowEnd s).rfe.active = otherInput j.rfe.active := by rw [hact, hsw, changeActive_rfe]
      have ha : (nextState .windowEnd s).rfe.inA.present = j.rfe.inA.present := congrArg RefInput.present (hin .a)
      have hb : (nextState .windowEnd s).rfe.inB.present = j.rfe.inB.present := congrArg RefInput.present (hin .b)
      simp only [switched, hword, hnew, ha, hb]
      rfl
    have hw1 := switch_words s.lll
    have hw2 := enterSeek_words s.fal .switch
    have hl1 := length_le_of_words hw1
    have hl2 := length_le_of_words hw2
    have hfrom : s.windowStart.rpw.Adds (windowPolicy j).rpw (s.windowStart.windowChanges ++ switched ::
        (s.lll.switch.2 ++ (s.fal.enterSeek .switch).2).map (·.stamped s.tgn.stamp)) := by
      rw [hsw]
      refine hadds.trans ?_
      rw [← hrep, ← hlll, ← hfal, ← htgn]
      exact hchange
    have hwas : (windowPolicy j).rfe.warned = false := by rw [hsw, changeActive_rfe]
    have hone : ∀ f, (warn false f).length ≤ 1 := fun f => by
      simp only [warn]
      (repeat' split) <;> simp
    obtain ⟨ws, hws, hlast, hwords⟩ : ∃ ws, (windowPolicy j).rpw.Adds (windowStandard (windowPolicy j)).rpw ws ∧
        ws.length ≤ 1 ∧ ws.map (·.w0) = (match s.cue.settings.stdMode with
          | .force f => (warn false f).map (fun r => r.w0) | .auto => []) := by
      cases hmode : s.cue.settings.stdMode with
      | auto =>
        refine ⟨[], ?_, Nat.zero_le _, rfl⟩
        rcases windowStandard_auto_cases (s := windowPolicy j) (by rw [hpcue]; exact hmode) with ⟨n, h⟩ | ⟨d, -, hd, -⟩
        · rw [h]
          exact Rpw.Adds.refl _
        · omega
      | force f =>
        refine ⟨warn false f, ?_, hone f, rfl⟩
        have hforce := (windowStandard_force (s := windowPolicy j) (f := f) (by rw [hpcue]; exact hmode)).1
        rwa [hwarning, hwas] at hforce
    have hnil : s.windowStart.rpw.fifo = [] := hempty
    have hfinal := ((hfrom.trans hws) hgap' (by simp [hnil]; omega)).2
    refine ⟨((s.lll.switch.2 ++ (s.fal.enterSeek .switch).2).map (·.stamped s.tgn.stamp) ++ ws).map
      (fun r => ⟨r, none⟩), ?_, ?_⟩
    · rw [hfinal, hnil]
      simp [hrec]
    · have hws' : ws.map (fun r => (⟨r, none⟩ : FifoRecord).report.w0) = ws.map (·.w0) := rfl
      rw [List.map_append, List.map_append, words_of_records, List.map_append, hw1, hw2, List.map_map]
      exact congrArg _ (hws'.trans hwords)

end Sys2Proof.Machine
end

section
/-!
PROOFS. The classifier (R4), the pulses it times (R5, R7, R8) and the slicer (R2).
-/

namespace Sys2Proof.Machine

/-- An event of one reference input, at its tick: the other input and the rest of the machine stay. -/
theorem setInput_at (i : Input) (t : Tick) (r : RefInput) (s : State) :
    ((s.atTick t).setInput i r).input i = r ∧
    ((s.atTick t).setInput i r).input (otherInput i) = s.input (otherInput i) ∧
    ((s.atTick t).setInput i r).rfe.tick = t ∧
    (s.atTick t).setInput i r = { s with rfe := { s.rfe with
      inA := ((s.atTick t).setInput i r).rfe.inA, inB := ((s.atTick t).setInput i r).rfe.inB, tick := t } } := by
  cases i <;> exact ⟨rfl, rfl, rfl, rfl⟩

/-! ### The classifier (R4) -/

/-- The fraction lies in 0..16, and is 16 where the sample equals S (R4). -/
theorem edgeFrac_spec (level : Int) (s0 s1 : Byte) :
    edgeFrac level s0 s1 ≤ 16 ∧ ((s1.toNat : Int) = level → edgeFrac level s0 s1 = 16) ∧
    ((s1.toNat : Int) ≠ level → s0 ≠ s1 →
      0 ≤ (16 * ((s0.toNat : Int) - level)).fdiv ((s0.toNat : Int) - s1.toNat) →
      (16 * ((s0.toNat : Int) - level)).fdiv ((s0.toNat : Int) - s1.toNat) ≤ 16 →
      (edgeFrac level s0 s1 : Int) = (16 * ((s0.toNat : Int) - level)).fdiv ((s0.toNat : Int) - s1.toNat)) := by
  refine ⟨edgeFrac_le _ _ _, fun h => ?_, fun hne h01 h0 h16 => edgeFrac_formula _ _ _ (Ne.symm hne) h01 h0 h16⟩
  rw [← h, edgeFrac_at_level]

/-- R4's formula between a sample above S and one at or below it. -/
theorem edge_formula {level a b : Int} (hb : b ≤ level) (ha : level < a) :
    0 ≤ (16 * (a - level)).fdiv (a - b) ∧ (16 * (a - level)).fdiv (a - b) ≤ 16 ∧
    ((16 * (a - level)).fdiv (a - b) = 16 ↔ b = level) := by
  have hpos : 0 < a - b := by omega
  rw [Int.fdiv_eq_ediv_of_nonneg _ (by omega)]
  have hle : 16 * (a - level) ≤ 16 * (a - b) := by omega
  have hnn : 0 ≤ 16 * (a - level) / (a - b) := Int.ediv_nonneg (by omega) (by omega)
  have hup : 16 * (a - level) / (a - b) ≤ 16 :=
    Int.ediv_le_of_le_mul hpos (by linarith)
  refine ⟨hnn, hup, fun h => ?_, fun h => ?_⟩
  · by_contra hne
    have hlt : 16 * (a - level) / (a - b) < 16 := Int.ediv_lt_of_lt_mul hpos (by nlinarith [lt_of_le_of_ne hb hne])
    omega
  · rw [h]
    exact Int.mul_ediv_cancel _ (by omega)

/-- From a sample above S the fraction is R4's formula, and 16 only where the second sample equals S. -/
theorem edgeFrac_above {level : Int} {s0 s1 : Byte} (h1 : (s1.toNat : Int) ≤ level) (h0 : level < (s0.toNat : Int)) :
    (edgeFrac level s0 s1 : Int) = (16 * ((s0.toNat : Int) - level)).fdiv ((s0.toNat : Int) - s1.toNat) ∧
    (edgeFrac level s0 s1 = 16 ↔ (s1.toNat : Int) = level) := by
  obtain ⟨hnn, hup, hiff⟩ := edge_formula h1 h0
  obtain ⟨-, heq, hformula⟩ := edgeFrac_spec level s0 s1
  by_cases hs : (s1.toNat : Int) = level
  · exact ⟨by rw [heq hs, hiff.2 hs]; rfl, fun _ => hs, heq⟩
  · have h01 : s0 ≠ s1 := fun h => by rw [h] at h0; omega
    have hfrac := hformula hs h01 hnn hup
    exact ⟨hfrac, fun h => hiff.1 (by rw [← hfrac, h]; rfl), fun h => absurd h hs⟩

theorem measureAfterEdge_some (m : Measure) (t : Tick) :
    measureAfterEdge (some m) t = if 0 ≤ (m.u + 23 - t).toInt then none else some m := by
  simp only [measureAfterEdge, Option.filter_some, Tick.reached]
  split <;> simp_all

/-- Settles O14. -/
theorem classifierFollowsTheSlice : Obligations.ClassifierFollowsTheSlice := by
  intro i t s0 s1 s
  have hAbove : ∀ x : Byte, (s.input i).above x = decide ((s.input i).slicer.s < (x.toNat : Int)) := fun _ => rfl
  refine ⟨fun hc hab => ?_, fun hno => ?_, fun hc hbel => ?_, fun hno => ?_⟩
  · obtain ⟨hi, ho, -, hrest⟩ := setInput_at i t { s.input i with classifier := .armed } s
    refine ⟨_, ?_, hi, ho, hrest⟩
    simp [exec, execClassifierArmed, hc, hAbove, hab]
  · have hcond : (decide ((s.input i).classifier = .disarmed) && (s.input i).above s0) = false := by
      rcases hno with h | h
      · simp [h]
      · simp [hAbove, Int.not_lt.2 h]
    simp [exec, execClassifierArmed, hcond]
  · obtain ⟨hi, ho, -, hrest⟩ := setInput_at i (t + 1) { s.input i with
        classifier := .inPulse (leadingEdgeTime (s.input i).slicer.s t s0 s1) s1
        measure := measureAfterEdge (s.input i).measure (t + 1) } s
    obtain ⟨hle, heq, hformula⟩ := edgeFrac_spec (s.input i).slicer.s s0 s1
    refine ⟨_, ?_, edgeFrac (s.input i).slicer.s s0 s1, ⟨hle, heq, hformula, fun h0 => edgeFrac_above hbel h0⟩,
      by rw [hi]; rfl, fun m hm => ?_, by rw [hi], ho, hrest⟩
    · simp [exec, execLeadingEdge, hc, hAbove, Int.not_lt.2 hbel]
    · rw [hi, hm]
      exact ⟨fun h => (measureAfterEdge_some m _).trans (if_pos h),
        fun h => (measureAfterEdge_some m _).trans (if_neg (Int.not_le.2 h))⟩
  · have hcond : (decide ((s.input i).classifier = .armed) && !(s.input i).above s1) = false := by
      rcases hno with h | h
      · simp [h]
      · simp [hAbove, h]
    simp [exec, execLeadingEdge, hcond]

/-! ### The slicer (R2) -/

theorem asr_zero (k : Nat) : asr 0 k = 0 := Int.zero_ediv _

theorem asr_one (x : Int) : asr x 1 = x / 2 := rfl

/-- Settles O16. -/
theorem slicerFollowsTheSignal : Obligations.SlicerFollowsTheSignal := by
  intro i blank m s hm hlen
  obtain ⟨hi, ho, ht, hrest⟩ := setInput_at i (m.u + 23) { s.input i with
    slicer := (s.input i).slicer.update m.tip.toNat (blankMean blank), measure := none } s
  refine ⟨_, ?_, ?_, ho, ht, by rw [ht]; exact hrest⟩
  · simp only [exec, execSlicerUpdate, hm, hlen, if_true]
  · rw [hi]
    have hmean : blankMean blank = ((blank.map (fun b => b.toNat)).sum / 8 : Nat) := rfl
    refine ⟨rfl, rfl, rfl, rfl, ?_, ?_, fun h => ?_, fun h => ?_, rfl⟩
    · simp only [Slicer.update, asr_one]
      omega
    · simp only [Slicer.update, asr_one]
      omega
    · simp only [Slicer.update, h, Int.sub_self, asr_zero, Int.add_zero]
    · simp only [Slicer.update, hmean, h, Int.sub_self, asr_zero, Int.add_zero]

/-! ### The pulses (R5, R7, R8) -/

/-- A classified pulse, once the classifier is ARMED again. -/
theorem exec_pulseClassification {i : Input} {u : Tick} {s1 least tip : Byte} {edge : Pu} {s : State}
    (hc : (s.input i).classifier = .inPulse edge tip) (ha : (s.input i).slicer.s < (s1.toNat : Int))
    (hw : pulseWidth edge u ≤ 1500) :
    exec (.pulseClassification i u s1 least) s = .next (classified (pulseClass (pulseWidth edge u)) i edge u
      (if least < tip then least else tip) ((s.atTick u).setInput i { s.input i with classifier := .armed })) := by
  have habove : (s.input i).above s1 = true := decide_eq_true ha
  simp only [exec, execPulseClassification, hc, habove, decide_eq_true hw, Bool.and_self, if_true]

/-- A pulse of a class that is dropped, or one that is not handed on (R5, R7). -/
theorem classified_dropped {k : PulseClass} {i : Input} {edge : Pu} {u : Tick} {tip : Byte} {s : State}
    (h : k = .equalising ∨ k = .noise ∨ (k = .broad ∧ s.handsOn i = false)) : classified k i edge u tip s = s := by
  rcases h with rfl | rfl | ⟨rfl, h⟩
  · rfl
  · rfl
  · simp only [classified, h, Bool.false_eq_true, if_false]

theorem handsOn_setInput (i j : Input) (t : Tick) (r : RefInput) (s : State) :
    ((s.atTick t).setInput j r).handsOn i = s.handsOn i := by
  cases j <;> rfl

/-- The class of a width that is no LINE pulse (R5). -/
theorem pulseClass_other {w : Nat} (h : w < 128 ∨ (256 ≤ w ∧ w < 600)) :
    pulseClass w = .equalising ∨ pulseClass w = .noise := by
  unfold pulseClass
  (repeat' split) <;> first | exact .inl rfl | exact .inr rfl | omega

theorem pulseClass_broad {w : Nat} (h : 600 ≤ w ∧ w ≤ 1500) : pulseClass w = .broad := by
  unfold pulseClass
  rw [if_neg (by omega), if_neg (by omega), if_pos h]

theorem pulseClass_line {w : Nat} (h : 128 ≤ w ∧ w ≤ 255) : pulseClass w = .line := by
  unfold pulseClass
  rw [if_neg (by omega), if_pos h]

theorem handsOn_eq_false {i : Input} {s : State} : s.handsOn i = false ↔ s.rfe.active ≠ i ∨ s.tst.mode = .internalLoop := by
  simp only [State.handsOn, decide_eq_false_iff_not, not_and_or, not_not]

theorem handsOn_eq_true {i : Input} {s : State} : s.handsOn i = true ↔ s.rfe.active = i ∧ s.tst.mode ≠ .internalLoop :=
  decide_eq_true_iff

/-- The records an event hands on depend on the FIFO and the stamp alone. -/
theorem produceAll_rpw_congr {s t : State} (rs : List Report) (hrpw : t.rpw = s.rpw) (hstamp : t.tgn.stamp = s.tgn.stamp) :
    (produceAll rs t).rpw = (produceAll rs s).rpw := by
  induction rs generalizing s t with
  | nil => exact hrpw
  | cons r rs ih => exact ih (by simp only [produce, hrpw, hstamp]) hstamp

theorem tstWatch_closed {s : State} (h : s.tst.lockTime = none) : tstWatch s = s := by
  simp only [tstWatch, h]

/-- What a LINE pulse counts for its presence window (R8). -/
theorem countLine_spec (r : RefInput) (edge : Pu) :
    (r.countLine edge).lineCount = min 65535 (r.lineCount + 1) ∧ (r.countLine edge).lastEdge = some edge ∧
    (r.lastEdge = none → (r.countLine edge).spacingCount = r.spacingCount ∧
      (r.countLine edge).spacingSum = r.spacingSum) ∧
    (∀ last, r.lastEdge = some last →
      (2200 ≤ (edge - last).toNat / 16 ∧ (edge - last).toNat / 16 ≤ 2400 →
        (r.countLine edge).spacingCount = r.spacingCount + 1 ∧
        (r.countLine edge).spacingSum = r.spacingSum + (edge - last).toNat / 16) ∧
      ((edge - last).toNat / 16 < 2200 ∨ 2400 < (edge - last).toNat / 16 →
        (r.countLine edge).spacingCount = r.spacingCount ∧ (r.countLine edge).spacingSum = r.spacingSum)) := by
  refine ⟨satSucc_eq_min, rfl, fun h => ?_, fun last h => ?_⟩
  · simp only [RefInput.countLine, h]
    exact ⟨rfl, rfl⟩
  · simp only [RefInput.countLine, h, Option.map_some]
    generalize (edge - last).toNat / 16 = d
    refine ⟨fun hd => ?_, fun hd => ?_⟩
    · simp [Option.filter, hd, bitOf]
    · have hno : ¬ (2200 ≤ d ∧ d ≤ 2400) := by omega
      simp [Option.filter, hno, bitOf]

theorem withLoop_eq (r : Lll × List Report) (s : State) :
    s.withLoop r = { s with lll := r.1, rpw := (produceAll r.2 s).rpw } := by
  have hrpw := produceAll_rpw_congr (s := s) (t := { s with lll := r.1 }) r.2 rfl rfl
  rw [State.withLoop, produceAll_eq, hrpw]

theorem tstWatch_eq (s : State) : tstWatch s = { s with tst := (tstWatch s).tst, rpw := (tstWatch s).rpw } := by
  unfold tstWatch
  split
  · split <;> rfl
  · rfl

/-- An arrival changes the loop, TST's record and the reports alone. -/
theorem lineArrival_eq (e : Pu) (u : Tick) (s : State) :
    lineArrival e u s = { s with
      lll := (s.lll.arrive s.cue.settings s.rfe.working s.tgn.line e u).1
      tst := (lineArrival e u s).tst, rpw := (lineArrival e u s).rpw } := by
  have hloop : ∀ (a : Tst) (b : Rpw),
      ({ s.withLoop (s.lll.arrive s.cue.settings s.rfe.working s.tgn.line e u) with tst := a, rpw := b } : State) =
        { s with lll := (s.lll.arrive s.cue.settings s.rfe.working s.tgn.line e u).1, tst := a, rpw := b } :=
    fun a b => by rw [withLoop_eq]
  exact (tstWatch_eq _).trans (hloop _ _)

/-- With no lock-time record open an arrival hands on LLL's records and no more. -/
theorem lineArrival_closed {s : State} (h : s.tst.lockTime = none) (e : Pu) (u : Tick) :
    (lineArrival e u s).tst = s.tst ∧ (lineArrival e u s).rpw =
      (produceAll (s.lll.arrive s.cue.settings s.rfe.working s.tgn.line e u).2 s).rpw := by
  rw [lineArrival, tstWatch_closed (by rw [withLoop_eq]; exact h), withLoop_eq]
  exact ⟨rfl, rfl⟩

/-- The input after a LINE pulse: ARMED, counted, and its least sample measured (R2, R5, R8). -/
def RefInput.afterLine (r : RefInput) (edge : Pu) (u : Tick) (tip : Byte) : RefInput :=
  { ({ r with classifier := .armed } : RefInput).countLine edge with measure := some ⟨tip, u⟩ }

/-- A LINE pulse: its input, and the arrival at LLL where the input is handed on (R7). -/
theorem linePulse_eq (i : Input) (edge : Pu) (u : Tick) (tip : Byte) (s : State) :
    linePulse i edge u tip ((s.atTick u).setInput i { s.input i with classifier := .armed }) =
      if s.handsOn i then lineArrival edge u ((s.atTick u).setInput i ((s.input i).afterLine edge u tip))
      else (s.atTick u).setInput i ((s.input i).afterLine edge u tip) := by
  have hset : ∀ r, ((s.atTick u).setInput i { s.input i with classifier := .armed }).setInput i r =
      (s.atTick u).setInput i r := fun r => by cases i <;> rfl
  simp only [linePulse, State.input_setInput_same, hset, handsOn_setInput]
  rfl

/-- Settles O15. -/
theorem pulsesAreClassified : Obligations.PulsesAreClassified := by
  refine ⟨fun i u s1 least tip edge s hc => ⟨fun ha hw => ?_, fun hno => ?_, ?_⟩,
    fun i u s1 least tip edge s hc ha hlo hhi => ?_⟩
  · obtain ⟨hi, ho, -, hrest⟩ := setInput_at i u { s.input i with classifier := .armed } s
    have hdrop : pulseClass (pulseWidth edge u) = .equalising ∨ pulseClass (pulseWidth edge u) = .noise ∨
        (pulseClass (pulseWidth edge u) = .broad ∧ s.handsOn i = false) := by
      rcases hw with hw | hw | ⟨h600, h1500, hoff⟩
      · rcases pulseClass_other (.inl hw) with h | h
        · exact .inl h
        · exact .inr (.inl h)
      · rcases pulseClass_other (.inr hw) with h | h
        · exact .inl h
        · exact .inr (.inl h)
      · exact .inr (.inr ⟨pulseClass_broad ⟨h600, h1500⟩, handsOn_eq_false.2 hoff⟩)
    refine ⟨_, ?_, hi, ho, hrest⟩
    have hle : pulseWidth edge u ≤ 1500 := by
      rcases hw with hw | hw | hw <;> exact le_trans (by first | exact hw.le | exact hw.2.le | exact hw.2.1) (by decide)
    rw [exec_pulseClassification hc ha hle, classified_dropped (by rwa [handsOn_setInput])]
  · have hcond : ((s.input i).above s1 && decide (pulseWidth edge u ≤ 1500)) = false := by
      rcases hno with h | h
      · simp [show ¬ pulseWidth edge u ≤ 1500 from Nat.not_le.2 h]
      · simp [RefInput.above, Int.not_lt.2 h]
    simp only [exec, execPulseClassification, hc, hcond]
    rfl
  · obtain ⟨hi, ho, ht, hrest⟩ := setInput_at i (Pu.tick edge + 1501) { s.input i with classifier := .disarmed } s
    refine ⟨_, ?_, hi, ho, ht, by rw [ht]; exact hrest⟩
    simp only [exec, execPulseOverrun, hc]
  · have hlo : 128 ≤ pulseWidth edge u := hlo
    have hw : pulseWidth edge u ≤ 255 := hhi
    set least' := if least < tip then least else tip with hleast
    have hmeasured : (if least.toNat < tip.toNat then least else tip) = least' := by
      rw [hleast]
      simp only [BitVec.lt_def]
    obtain ⟨hi, ho, -, hrest⟩ := setInput_at i u ((s.input i).afterLine edge u least') s
    set s1 := (s.atTick u).setInput i ((s.input i).afterLine edge u least')
    have hs1 : s1.lll = s.lll ∧ s1.cue = s.cue ∧ s1.tgn = s.tgn ∧ s1.tst = s.tst ∧ s1.rpw = s.rpw ∧
        s1.rfe.working = s.rfe.working := by
      rw [hrest]
      exact ⟨rfl, rfl, rfl, rfl, rfl, rfl⟩
    obtain ⟨hlll, hcue, htgn, htst, hrpw, hwork⟩ := hs1
    have hexec := exec_pulseClassification (least := least) hc ha (le_trans hw (by decide))
    rw [pulseClass_line ⟨hlo, hw⟩, classified, linePulse_eq, ← hleast] at hexec
    obtain ⟨hcount, hlast, hfirst, hnext⟩ := countLine_spec { s.input i with classifier := .armed } edge
    set t := if s.handsOn i then lineArrival edge u s1 else s1 with ht
    have hrfe : t.rfe = s1.rfe := by
      rw [ht]
      split
      · simp
      · rfl
    have hin : ∀ j, t.input j = s1.input j := State.input_congr ⟨congrArg Rfe.inA hrfe, congrArg Rfe.inB hrfe⟩
    have hall : t = { s1 with lll := t.lll, tst := t.tst, rpw := t.rpw } := by
      rw [ht]
      split
      · rw [lineArrival_eq edge u s1]
      · rfl
    refine ⟨t, hexec, ?_⟩
    rw [hin i, hin (otherInput i), hi, hmeasured]
    refine ⟨rfl, rfl, hcount, hlast, hfirst, hnext, rfl, rfl, rfl, rfl, ho, ?_, fun hoff => ?_, fun hact hmode => ?_, ?_⟩
    · rw [hrfe, hrest]
    · rw [ht, if_neg (by rw [handsOn_eq_false.2 hoff]; exact Bool.false_ne_true)]
      rw [hrest]
    · rw [ht, if_pos (handsOn_eq_true.2 ⟨hact, hmode⟩)]
      dsimp only
      rw [← hlll, ← hcue, ← hwork, ← htgn]
      refine ⟨congrArg State.lll (lineArrival_eq edge u s1), fun hclosed => ?_⟩
      obtain ⟨htst', hrpw'⟩ := lineArrival_closed (s := s1) (by rw [htst]; exact hclosed) edge u
      exact ⟨htst'.trans htst, hrpw'.trans (produceAll_rpw_congr _ hrpw (by rw [htgn]))⟩
    · rw [hall, hrest]

end Sys2Proof.Machine
end

section
/-!
PROOFS. The blocks at power-on (R21, R59, R64, R89, R96, R97, R127, R150, R151, R164, R190), and port 0 and port 1
(R76, R78, R79, R100 to R103, R175 to R177).
-/

namespace Sys2Proof.Machine

/-! ### The strap tables (R76) -/

theorem Straps.stdMode_cases (straps : Straps) :
    (straps.standard.toNat = 0 ∧ (Straps.stdMode straps) = .auto) ∨ (straps.standard.toNat = 1 ∧ (Straps.stdMode straps) = .auto) ∨
    (straps.standard.toNat = 2 ∧ (Straps.stdMode straps) = .force .s625) ∨
    (straps.standard.toNat = 3 ∧ (Straps.stdMode straps) = .force .s525) := by
  have hlt : straps.standard.toNat < 4 := straps.standard.isLt
  unfold Straps.stdMode
  (repeat' split) <;> simp <;> omega

theorem Straps.testMode_cases (straps : Straps) :
    (straps.test.toNat = 0 ∧ (Straps.testMode straps) = .normal) ∨ (straps.test.toNat = 1 ∧ (Straps.testMode straps) = .internalLoop) ∨
    (straps.test.toNat = 2 ∧ (Straps.testMode straps) = .bypass) ∨ (straps.test.toNat = 3 ∧ (Straps.testMode straps) = .bars) := by
  have hlt : straps.test.toNat < 4 := straps.test.isLt
  unfold Straps.testMode
  (repeat' split) <;> simp <;> omega

theorem Straps.startStd_nominal (straps : Straps) :
    (Straps.startStd straps).nominal = if straps.standard.toNat % 2 = 0 then 589824 else 585728 := by
  unfold Straps.startStd
  split <;> rfl

theorem Straps.startStd_fieldLines (straps : Straps) :
    (Straps.startStd straps).fieldLines .one = if straps.standard.toNat % 2 = 0 then 313 else 263 := by
  unfold Straps.startStd
  split <;> rfl

/-- TST's records at power-on and after a soft reset (R190). -/
theorem Tst.start_spec (straps : Straps) (lines run : List Pu) :
    (Tst.start straps lines run).mode = (Straps.testMode straps) ∧
    ((Straps.testMode straps) = .internalLoop → (Tst.start straps lines run).count = some { stamp := 0, excess := 0 } ∧
      (Tst.start straps lines run).lockTime = some 0 ∧ (Tst.start straps lines run).lines = lines ∧
      (Tst.start straps lines run).run = run) ∧
    ((Straps.testMode straps) ≠ .internalLoop → (Tst.start straps lines run).count = none ∧
      (Tst.start straps lines run).lockTime = none ∧ (Tst.start straps lines run).lines = [] ∧
      (Tst.start straps lines run).run = []) := by
  unfold Tst.start
  split
  · next h => exact ⟨h.symm, fun _ => ⟨rfl, rfl, rfl, rfl⟩, fun hne => absurd h hne⟩
  · next h => exact ⟨rfl, fun heq => absurd heq h, fun _ => ⟨rfl, rfl, rfl, rfl⟩⟩

/-- A line that begins at instant 0 ends after its nominal length (R21, R23). -/
theorem lineEndTick_of_nominal (d : Standard) : Qu.tick (BitVec.ofNat 40 d.nominal) = BitVec.ofNat 32 (d.nominal / 256) := by
  cases d <;> rfl

/-- Settles O5. -/
theorem powerOnOtherBlocks : Obligations.PowerOnOtherBlocks := by
  intro straps s testMode defaults
  have htest : testMode = (Straps.testMode straps) := by
    rcases Straps.testMode_cases straps with ⟨h, hm⟩ | ⟨h, hm⟩ | ⟨h, hm⟩ | ⟨h, hm⟩ <;> simp only [testMode, h, hm]
  have hdefaults : defaults = Settings.default straps := by
    have hmode : defaults.stdMode = (Straps.stdMode straps) := by
      rcases Straps.stdMode_cases straps with ⟨h, hm⟩ | ⟨h, hm⟩ | ⟨h, hm⟩ | ⟨h, hm⟩ <;> simp only [defaults, h, hm]
    have hrest : defaults = { Settings.default straps with stdMode := defaults.stdMode, testMode := testMode } := rfl
    rw [hrest, hmode, htest]
    rfl
  obtain ⟨hm, hloop, hother⟩ := Tst.start_spec straps [0] []
  rw [htest, hdefaults, ← Straps.startStd_nominal straps, ← Straps.startStd_fieldLines straps]
  have hblank : 1 ≤ (Straps.startStd straps).blankedLines := by
    cases Straps.startStd straps <;> decide
  refine ⟨_, exec_powerOn straps s, ?_⟩
  -- all but what the straps decide, and the entries of the vectors, is a field of the power-on values
  and_intros <;> try rfl
  · exact lineEndTick_of_nominal _
  · simp [State.hs, State.lineTicks, State.powerOn]
  · have hline : ¬ (Straps.startStd straps).blankedLines < 1 := by omega
    simp [State.blank, State.powerOn, hline]
  · exact fun i => by simp [State.powerOn]
  · exact fun b i => by simp [State.powerOn, Bank.zero]
  · exact fun k => by simp [State.powerOn]
  · by_cases h : Straps.testMode straps = .internalLoop
    · exact (hloop h).2.2.2
    · exact (hother h).2.2.2
  · exact fun h => ⟨(hloop h).1, (hloop h).2.1, (hloop h).2.2.1⟩
  · exact fun h => ⟨(hother h).1, (hother h).2.1, (hother h).2.2.1⟩
  · exact hm

/-! ### Strap-done and the link address (R76, R78, R79) -/

theorem portOne_ignored (f : State → State) (a b : Bool) {s : State} (h : s.tgn.strapDone = false) :
    portOne f a b s = s := by
  simp [portOne, h]

/-- Settles O6. -/
theorem strapDoneGatesThePorts : Obligations.StrapDoneGatesThePorts := by
  intro s
  refine ⟨fun h => ⟨?_, fun w => ?_, fun a b => ⟨?_, ?_, ?_, fun n => ?_⟩, ?_, ?_, ?_⟩, fun h => ?_⟩
  · simp [exec, execStrapDone, h, State.atTick]
  · simp [exec, execLinkAddressWrite, h]
  · rw [exec_run, portOne_ignored _ _ _ h]
  · rw [exec_stop, portOne_ignored _ _ _ h]
  · rw [exec_continueRun, portOne_ignored _ _ _ h]
  · rw [exec_softReset, portOne_ignored _ _ _ h]
  · rw [exec_noneFunction, portOne_ignored _ _ _ h]
  · rw [exec_start, portOne_ignored _ _ _ h]
  · rw [exec_clear, portOne_ignored _ _ _ h]
  · simp [exec, execStrapDone, h]

theorem toNat_append_eq {m n : Nat} (x : BitVec m) (y : BitVec n) : (x ++ y).toNat = 2 ^ n * x.toNat + y.toNat := by
  rw [BitVec.toNat_append, ← Nat.shiftLeft_add_eq_or_of_lt y.isLt, Nat.shiftLeft_eq, Nat.mul_comm]

/-- The link address as a number, with one of its halves written (R78). -/
theorem linkWithHalf_first_toNat (link : Addr) (w : Word) :
    (linkWithHalf link false w).toNat = 65536 * (link.toNat / 65536 % 256) + w.toNat := by
  show (link.extractLsb' 16 8 ++ w).toNat = _
  rw [toNat_append_eq, BitVec.extractLsb'_toNat, Nat.shiftRight_eq_div_pow]
  rfl

theorem linkWithHalf_second_toNat (link : Addr) (w : Word) :
    (linkWithHalf link true w).toNat = 65536 * (w.toNat % 256) + link.toNat % 65536 := by
  show ((w.extractLsb' 0 8 : BitVec 8) ++ link.extractLsb' 0 16).toNat = _
  rw [toNat_append_eq, BitVec.extractLsb'_toNat, BitVec.extractLsb'_toNat, Nat.shiftRight_zero, Nat.shiftRight_zero]
  rfl

/-- The half written is the word's, the other one as it was (R78). -/
theorem linkWithHalf_first (link : Addr) (w : Word) :
    (linkWithHalf link false w).extractLsb' 0 16 = w ∧
    (linkWithHalf link false w).extractLsb' 16 8 = link.extractLsb' 16 8 := by
  have hw : w.toNat < 65536 := w.isLt
  constructor <;> apply BitVec.eq_of_toNat_eq <;>
    simp only [BitVec.extractLsb'_toNat, Nat.shiftRight_eq_div_pow, linkWithHalf_first_toNat] <;> omega

theorem linkWithHalf_second (link : Addr) (w : Word) :
    (linkWithHalf link true w).extractLsb' 0 16 = link.extractLsb' 0 16 ∧
    (linkWithHalf link true w).extractLsb' 16 8 = w.extractLsb' 0 8 := by
  constructor <;> apply BitVec.eq_of_toNat_eq <;>
    simp only [BitVec.extractLsb'_toNat, Nat.shiftRight_eq_div_pow, linkWithHalf_second_toNat] <;> omega

/-- Both halves written, the first one first, are the whole link address. -/
theorem linkWithHalf_both (link : Addr) (w v : Word) :
    (linkWithHalf (linkWithHalf link false w) true v).toNat = w.toNat + 65536 * (v.toNat % 256) := by
  have hw : w.toNat < 65536 := w.isLt
  rw [linkWithHalf_second_toNat, linkWithHalf_first_toNat]
  omega

theorem exec_linkAddressWrite_taken {w : Word} {s : State} (hs : s.tgn.strapDone = true) (he : s.cue.engine = .stopped) :
    exec (.linkAddressWrite w) s = .next { s with cue := { s.cue with
      link := linkWithHalf s.cue.link s.cue.second w, second := !s.cue.second } } := by
  simp [exec, execLinkAddressWrite, hs, he]

/-- Settles O7. -/
theorem linkAddressAccesses : Obligations.LinkAddressAccesses := by
  intro w v s
  refine ⟨fun hs he => ⟨⟨_, exec_linkAddressWrite_taken hs he, rfl, fun h => ?_, fun h => ?_, rfl⟩, fun h => ?_⟩,
    fun hno => ?_, ⟨_, rfl, ?_, rfl⟩⟩
  · simp only [h]
    exact linkWithHalf_first _ _
  · simp only [h]
    exact linkWithHalf_second _ _
  · refine ⟨_, _, exec_linkAddressWrite_taken hs he, exec_linkAddressWrite_taken hs he, ?_, ?_⟩
    · simp only [h]
      exact linkWithHalf_both _ _ _
    · simp [h]
  · have hcond : (s.tgn.strapDone && decide (s.cue.engine = .stopped)) = false := by
      rcases hno with h | h <;> simp [h]
    simp only [exec, execLinkAddressWrite, hcond]
    rfl
  · simp only [State.linkHalf]
    split
    · have hlink : s.cue.link.toNat < 16777216 := s.cue.link.isLt
      simp only [BitVec.truncate_eq_setWidth, BitVec.toNat_setWidth, BitVec.extractLsb'_toNat, Nat.shiftRight_eq_div_pow]
      omega
    · simp [BitVec.extractLsb'_toNat]

/-! ### The cause port (R175 to R177) -/

/-- A cause-port read leaves the causes but INPUT_CHANGE latched, and seen (R176). -/
theorem seen_bits (x : BitVec 8) (c : Cause) :
    (x &&& ~~~Cause.inputChange.bit) &&& c.bit = if c = .inputChange then 0 else x &&& c.bit := by
  rw [BitVec.and_assoc]
  cases c <;> simp [Cause.bit]

/-- Only INPUT_CHANGE alone is cleared to nothing by the read. -/
theorem read_clears_iff {x : BitVec 8} (hx : x ≠ 0) :
    x &&& ~~~Cause.inputChange.bit = 0 ↔ x = Cause.inputChange.bit := by
  constructor
  · intro h
    have hbits : ∀ y : BitVec 8, y &&& ~~~0x80#8 = 0 → y ≠ 0 → y = 0x80#8 := by decide
    exact hbits x h hx
  · rintro rfl
    rfl

/-- Settles O12. -/
theorem causePortReads : Obligations.CausePortReads := by
  intro s
  have hown := seen_bits s.rpw.latched .inputChange
  refine ⟨_, rfl, ?_, fun c hc => ?_, hown, hown, rfl, fun h => ?_, fun c hs => ?_⟩
  · have hlt : s.rpw.latched.toNat < 256 := s.rpw.latched.isLt
    simp only [State.causeWord, BitVec.truncate_eq_setWidth, BitVec.toNat_setWidth]
    omega
  · have hsame := (seen_bits s.rpw.latched c).trans (if_neg hc)
    exact ⟨hsame, hsame⟩
  · simp only [State.irq, Bool.and_eq_true, decide_eq_true_eq] at h
    simp only [State.irq, h.1, Bool.true_and, decide_eq_false_iff_not, not_not]
    exact read_clears_iff h.2
  · refine ⟨_, exec_start _, ?_⟩
    rw [portOne_id_latch, portOne_of_strapDone _ _ _ (by exact hs), ackBits_start]
    refine ⟨?_, ?_, ?_⟩
    · simp [latch, Rpw.latch, Rpw.acknowledge]
    · simp [latch, Rpw.latch, Rpw.acknowledge]
    · rw [irq_latch]
      rfl

/-! ### RUN and CONTINUE (R100, R102) -/

/-- The acknowledgment depends on the report writer alone. -/
theorem ackBits_eq (a b : Bool) (s : State) : ackBits a b s = { s with rpw := (ackBits a b s).rpw } := by
  unfold ackBits
  (repeat' split) <;> rfl

theorem ackBits_rpw_congr (a b : Bool) {s t : State} (h : s.rpw = t.rpw) : (ackBits a b s).rpw = (ackBits a b t).rpw := by
  unfold ackBits
  (repeat' split) <;> simp only [h]

/-- A posted take write is the one of the working take, whether it is new or one that was waiting (R112). -/
theorem takeWrite_mem_postTake (s : State) :
    Request.takeWrite (s.cue.link.toNat + 8) s.cue.take ∈ (postTake s).mpt.cueQ := by
  unfold postTake
  dsimp only
  split
  · next h =>
    obtain ⟨q, hq, hw⟩ := List.any_eq_true.1 h
    exact List.mem_map.2 ⟨q, hq, if_pos hw⟩
  · exact List.mem_append_right _ (List.mem_singleton_self _)

theorem postTake_eq (s : State) : postTake s = { s with mpt := { s.mpt with cueQ := (postTake s).mpt.cueQ } } := by
  unfold postTake
  dsimp only
  split <;> rfl

/-- Settles O8. -/
theorem runStartsAndContinueResumes : Obligations.RunStartsAndContinueResumes := by
  refine ⟨fun a b s hs => ⟨fun he => ?_, fun he => ?_⟩, fun a b s hs => ⟨fun he hv => ?_, fun hno => ?_⟩⟩
  · rw [exec_run, portOne_of_strapDone _ _ _ hs]
    refine ⟨_, rfl, ?_⟩
    simp only [runFunction, he, if_true]
    refine ⟨by simp [postCue], by simp [postCue], ackBits_rpw_congr a b rfl, ?_⟩
    rw [ackBits_eq]
    simp [postCue]
  · rw [exec_run, portOne_of_strapDone _ _ _ hs, runFunction, if_neg (by exact he)]
  · rw [exec_continueRun, portOne_of_strapDone _ _ _ hs]
    have hcond : (decide (s.cue.engine = .halted) && s.cue.linkValid) = true := by simp [he, hv]
    rw [continueFunction, if_pos (by exact hcond)]
    set s1 : State := { s with
      cue := { s.cue with second := false, engine := .running, haltReason := none }
      rpw := { s.rpw with suspended := false } }
    have hrpw : (postTake s1).rpw = s1.rpw := by simp
    refine ⟨ackBits a b (postTake s1), rfl, by simp [s1], ?_, ?_, ?_⟩
    · rw [(ackBits_frame a b _).2.2.2.2.1]
      exact takeWrite_mem_postTake s1
    · exact ackBits_rpw_congr a b hrpw
    · rw [ackBits_eq, postTake_eq]
  · have hcond : (decide (s.cue.engine = .halted) && s.cue.linkValid) = false := by
      rcases hno with h | h <;> simp [h]
    rw [exec_continueRun, portOne_of_strapDone _ _ _ hs, continueFunction, if_neg (by simpa using hcond)]

/-! ### STOP (R101) -/

/-- After a STOP the abort of a load finds no request of the loader in service that is not discarded already. -/
theorem Mpt.discard_stop (m : Mpt) (n : Nat) : ((m.stop n).discard .key).service = (m.stop n).service := by
  unfold Mpt.stop Mpt.discard
  cases m.service with
  | none => rfl
  | some x =>
    dsimp only [Option.bind_some]
    split
    · split
      · rfl
      · simp
    · next h =>
      have hkey : x.req.requester ≠ .key := fun hk => h (.inr hk)
      simp [hkey]

/-- The acknowledgment of a port-1 write's two bits (R177). -/
theorem ackBits_rpw (a b : Bool) (s : State) : (ackBits a b s).rpw = { s.rpw with
    latched := if a = true ∨ b = true then s.rpw.latched &&& ~~~s.rpw.seen else s.rpw.latched
    seen := if a = true ∨ b = true then 0 else s.rpw.seen
    enabled := if b = true then false else if a = true then true else s.rpw.enabled } := by
  cases a <;> cases b <;> rfl

/-- The machine once STOP has stopped the engine and dropped the requests, before a load is aborted. -/
def stopEngine (s : State) : State :=
  dropWriters
    { s with
      cue := { s.cue with
        engine := .stopped, startup := false, scan := none, due := [], idle := none, wait := none
        heldFrom := none, deferral := none, haltReason := none }
      mpt := s.mpt.stop s.wordsAtStop
      draw := s.draw + 1 }

theorem stopFunction_eq {s : State} (h : s.cue.engine ≠ .stopped) :
    stopFunction s = abortLoad .stop (stopEngine s) := by
  simp only [stopFunction, if_neg h, stopEngine]

/-- What the abort of a load at a STOP does: SWAP/ABORTED, and the loader IDLE with its shadow cleared (R160). -/
theorem abortLoad_stopEngine (s : State) :
    (∀ r, s.kbl.load = some r →
      (abortLoad .stop (stopEngine s)).kbl = { s.kbl with loader := .idle, load := none, shadow := Bank.zero } ∧
      (abortLoad .stop (stopEngine s)).rpw =
        (stopEngine s).rpw.produce ((repSwapAborted r s.kbl.loader .stop).stamped s.tgn.stamp)) ∧
    (s.kbl.load = none → abortLoad .stop (stopEngine s) = stopEngine s) := by
  refine ⟨fun r h => ?_, fun h => ?_⟩
  · have hload : (stopEngine s).kbl.load = some r := h
    rw [abortLoad, hload]
    exact ⟨rfl, rfl⟩
  · have hload : (stopEngine s).kbl.load = none := h
    rw [abortLoad, hload]

theorem abortLoad_stopEngine_mpt (s : State) :
    (abortLoad .stop (stopEngine s)).mpt = { s.mpt.stop s.wordsAtStop with rpw := none, sta := none } := by
  unfold abortLoad
  split
  · show ({ ({ s.mpt.stop s.wordsAtStop with rpw := none, sta := none } : Mpt).discard .key with key := none } : Mpt) = _
    have hservice := Mpt.discard_stop s.mpt s.wordsAtStop
    rw [show ∀ m : Mpt, ({ m with key := none } : Mpt) =
      { service := m.service, cueQ := m.cueQ, key := none, rpw := m.rpw, sta := m.sta } from fun _ => rfl]
    exact Mpt.mk.injEq .. |>.mpr ⟨hservice, rfl, rfl, rfl, rfl⟩
  · rfl

/-- Of the report writer a STOP touches the FIFO, at an abort, and what is owed to the writers (R101, R160). -/
theorem abortLoad_stopEngine_rpw (s : State) :
    (abortLoad .stop (stopEngine s)).rpw = { s.rpw with
      fifo := (abortLoad .stop (stopEngine s)).rpw.fifo
      withheld := (abortLoad .stop (stopEngine s)).rpw.withheld
      openGap := (abortLoad .stop (stopEngine s)).rpw.openGap
      openStamp := (abortLoad .stop (stopEngine s)).rpw.openStamp
      gapPending := (abortLoad .stop (stopEngine s)).rpw.gapPending
      status := [], getDue := false, putDue := false } := by
  obtain ⟨hsome, hnone⟩ := abortLoad_stopEngine s
  cases hload : s.kbl.load with
  | none => rw [hnone hload]; rfl
  | some r =>
    rw [(hsome r hload).2, Rpw.produce]
    split <;> rfl

theorem abortLoad_eq (why : AbortReason) (s : State) :
    abortLoad why s = { s with
      mpt := (abortLoad why s).mpt, kbl := (abortLoad why s).kbl, rpw := (abortLoad why s).rpw } := by
  unfold abortLoad
  split <;> rfl

/-- Settles O9. -/
theorem stopStops : Obligations.StopStops := by
  intro a b s hs
  refine ⟨fun he => ?_, fun he => ?_⟩
  · rw [exec_stop, portOne_of_strapDone _ _ _ hs, stopFunction_eq (by exact he)]
    set s0 : State := { s with cue := { s.cue with second := false } } with hs0
    obtain ⟨hsome, hnone⟩ := abortLoad_stopEngine s0
    obtain ⟨hq, hkey, -, -, hserve, hidle⟩ := Mpt.stop_spec s.mpt s.wordsAtStop
    have hmpt : (abortLoad .stop (stopEngine s0)).mpt = { s.mpt.stop s.wordsAtStop with rpw := none, sta := none } :=
      abortLoad_stopEngine_mpt s0
    have hrpw := abortLoad_stopEngine_rpw s0
    have heq := abortLoad_eq .stop (stopEngine s0)
    set u := abortLoad .stop (stopEngine s0)
    have hacks := ackBits_rpw a b u
    have hall : ackBits a b u = { s with
        cue := { s.cue with
          second := false, engine := .stopped, startup := false, scan := none, due := [], idle := none
          wait := none, heldFrom := none, deferral := none, haltReason := none }
        mpt := u.mpt, kbl := u.kbl, rpw := (ackBits a b u).rpw, draw := s.draw + 1 } := by
      rw [ackBits_eq, heq]
      rfl
    have hlatched : u.rpw.latched = s.rpw.latched ∧ u.rpw.seen = s.rpw.seen ∧ u.rpw.enabled = s.rpw.enabled := by
      rw [hrpw]
      exact ⟨rfl, rfl, rfl⟩
    have hservice : (ackBits a b u).mpt.service = (s.mpt.stop s.wordsAtStop).service := by rw [hall]; simp only [hmpt]
    refine ⟨ackBits a b u, rfl, by rw [hall], by rw [hall]; simp only [hmpt, hq], by rw [hall]; simp only [hmpt, hkey],
      by rw [hall]; simp only [hmpt], by rw [hall]; simp only [hmpt], fun h => by rw [hservice, hidle h], fun x hx => ?_,
      fun r hr => ?_, fun hr => ?_, ?_, ?_, ?_, ?_, ?_, ?_, ?_, ?_⟩
    · obtain ⟨hcut, hkeep⟩ := hserve x hx
      have hwords : s.wordsAtStop = min (Config.wordsIssued s.draw) (s.runAddrs x.req []).length := by
        simp only [State.wordsAtStop, hx]
      dsimp only
      rw [hservice, ← hwords]
      refine ⟨fun hreq => ⟨fun hfresh => ?_, fun hcutted => ?_⟩, fun hreq => hkeep ?_⟩
      · rw [hcut hreq, hfresh]
        simp
      · obtain ⟨k, hk⟩ := Option.ne_none_iff_exists'.1 hcutted
        rw [hcut hreq, if_neg (by simp [hk])]
        simp only [hk, Option.getD_some]
      · rcases hreq with h | h <;> simp [h]
    · obtain ⟨hkbl, hprod⟩ := hsome r hr
      refine ⟨by rw [hall]; exact hkbl, fun hroom => ⟨s.rpw.closingGap s.tgn.stamp, ?_⟩⟩
      rw [hacks, hprod]
      show ((stopEngine s0).rpw.produce _).fifo = _
      rw [Rpw.produce_fifo, if_pos (by exact hroom)]
      rfl
    · have hu : u = stopEngine s0 := hnone hr
      rw [hall, hacks, hu]
      exact ⟨rfl, rfl, rfl, rfl⟩
    · rw [hacks, hlatched.1, hlatched.2.1]
    · rw [hacks, hlatched.2.1]
    · rw [hacks, hlatched.2.2]
    · rw [hacks, hrpw]
    · rw [hacks, hrpw]
    · rw [hacks, hrpw]
    · rw [hacks, hrpw]
    · rw [hall]
  · rw [exec_stop, portOne_of_strapDone _ _ _ hs, stopFunction, if_pos (by exact he)]

/-! ### SOFT RESET (R103) -/

/-- The test unit's arrivals after a soft reset: in INTERNAL_LOOP those already placed stay (assumption log 23). -/
theorem softResetFunction_tst (n : Nat) (s : State) :
    (softResetFunction n s).tst = Tst.start s.tgn.straps
      (if s.tst.mode = .internalLoop then s.tst.lines else s.entryLines)
      (if s.tst.mode = .internalLoop then s.tst.run else []) := by
  simp only [softResetFunction]
  split <;> rfl

/-- The arrival of the line in progress, where INTERNAL_LOOP is entered before its tick (R190, R191). -/
theorem entryLines_spec (s : State) :
    let edge : Pu := BitVec.ofNat 36 (s.lll.ideal.toNat / 16)
    let ahead := (BitVec.ofNat 32 (edge.toNat / 16) + 170 - s.rfe.tick).toInt
    (0 ≤ ahead → s.entryLines = [edge]) ∧ (ahead < 0 → s.entryLines = []) := by
  refine ⟨fun h => if_pos (decide_eq_true h), fun h => if_neg ?_⟩
  exact fun hd => absurd (of_decide_eq_true hd) (Int.not_le.2 h)

/-- Settles O10. -/
theorem softResetResets : Obligations.SoftResetResets := by
  intro a b issued s hs working testMode defaults
  have htest : testMode = Straps.testMode s.tgn.straps := by
    rcases Straps.testMode_cases s.tgn.straps with ⟨h, hm⟩ | ⟨h, hm⟩ | ⟨h, hm⟩ | ⟨h, hm⟩ <;> simp only [testMode, h, hm]
  have hdefaults : defaults = Settings.default s.tgn.straps := by
    have hmode : defaults.stdMode = Straps.stdMode s.tgn.straps := by
      rcases Straps.stdMode_cases s.tgn.straps with ⟨h, hm⟩ | ⟨h, hm⟩ | ⟨h, hm⟩ | ⟨h, hm⟩ <;> simp only [defaults, h, hm]
    have hrest : defaults =
        { Settings.default s.tgn.straps with stdMode := defaults.stdMode, testMode := testMode } := rfl
    rw [hrest, hmode, htest]
    rfl
  have hworking : working = Straps.startStd s.tgn.straps := rfl
  have hp : (if working = .s625 then 589824 else 585728) = (Straps.startStd s.tgn.straps).nominal := by
    rw [hworking]
    cases Straps.startStd s.tgn.straps <;> rfl
  rw [htest, hdefaults, hp, hworking, exec_softReset, portOne_of_strapDone _ _ _ hs]
  refine ⟨_, rfl, ?_⟩
  rw [ackBits_neither]
  set s0 : State := { s with cue := { s.cue with second := false } }
  obtain ⟨hmode, hloop, hother⟩ := Tst.start_spec s.tgn.straps
    (if s.tst.mode = .internalLoop then s.tst.lines else s.entryLines) (if s.tst.mode = .internalLoop then s.tst.run else [])
  have htst : (softResetFunction issued s0).tst = _ := softResetFunction_tst issued s0
  rw [show (softResetFunction issued s0).tst = Tst.start s.tgn.straps
    (if s.tst.mode = .internalLoop then s.tst.lines else s.entryLines)
    (if s.tst.mode = .internalLoop then s.tst.run else []) from htst, hmode]
  -- all but the inputs, the slots, the test unit's records and memory is a field of the reset values
  and_intros <;> try rfl
  · exact fun i => by cases i <;> rfl
  · exact fun i => by simp [softResetFunction]
  · exact hother
  · intro h
    obtain ⟨hcount, hlock, hlines, hrun⟩ := hloop h
    refine ⟨hcount, hlock, fun hm => ?_, fun hm => ?_⟩
    · rw [hlines, hrun, if_pos hm, if_pos hm]
      exact ⟨rfl, rfl⟩
    · rw [hlines, hrun, if_neg hm, if_neg hm]
      exact ⟨rfl, entryLines_spec s⟩
  · rintro (hnone | rfl)
    · simp [softResetFunction, s0, hnone, Memory.writeWords]
    · cases hx : s.mpt.service <;> simp [softResetFunction, s0, hx, Memory.writeWords]
  · intro x hx
    simp [softResetFunction, s0, hx]

end Sys2Proof.Machine
end

section
/-!
PROOFS. Words written over the bus (spec/05 section 5.2), and the commands of the memory traffic that only serve a
request: the grant, take, lone put and status words (R84, R92, R94, R95, R112).
-/

namespace Sys2Proof.Machine

/-! ### Runs of words in main memory -/

theorem Memory.writeWords_append (m : Memory) (xs ys : List (Nat × Word)) :
    m.writeWords (xs ++ ys) = (m.writeWords xs).writeWords ys := by
  induction xs generalizing m with
  | nil => rfl
  | cons x xs ih => exact ih (m.writeWord x.1 x.2)

/-- The computer's own writes leave every other byte (R80). -/
theorem Memory.readByte_hostWrites {m : Memory} (hm : m.wf) (ws : List HostWrite) (x : Nat)
    (h : ∀ w ∈ ws, x ≠ wrapAddr w.addr.toNat ∧ x ≠ wrapAddr (w.addr.toNat + 1)) :
    (m.hostWrites ws).readByte x = m.readByte x := by
  refine Memory.readByte_writeWords hm _ x fun p hp => ?_
  obtain ⟨w, hw, rfl⟩ := List.mem_map.1 hp
  exact h w hw

/-- A run of writes leaves every byte that neither it nor the computer writes. -/
theorem Memory.readByte_writeRun {m : Memory} (hm : m.wf) (ws : List (Nat × Word)) (bus : BusTraffic) (x : Nat)
    (hws : ∀ w ∈ ws, x ≠ wrapAddr w.1 ∧ x ≠ wrapAddr (w.1 + 1))
    (hbus : ∀ h ∈ bus.flatten, x ≠ wrapAddr h.addr.toNat ∧ x ≠ wrapAddr (h.addr.toNat + 1)) :
    (m.writeRun ws bus).readByte x = m.readByte x := by
  induction ws generalizing m bus with
  | nil => exact Memory.readByte_hostWrites hm _ x hbus
  | cons p ws ih =>
    have hsplit : (bus.headD [] ++ bus.tail.flatten) = bus.flatten := by cases bus <;> simp
    rw [← hsplit] at hbus
    have hhost := Memory.wf_hostWrites hm (bus.headD [])
    rw [Memory.writeRun, ih (Memory.wf_writeWord hhost) _ (fun w hw => hws w (List.mem_cons_of_mem _ hw))
      (fun h hh => hbus h (List.mem_append_right _ hh)),
      Memory.readByte_writeWord hhost _ _ _ (hws p List.mem_cons_self).1 (hws p List.mem_cons_self).2,
      Memory.readByte_hostWrites hm _ x (fun h hh => hbus h (List.mem_append_left _ hh))]

/-- Settles O13. -/
theorem busWritesTouchTheirBytes : Obligations.BusWritesTouchTheirBytes := by
  intro m ws bus hm
  refine ⟨Memory.wf_writeRun hm ws bus, fun a hws hbus => Memory.readByte_writeRun hm ws bus a hws hbus, ?_⟩
  rintro pre post w rfl hlater
  have hpre := Memory.wf_writeWords hm pre
  have hw := Memory.wf_writeWord (a := w.1) (w := w.2) hpre
  have hkeep : ∀ i < 2, (((m.writeWords pre).writeWord w.1 w.2).writeWords post).readByte (wrapAddr (w.1 + i)) =
      ((m.writeWords pre).writeWord w.1 w.2).readByte (wrapAddr (w.1 + i)) := fun i hi =>
    Memory.readByte_writeWords hw post _ fun v hv =>
      ⟨hlater v hv i 0 hi (by decide), hlater v hv i 1 hi (by decide)⟩
  rw [Memory.writeRun_nil, Memory.writeWords_append]
  calc (((m.writeWords pre).writeWord w.1 w.2).writeWords post).readWord w.1
      = ((m.writeWords pre).writeWord w.1 w.2).readWord w.1 := by
        rw [Memory.readWord, Memory.readWord, hkeep 1 (by decide)]
        exact congrArg _ (hkeep 0 (by decide))
    _ = w.2 := Memory.readWord_writeWord hpre _ _

/-! ### Requests granted and written (R84, R92, R94, R95, R112) -/

theorem exec_grants {s : State} {r : Request} {m : Mpt} (hidle : s.mpt.service = none) (h : s.mpt.choose = some (r, m)) :
    exec .requestGrant s = .next { s with mpt := { m with service := some ⟨r, false, s.rfe.tick, none⟩ } } := by
  rw [exec_requestGrant, (grant_spec s).1 r m hidle h]

theorem exec_grants_nothing {s : State} (h : s.mpt.service ≠ none ∨ s.mpt.choose = none) :
    exec .requestGrant s = .next s := by
  rw [exec_requestGrant, (grant_spec s).2 h]

/-- A served write frees the port and puts its words in memory. -/
theorem serveWrite_eq (req : Request) (bus : BusTraffic) (s : State) :
    serveWrite req bus s =
      { s with mem := s.mem.writeRun req.writes bus, mpt := { s.mpt with service := none } } := rfl

/-- The writer's next act posts at most one of the two requests it owes, and changes no more. -/
theorem rpwNext_eq (s : State) : rpwNext s = { s with
    mpt := { s.mpt with rpw := (rpwNext s).mpt.rpw }
    rpw := { s.rpw with putDue := (rpwNext s).rpw.putDue, getDue := (rpwNext s).rpw.getDue } } := by
  unfold rpwNext postReport
  (repeat' split) <;> rfl

/-- A writer that owes nothing posts nothing. -/
theorem rpwNext_of_nothing_due {s : State} (hp : s.rpw.putDue = false) (hg : s.rpw.getDue = false) : rpwNext s = s := by
  unfold rpwNext
  split
  · rfl
  · simp [hp, hg]

theorem postStatus_nil {s : State} (h : s.rpw.status = []) : postStatus s = s := by
  simp only [postStatus, h]

theorem postStatus_cons {s : State} {a : Nat} {w : Word} {rest : List (Nat × Word)} (h : s.rpw.status = (a, w) :: rest)
    (hsta : s.mpt.sta = none) (hserve : s.mpt.service = none) :
    postStatus s = { s with
      mpt := { s.mpt with sta := some (.statusWord a w) }, rpw := { s.rpw with status := rest } } := by
  simp [postStatus, h, hsta, Mpt.serviceIs, hserve]

/-- Settles O37. -/
theorem requestsAreGrantedAndWritten : Obligations.RequestsAreGrantedAndWritten := by
  refine ⟨fun s => ⟨fun hidle => ⟨fun r rest hq => ?_, fun hq => ⟨fun r hk => ?_, fun hk => ⟨fun r hr => ?_, fun hr =>
    ⟨fun r hs => ?_, fun hs => ?_⟩⟩⟩⟩, fun x hx => exec_grants_nothing (.inl (by simp [hx]))⟩,
    fun bus discard asked cut s => ⟨fun a v hx => ?_, fun a v hx => ?_, fun a v hx => ?_⟩⟩
  · exact exec_grants (m := { s.mpt with cueQ := rest }) hidle (by simp only [Mpt.choose, hq])
  · exact exec_grants (m := { s.mpt with key := none }) hidle (by simp only [Mpt.choose, hq, hk])
  · exact exec_grants (m := { s.mpt with rpw := none }) hidle (by simp only [Mpt.choose, hq, hk, hr])
  · exact exec_grants (m := { s.mpt with sta := none }) hidle (by simp only [Mpt.choose, hq, hk, hr, hs])
  · exact exec_grants_nothing (.inr (by simp only [Mpt.choose, hq, hk, hr, hs]))
  · simp only [exec, execTakeWriteComplete, hx]
    rfl
  · have heq := rpwNext_eq (serveWrite (.lonePut a v) bus s)
    refine ⟨rpwNext (serveWrite (.lonePut a v) bus s), by simp only [exec, execLonePutWriteComplete, hx], ?_⟩
    refine ⟨by simp; rfl, by rw [heq]; rfl, by rw [heq]; rfl, by rw [heq]; rfl, ?_, fun hp hg => ?_⟩
    · have hmem : (rpwNext (serveWrite (.lonePut a v) bus s)).mem = (serveWrite (.lonePut a v) bus s).mem := by simp
      rw [hmem]
      exact heq
    · rw [rpwNext_of_nothing_due (by exact hp) (by exact hg)]
      rfl
  · refine ⟨postStatus (serveWrite (.statusWord a v) bus s), by simp only [exec, execStatusWordWriteComplete, hx], ?_⟩
    refine ⟨by simp; rfl, ?_, fun hnil => ?_, fun b w rest hcons hsta => ?_⟩
    · unfold postStatus
      (repeat' split) <;> rfl
    · rw [postStatus_nil (by exact hnil)]
      rfl
    · rw [postStatus_cons (by exact hcons) (by exact hsta) rfl]
      rfl

/-- Nothing but the FIFO and its gap has changed of the report writer. -/
def Rpw.SameButFifo (r r' : Rpw) : Prop := r' = { r with
  fifo := r'.fifo, withheld := r'.withheld, openGap := r'.openGap, openStamp := r'.openStamp, gapPending := r'.gapPending }

theorem Rpw.SameButFifo.refl (r : Rpw) : r.SameButFifo r := rfl

theorem Rpw.SameButFifo.trans {r r' r'' : Rpw} (h : r.SameButFifo r') (h' : r'.SameButFifo r'') : r.SameButFifo r'' := by
  unfold Rpw.SameButFifo at *
  rw [h', h]

theorem Rpw.produce_sameButFifo (r : Rpw) (rec : Report) : r.SameButFifo (r.produce rec) := by
  unfold Rpw.SameButFifo Rpw.produce
  split <;> rfl

/-! ### A halt's report with the abort of a load behind it (R160, R182) -/

section
variable {s : State} {rep : Report} {why : AbortReason}

theorem produce_prefix (rep : Report) (s : State) : s.rpw.fifo <+: (produce rep s).rpw.fifo := by
  rw [produce, Rpw.produce_fifo]
  split
  · exact List.prefix_append _ _
  · exact List.prefix_rfl

theorem abortLoading_idle (h : s.kbl.loader ≠ .loading) : abortLoading why s = s := if_neg h

theorem abortLoading_loading {r : LoadRecord} (h : s.kbl.loader = .loading) (hr : s.kbl.load = some r) :
    abortLoading why s = produce (repSwapAborted r .loading why) (closeLoad s) := by
  simp only [abortLoading, h, if_true, abortLoad, hr]

theorem abortLoading_prefix (why : AbortReason) (s : State) : s.rpw.fifo <+: (abortLoading why s).rpw.fifo := by
  unfold abortLoading abortLoad
  split
  · split
    · exact produce_prefix _ _
    · exact List.prefix_rfl
  · exact List.prefix_rfl

/-- The report stands where the FIFO ended, whatever is aborted behind it. -/
theorem report_then_abort (h : s.rpw.fifo.length < 8) :
    ∃ g, (abortLoading why (produce rep s)).rpw.fifo[s.rpw.fifo.length]? = some ⟨rep.stamped s.tgn.stamp, g⟩ := by
  have hat : (produce rep s).rpw.fifo[s.rpw.fifo.length]? =
      some ⟨rep.stamped s.tgn.stamp, s.rpw.closingGap s.tgn.stamp⟩ := by
    rw [produce, Rpw.produce_fifo, if_pos h, List.getElem?_concat_length]
    rfl
  obtain ⟨tail, ht⟩ := abortLoading_prefix why (produce rep s)
  refine ⟨s.rpw.closingGap s.tgn.stamp, ?_⟩
  rw [← ht, List.getElem?_append_left (List.getElem?_eq_some_iff.1 hat).1]
  exact hat

/-- SWAP/ABORTED follows the report where both have room, and nothing else does. -/
theorem abort_after_report {r : LoadRecord} (hl : s.kbl.loader = .loading) (hr : s.kbl.load = some r) :
    (abortLoading why (produce rep s)).kbl.loader = .idle ∧ (abortLoading why (produce rep s)).kbl.load = none ∧
    (s.rpw.fifo.length < 7 → (abortLoading why (produce rep s)).rpw.fifo.drop (s.rpw.fifo.length + 1) =
      [⟨(repSwapAborted r .loading why).stamped s.tgn.stamp, none⟩]) := by
  rw [abortLoading_loading (s := produce rep s) hl hr]
  refine ⟨rfl, rfl, fun h => ?_⟩
  have h8 : s.rpw.fifo.length < 8 := by omega
  have hacc : s.rpw.accepts = true := decide_eq_true h8
  have hprod : (produce rep s).rpw = { s.rpw with
      fifo := s.rpw.fifo ++ [⟨rep.stamped s.tgn.stamp, s.rpw.closingGap (rep.stamped s.tgn.stamp).stamp⟩]
      openGap := 0, openStamp := none } := by
    simp only [produce, Rpw.produce, hacc, if_true]
  have hclose : (closeLoad (produce rep s)).rpw = (produce rep s).rpw := rfl
  rw [produce, Rpw.produce_fifo, hclose, hprod, if_pos (by simp; omega)]
  simp [Rpw.closingGap, List.drop_append]

theorem no_abort_after_report (h : s.kbl.loader ≠ .loading) :
    (abortLoading why (produce rep s)).rpw.fifo.drop (s.rpw.fifo.length + 1) = [] ∧
    (abortLoading why (produce rep s)).kbl = s.kbl := by
  rw [abortLoading_idle (s := produce rep s) h]
  exact ⟨List.drop_eq_nil_of_le (Rpw.produce_length_le _ _), rfl⟩

theorem abortLoading_banks (why : AbortReason) (s : State) : (abortLoading why s).kbl.banks = s.kbl.banks := by
  unfold abortLoading abortLoad
  split
  · split <;> rfl
  · rfl

theorem abortLoading_sameButFifo (why : AbortReason) (s : State) : s.rpw.SameButFifo (abortLoading why s).rpw := by
  unfold abortLoading abortLoad
  split
  · split
    · exact Rpw.produce_sameButFifo _ _
    · exact Rpw.SameButFifo.refl _
  · exact Rpw.SameButFifo.refl _

end

/-! ### The MEMORY fault (R95, R160, R173, R182, R184) -/

/-- The machine once a MEMORY fault has halted it, before its report. -/
def memoryHalted (req : Request) (at_ : Tick) (n : Nat) (reached : Bool) (bus : BusTraffic) (s : State) : State :=
  let s1 := { s.atTick at_ with mem := s.mem.writeRun (req.writes.take (n + bitOf reached)) bus }
  let s2 := { enterHalted .memory (dropWriters s1) with mpt := {} }
  latch .memory { s2 with cue := { s2.cue with startup := false }, rpw := { s2.rpw with suspended := true } }

theorem memoryFault_eq (req : Request) (at_ : Tick) (n : Nat) (reached : Bool) (bus : BusTraffic) (s : State) :
    memoryFault req at_ n reached bus s = abortLoading .memory
      (produce (repHaltMemory (s.fetchTag req n bus) req.path (wrapAddr (req.addrs.getD n 0)) s.cue.take)
        (memoryHalted req at_ n reached bus s)) := rfl

/-- The word at which a MEMORY fault comes, and whether it can (R95, R101). -/
theorem exec_memoryFault {why : BusFailure} {done : Nat} {reached : Bool} {bus : BusTraffic} {x : Service} {s : State}
    (hx : s.mpt.service = some x) :
    exec (.memoryFault why done reached bus) s = .next
      (if s.canFail x why (failWord done why) bus then
        memoryFault x.req (failInstant x why) (failWord done why) (reached && decide (why ≠ .notGranted)) bus s
      else s) := by
  simp only [exec, execMemoryFault, hx]

theorem abortLoading_mpt {why : AbortReason} {s : State} (h : s.mpt = {}) : (abortLoading why s).mpt = {} := by
  unfold abortLoading abortLoad
  split
  · split
    · show ({ s.mpt.discard .key with key := none } : Mpt) = {}
      rw [h]
      rfl
    · exact h
  · exact h

/-- Settles O38. -/
theorem memoryFaultHalts : Obligations.MemoryFaultHalts := by
  intro why done reached bus x s hx n can
  have hn : failWord done why = n := by cases why <;> rfl
  have hcan : s.canFail x why n bus = true ↔ can := State.canFail_iff s x why n bus
  rw [exec_memoryFault hx, hn]
  refine ⟨fun h => ?_, fun h => by rw [if_neg (fun hc => h (hcan.1 hc))]⟩
  rw [if_pos (hcan.2 h), memoryFault_eq]
  set u := memoryHalted x.req (failInstant x why) n (reached && decide (why ≠ .notGranted)) bus s with hu
  set rep := repHaltMemory (s.fetchTag x.req n bus) x.req.path (wrapAddr (x.req.addrs.getD n 0)) s.cue.take
  have hfifo : u.rpw.fifo = s.rpw.fifo := rfl
  have hkbl : u.kbl = s.kbl := rfl
  have hsame := (Rpw.produce_sameButFifo u.rpw (rep.stamped u.tgn.stamp)).trans (abortLoading_sameButFifo .memory (produce rep u))
  have hlanded : n + bitOf (reached && decide (why ≠ .notGranted)) = if reached = true ∧ why ≠ .notGranted then n + 1 else n := by
    by_cases hw : why = .notGranted <;> cases reached <;> simp [hw, bitOf]
  refine ⟨_, rfl, ?_, abortLoading_mpt rfl, ?_, ?_, ?_, ?_, ?_, fun h8 => ?_, fun hl r hr => ?_, fun hl => ?_, ?_, ?_, ?_,
    ?_, ?_, ?_, ?_, fun hl => ?_, ?_, ?_, ?_, ?_, ?_, ?_⟩
  · rw [(abortLoading_frame _ _).1]
    cases why <;> rfl
  · rw [(abortLoading_frame _ _).2.2.2.2.1]
    rfl
  · rw [hsame]
    rfl
  · rw [hsame]
    rfl
  · rw [hsame]
    rfl
  · rw [← hlanded]
    simp only [abortLoading_frame, produce_frame]
    rfl
  · obtain ⟨g, hg⟩ := report_then_abort (why := .memory) (rep := rep) (s := u) h8
    exact ⟨_, g, hg⟩
  · obtain ⟨hloader, hload, hdrop⟩ := abort_after_report (why := .memory) (rep := rep) (s := u) hl hr
    exact ⟨hloader, hload, fun h7 => (hdrop h7).trans rfl⟩
  · exact (no_abort_after_report (why := .memory) (rep := rep) (s := u) hl).1
  · exact (produce_prefix rep u).trans (abortLoading_prefix _ _)
  · rw [hsame]; rfl
  · rw [hsame]; rfl
  · rw [hsame]; rfl
  · rw [hsame]; rfl
  · rw [hsame]; rfl
  · rw [hsame]; rfl
  · exact (no_abort_after_report (why := .memory) (rep := rep) (s := u) hl).2
  · rw [abortLoading_banks]
    rfl
  all_goals simp only [abortLoading_frame, produce_frame]; rfl

end Sys2Proof.Machine
end

section
/-!
PROOFS. The report FIFO (O42), the key loader's source words (O41) and the words the port reads, in terms of
the request in service.
-/

namespace Sys2Proof.Machine

/-! ## The FIFO (R165, R166) -/

/-- Settles O42: the two branches of `Rpw.produce`. -/
theorem fifoAcceptsOrWithholds : Obligations.FifoAcceptsOrWithholds := by
  intro rec s
  refine ⟨fun h => ?_, fun h => ?_⟩
  · show ({ s with rpw := s.rpw.produce _ } : State) = _
    simp only [Rpw.produce, Rpw.accepts_of_lt h, if_true]
    rfl
  · show ({ s with rpw := s.rpw.produce _ } : State) = _
    simp only [Rpw.produce, Rpw.not_accepts h, satSucc_eq_min]
    rfl

/-! ## Bytes of a word -/

theorem bits_low (w : Word) : bits w 0 8 = w.toNat % 256 := by simp [bits]

theorem bits_high (w : Word) : bits w 8 8 = w.toNat / 256 := by
  have := w.isLt
  simp only [bits]
  omega

/-! ## Entries of the shadow -/

theorem storeEntry_get (sh : Bank) (start j v : Nat) (e : Fin 256) :
    (storeEntry sh start j v)[e] = if e.val = (start + j) % 256 then min v 64 else sh[e] := by
  simp only [storeEntry, Fin.getElem_fin, Vector.getElem_set, Fin.ofNat]
  by_cases h : e.val = (start + j) % 256
  · rw [if_pos h.symm, if_pos h]
  · rw [if_neg fun h' => h h'.symm, if_neg h]

theorem sourceWords_lt {i n : Nat} : i < sourceWords n ↔ 2 * i < n := by
  simp only [sourceWords]
  omega

theorem takeWord_shadow (k : Kbl) (r : LoadRecord) (w : Word) (e : Fin 256) :
    (k.takeWord r w).shadow[e] =
      if 2 * r.wordsRead + 1 < r.count ∧ e.val = (r.start + 2 * r.wordsRead + 1) % 256 then min (w.toNat / 256) 64
      else if e.val = (r.start + 2 * r.wordsRead) % 256 then min (w.toNat % 256) 64
      else k.shadow[e] := by
  rw [← bits_low, ← bits_high]
  by_cases hb : 2 * r.wordsRead + 1 < r.count
  · simp only [Kbl.takeWord, hb, decide_true, if_true, true_and, storeEntry_get, Nat.add_assoc]
  · simp only [Kbl.takeWord, hb, decide_false, Bool.false_eq_true, if_false, false_and, storeEntry_get]

theorem takeWord_load (k : Kbl) (r : LoadRecord) (w : Word) :
    (k.takeWord r w).load = some { r with
      wordsRead := r.wordsRead + 1
      saturated := r.saturated + (if 64 < w.toNat % 256 then 1 else 0)
        + (if 2 * r.wordsRead + 1 < r.count ∧ 64 < w.toNat / 256 then 1 else 0) } := by
  rw [← bits_low, ← bits_high]
  by_cases hb : 2 * r.wordsRead + 1 < r.count <;> simp [Kbl.takeWord, saturates, hb]

theorem takeWord_loader (k : Kbl) (r : LoadRecord) (w : Word) :
    (k.takeWord r w).loader = if 2 * (r.wordsRead + 1) < r.count then .loading else .ready := by
  simp only [Kbl.takeWord, sourceWords_lt]

theorem keyWordRead_of_load {w : Word} {s : State} {r : LoadRecord} (h : s.kbl.load = some r) :
    keyWordRead w s = { s with
      kbl := s.kbl.takeWord r w
      mpt := { s.mpt with key :=
        if 2 * (r.wordsRead + 1) < r.count then some (Request.keySource (r.source + 2 * (r.wordsRead + 1)))
        else s.mpt.key } } := by
  simp only [keyWordRead, h, takeWord_loader]
  by_cases hm : 2 * (r.wordsRead + 1) < r.count
  · simp only [if_pos hm, if_true]
    rfl
  · simp only [if_neg hm, reduceCtorEq, if_false]

theorem exec_keySourceWordRead {bus : BusTraffic} {a : Nat} {discard : Bool} {asked : Tick} {cut : Option Nat}
    {s : State} (h : s.mpt.service = some ⟨.keySource a, discard, asked, cut⟩) :
    exec (.keySourceWordRead bus) s = .next (
      if discard then { freePort s with mem := (s.mem.readRun [a] bus).1 }
      else keyWordRead ((s.mem.readRun [a] bus).2.getD 0 0) { freePort s with mem := (s.mem.readRun [a] bus).1 }) := by
  simp only [exec, execKeySourceWordRead, h]
  rfl

/-- Settles O41. -/
theorem sourceWordsFillTheShadow : Obligations.SourceWordsFillTheShadow := by
  intro bus a discard asked cut s hs read w
  have hex := exec_keySourceWordRead (bus := bus) hs
  cases discard with
  | true =>
    exact ⟨_, hex, rfl, rfl, rfl, rfl, rfl, fun _ => rfl, fun _ h => absurd h (by decide)⟩
  | false =>
    rw [if_neg Bool.false_ne_true] at hex
    cases hl : s.kbl.load with
    | none =>
      have hk : keyWordRead (read.2.getD 0 0) { freePort s with mem := read.1 } = { freePort s with mem := read.1 } := by
        simp only [keyWordRead, freePort, hl]
      rw [hk] at hex
      exact ⟨_, hex, rfl, rfl, rfl, rfl, rfl, fun h => absurd h (by decide), fun _ _ h => absurd h (by simp)⟩
    | some r =>
      rw [keyWordRead_of_load (s := { freePort s with mem := read.1 }) hl] at hex
      refine ⟨_, hex, rfl, rfl, rfl, rfl, rfl, fun h => absurd h (by decide), fun q _ hq => ?_⟩
      obtain rfl : r = q := by simpa using hq
      refine ⟨rfl, fun e => takeWord_shadow _ _ _ e, ⟨_, takeWord_load _ _ _, rfl, rfl⟩, fun h => ?_, fun h => ?_⟩
      · exact ⟨(takeWord_loader _ _ _).trans (if_pos h), if_pos h⟩
      · exact ⟨(takeWord_loader _ _ _).trans (if_neg (Nat.not_lt.2 h)), if_neg (Nat.not_lt.2 h)⟩

end Sys2Proof.Machine
end

section
/-!
PROOFS. The report writer: what its next act, the completion of a write and the get and trigger read do to the
ring, the FIFO and the causes; with O43.
-/

namespace Sys2Proof.Machine

/-! ## The writer's next act (R167, R169) -/

theorem State.mayWrite_iff {s : State} : s.mayWrite = true ↔
    s.cue.engine ≠ .stopped ∧ s.cue.startup = false ∧ s.cue.linkValid = true ∧ s.rpw.suspended = false := by
  simp [State.mayWrite, and_assoc]

theorem Rpw.room_iff {r : Rpw} : r.room = true ↔ r.lastGet < r.len ∧ (r.put + 1) % r.len ≠ r.lastGet := by
  simp [Rpw.room]

theorem writeRecord_nil {s : State} (h : s.rpw.fifo = []) : writeRecord s = s := by
  simp [writeRecord, State.canWriteRecord, h]

section
variable {s : State} {x : FifoRecord} {rest : List FifoRecord}

theorem State.canWriteRecord_iff (hmay : s.mayWrite = true) (hhand : s.writeInHand = false) (hx : s.rpw.fifo = x :: rest) :
    s.canWriteRecord = true ↔ s.rpw.room = true ∨ s.rpw.fullWait = false := by
  simp [State.canWriteRecord, hmay, hhand, hx]

theorem writeRecord_room (hmay : s.mayWrite = true) (hhand : s.writeInHand = false) (hx : s.rpw.fifo = x :: rest)
    (hroom : s.rpw.room = true) :
    writeRecord s = postReport (.reportWrite (s.rpw.base + 16 * s.rpw.put)
      (match x.gap with | some g => repGap g | none => x.report) x.gap.isSome (s.cue.link.toNat + 34)
      ((s.rpw.put + 1) % s.rpw.len)) s := by
  have hcan := (State.canWriteRecord_iff hmay hhand hx).2 (.inl hroom)
  simp only [writeRecord, hcan, if_true, hx, hroom]
  cases x.gap <;> rfl

theorem writeRecord_full (hmay : s.mayWrite = true) (hhand : s.writeInHand = false) (hx : s.rpw.fifo = x :: rest)
    (hroom : s.rpw.room = false) :
    writeRecord s = if s.rpw.fullWait then s else postReport (.getRead (s.cue.link.toNat + 36) true) s := by
  cases hfull : s.rpw.fullWait with
  | true => simp [writeRecord, State.canWriteRecord, hroom, hfull]
  | false =>
    have hcan := (State.canWriteRecord_iff hmay hhand hx).2 (.inr hfull)
    simp only [writeRecord, hcan, if_true, hx, hroom, Bool.false_eq_true, if_false]
    rfl

end

/-! ## The causes a written record latches (R170, R171) -/

/-- The trigger test and the match test of a record just written. -/
def Rpw.tested (r : Rpw) (put : Nat) (w0 : Word) : Rpw :=
  let r1 := if r.trigger = some put then r.latch .reportTrigger else r
  if r.matchList.toList.any (fun m => m.hits w0) then r1.latch .matched else r1

theorem matchTest_triggerTest (put : Nat) (w0 : Word) (s : State) :
    matchTest w0 (triggerTest put s) = { s with rpw := s.rpw.tested put w0 } := by
  unfold matchTest triggerTest Rpw.tested latch
  by_cases ht : s.rpw.trigger = some put
  · simp only [if_pos ht]
    show (if s.rpw.matchList.toList.any (fun m => m.hits w0) = true then _ else _) = _
    split <;> rfl
  · simp only [if_neg ht]
    split <;> rfl

theorem Rpw.tested_eq (r : Rpw) (put : Nat) (w0 : Word) :
    r.tested put w0 = { r with latched := (r.tested put w0).latched, seen := (r.tested put w0).seen } := by
  unfold Rpw.tested Rpw.latch
  (repeat' split) <;> rfl

theorem or_and_of_disjoint {x a b : BitVec 8} (h : a &&& b = 0#8) : (x ||| a) &&& b = x &&& b := by
  ext i hi
  have hbit := congrArg (fun y : BitVec 8 => y[i]) h
  simp only [BitVec.getElem_and, BitVec.getElem_or] at hbit ⊢
  rw [Bool.and_or_distrib_right, hbit]
  simp

theorem or_and_self (x a : BitVec 8) : (x ||| a) &&& a = a := by
  ext i; simp; tauto

theorem matchList_hits (l : Vector MatchEntry 4) (w0 : Word) : l.toList.any (fun m => m.hits w0) = true ↔
    ∃ k : Fin 4, (l[k]).mask ≠ 0 ∧ w0 &&& (l[k]).mask = (l[k]).pattern := by
  have hhits (m : MatchEntry) : m.hits w0 = true ↔ m.mask ≠ 0 ∧ w0 &&& m.mask = m.pattern := by simp [MatchEntry.hits]
  simp only [List.any_eq_true, hhits, Vector.mem_toList_iff, Vector.mem_iff_getElem]
  exact ⟨fun ⟨_, ⟨k, hk, he⟩, h⟩ => ⟨⟨k, hk⟩, by subst he; exact h⟩, fun ⟨k, h⟩ => ⟨_, ⟨k.val, k.isLt, rfl⟩, h⟩⟩

/-- MATCHED is latched by a hit of the match list. -/
theorem Rpw.tested_matched (r : Rpw) (put : Nat) (w0 : Word) :
    (r.tested put w0).latched &&& Cause.matched.bit = Cause.matched.bit ↔
      (∃ k : Fin 4, (r.matchList[k]).mask ≠ 0 ∧ w0 &&& (r.matchList[k]).mask = (r.matchList[k]).pattern) ∨
        r.latched &&& Cause.matched.bit = Cause.matched.bit := by
  have hdisj : Cause.reportTrigger.bit &&& Cause.matched.bit = 0#8 := by decide
  rw [← matchList_hits]
  unfold Rpw.tested
  by_cases hm : r.matchList.toList.any (fun m => m.hits w0) = true
  · simp only [hm, if_true, Rpw.latch, or_and_self, true_or]
  · simp only [hm, if_false, false_or, Bool.false_eq_true]
    split
    · simp only [Rpw.latch, or_and_of_disjoint hdisj]
    · exact Iff.rfl

/-- REPORT_TRIGGER is latched where put has reached the report trigger, and else stays as it was. -/
theorem Rpw.tested_trigger (r : Rpw) (put : Nat) (w0 : Word) :
    (r.tested put w0).latched &&& Cause.reportTrigger.bit =
      if r.trigger = some put then Cause.reportTrigger.bit else r.latched &&& Cause.reportTrigger.bit := by
  have hdisj : Cause.matched.bit &&& Cause.reportTrigger.bit = 0#8 := by decide
  unfold Rpw.tested
  by_cases ht : r.trigger = some put
  · simp only [if_pos ht]
    split
    · simp only [Rpw.latch, or_and_of_disjoint hdisj, or_and_self]
    · simp only [Rpw.latch, or_and_self]
  · simp only [if_neg ht]
    split
    · simp only [Rpw.latch, or_and_of_disjoint hdisj]
    · rfl

/-! ## A record or a GAP leaves the FIFO (R168, R169) -/

section
variable {r : Rpw} {x : FifoRecord} {rest : List FifoRecord}

theorem Rpw.retire_record (hx : r.fifo = x :: rest) : r.retire false = { r with fifo := rest } := by
  simp only [Rpw.retire, hx]

theorem Rpw.retire_gap {g : GapPart} (hx : r.fifo = x :: rest) (hg : x.gap = some g) :
    r.retire true = { r with
      fifo := { x with gap := none } :: rest
      withheld := if (∀ y ∈ rest, y.gap = none) ∧ r.openGap = 0 then 0 else r.withheld - g.count
      gapPending := if (∀ y ∈ rest, y.gap = none) ∧ r.openGap = 0 then false else r.gapPending } := by
  by_cases h : (∀ y ∈ rest, y.gap = none) ∧ r.openGap = 0
  · have hb : (rest.all (fun y => y.gap.isNone) && decide (r.openGap = 0)) = true := by
      simpa using h
    simp only [Rpw.retire, hx, hg, hb, if_pos h, if_true]
  · have hb : (rest.all (fun y => y.gap.isNone) && decide (r.openGap = 0)) = false := by
      rw [Bool.eq_false_iff]
      exact fun hb => h (by simpa using hb)
    simp only [Rpw.retire, hx, hg, hb, if_neg h, Bool.false_eq_true, if_false]

end

/-! ## The completion of a record's or a GAP's write (R168 to R172) -/

theorem putWritten_below {put : Nat} {s : State} (h : put < s.rpw.len) :
    putWritten put s = { s with rpw := { s.rpw with put := put } } := if_pos h

theorem putWritten_above {put : Nat} {s : State} (h : s.rpw.len ≤ put) : putWritten put s =
    produce (repWarnIndex 0 1 put s.rpw.len) { s with rpw := { s.rpw with put := 0, putDue := true } } :=
  if_neg (Nat.not_lt.2 h)

/-- The writer's next act leaves all of the writer but what it owes. -/
@[simp] theorem rpwNext_rpw_frame (s : State) :
    (rpwNext s).rpw.fifo = s.rpw.fifo ∧ (rpwNext s).rpw.put = s.rpw.put ∧ (rpwNext s).rpw.latched = s.rpw.latched ∧
    (rpwNext s).rpw.withheld = s.rpw.withheld ∧ (rpwNext s).rpw.gapPending = s.rpw.gapPending ∧
    (rpwNext s).rpw.lastGet = s.rpw.lastGet ∧ (rpwNext s).rpw.trigger = s.rpw.trigger ∧
    (rpwNext s).rpw.badGet = s.rpw.badGet ∧ (rpwNext s).rpw.fullWait = s.rpw.fullWait ∧
    (rpwNext s).mpt.service = s.mpt.service := by
  unfold rpwNext postReport
  (repeat' split) <;> and_intros <;> rfl

theorem rpwNext_mpt (s : State) : (rpwNext s).mpt = { s.mpt with rpw := (rpwNext s).mpt.rpw } := by
  unfold rpwNext postReport
  (repeat' split) <;> rfl

theorem rpwNext_put {s : State} (hdue : s.rpw.putDue = true) (hmay : s.mayWrite = true) (hhand : s.writeInHand = false) :
    rpwNext s = postReport (.lonePut (s.cue.link.toNat + 34) s.rpw.put) { s with rpw := { s.rpw with putDue := false } } := by
  simp only [rpwNext, hdue, hmay, hhand, Bool.not_true, Bool.or_self, Bool.false_eq_true, if_false, if_true]
  rfl

theorem rpwNext_of_busy {s : State} (h : ¬(s.mayWrite = true ∧ s.writeInHand = false)) : rpwNext s = s := by
  unfold rpwNext
  rw [if_pos]
  by_cases hm : s.mayWrite = true
  · simp only [hm, true_and, Bool.not_eq_false] at h
    simp [h]
  · simp [hm]

/-- A record has been written: what its completion leaves before the writer's next act. -/
def State.recordWritten (w0 : Word) (gap : Bool) (put : Nat) (s : State) : State :=
  let u := putWritten put { s with rpw := s.rpw.retire gap }
  { u with rpw := u.rpw.tested put w0 }

theorem reportWritten_eq (rec : Report) (gap : Bool) (put : Nat) (s : State) :
    reportWritten rec gap put s = rpwNext (s.recordWritten rec.w0 gap put) := by
  show rpwNext (matchTest rec.w0 (triggerTest put (putWritten put { s with rpw := s.rpw.retire gap }))) = _
  rw [matchTest_triggerTest]
  rfl

section
variable {s : State} {w0 : Word} {gap : Bool} {put : Nat}

theorem putWritten_keeps (put : Nat) (s : State) :
    (putWritten put s).rpw.matchList = s.rpw.matchList ∧ (putWritten put s).rpw.trigger = s.rpw.trigger ∧
    (putWritten put s).rpw.latched = s.rpw.latched := by
  unfold putWritten
  split
  · exact ⟨rfl, rfl, rfl⟩
  · simp only [produce, Rpw.produce]
    split <;> exact ⟨rfl, rfl, rfl⟩

theorem retire_keeps (gap : Bool) (r : Rpw) :
    (r.retire gap).matchList = r.matchList ∧ (r.retire gap).trigger = r.trigger ∧ (r.retire gap).latched = r.latched ∧
    (r.retire gap).len = r.len ∧ (r.retire gap).putDue = r.putDue ∧ (r.retire gap).getDue = r.getDue := by
  unfold Rpw.retire
  (repeat' split) <;> and_intros <;> rfl

/-- R170, R171: the causes a completion latches. -/
theorem recordWritten_latched :
    ((s.recordWritten w0 gap put).rpw.latched &&& Cause.matched.bit = Cause.matched.bit ↔
      (∃ k : Fin 4, (s.rpw.matchList[k]).mask ≠ 0 ∧ w0 &&& (s.rpw.matchList[k]).mask = (s.rpw.matchList[k]).pattern) ∨
        s.rpw.latched &&& Cause.matched.bit = Cause.matched.bit) ∧
    (s.recordWritten w0 gap put).rpw.latched &&& Cause.reportTrigger.bit =
      if s.rpw.trigger = some put then Cause.reportTrigger.bit else s.rpw.latched &&& Cause.reportTrigger.bit := by
  obtain ⟨hm, ht, hl⟩ := putWritten_keeps put { s with rpw := s.rpw.retire gap }
  obtain ⟨hm', ht', hl', -⟩ := retire_keeps gap s.rpw
  have hmatch := Rpw.tested_matched (putWritten put { s with rpw := s.rpw.retire gap }).rpw put w0
  have htrig := Rpw.tested_trigger (putWritten put { s with rpw := s.rpw.retire gap }).rpw put w0
  rw [hm, hl] at hmatch
  rw [ht, hl] at htrig
  simp only [hm', hl'] at hmatch
  simp only [ht', hl'] at htrig
  exact ⟨hmatch, htrig⟩

/-- R168: a put below the ring length is the working put. -/
theorem recordWritten_below (h : put < s.rpw.len) : (s.recordWritten w0 gap put).rpw = { s.rpw.retire gap with
    put := put
    latched := (s.recordWritten w0 gap put).rpw.latched
    seen := (s.recordWritten w0 gap put).rpw.seen } := by
  have hlen : (s.rpw.retire gap).len = s.rpw.len := (retire_keeps gap s.rpw).2.2.2.1
  simp only [State.recordWritten]
  rw [putWritten_below (s := { s with rpw := s.rpw.retire gap }) (by rw [hlen]; exact h)]
  exact Rpw.tested_eq _ _ _

/-- R84, R172: one at or above it is put to 0, with WARN/INDEX. -/
theorem recordWritten_above (h : s.rpw.len ≤ put) : (s.recordWritten w0 gap put).rpw =
    { (({ s.rpw.retire gap with put := 0, putDue := true } : Rpw).produce
        ((repWarnIndex 0 1 put s.rpw.len).stamped s.tgn.stamp)) with
      latched := (s.recordWritten w0 gap put).rpw.latched
      seen := (s.recordWritten w0 gap put).rpw.seen } := by
  have hlen : (s.rpw.retire gap).len = s.rpw.len := (retire_keeps gap s.rpw).2.2.2.1
  simp only [State.recordWritten]
  rw [putWritten_above (s := { s with rpw := s.rpw.retire gap }) (by rw [hlen]; exact h), ← hlen]
  exact Rpw.tested_eq _ _ _

@[simp] theorem recordWritten_frame (w0 : Word) (gap : Bool) (put : Nat) (s : State) :
    (s.recordWritten w0 gap put).mpt = s.mpt ∧ (s.recordWritten w0 gap put).cue = s.cue ∧
    (s.recordWritten w0 gap put).mem = s.mem ∧ (s.recordWritten w0 gap put).rpw.suspended = s.rpw.suspended := by
  refine ⟨?_, ?_, ?_, ?_⟩
  · simp only [State.recordWritten, putWritten]; split <;> rfl
  · simp only [State.recordWritten, putWritten]; split <;> rfl
  · simp only [State.recordWritten, putWritten]; split <;> rfl
  · have hsus : (s.rpw.retire gap).suspended = s.rpw.suspended := by
      unfold Rpw.retire
      (repeat' split) <;> rfl
    rcases Nat.lt_or_ge put s.rpw.len with h | h
    · rw [recordWritten_below h]
      exact hsus
    · rw [recordWritten_above h]
      exact (congrArg Rpw.suspended (Rpw.produce_sameButFifo _ _)).trans hsus

/-- What an accepted record leaves of the FIFO's counts. -/
theorem Rpw.produce_room {r : Rpw} {rec : Report} (h : r.fifo.length < 8) :
    (∃ g, (r.produce rec).fifo = r.fifo ++ [⟨rec, g⟩]) ∧ (r.produce rec).withheld = r.withheld ∧
    (r.produce rec).gapPending = r.gapPending := by
  simp only [Rpw.produce, Rpw.accepts_of_lt h, if_true, and_true]
  exact ⟨_, rfl⟩

end

/-! ## The get and trigger read (R86, R167) -/

/-- The get and trigger words have been read: what the read leaves before the writer's next act. -/
def State.getTaken (forRecord : Bool) (get trig : Nat) (s : State) : State :=
  let r1 := { s.rpw with
    lastGet := get, trigger := triggerOf s.rpw.len trig, badGet := decide (s.rpw.len ≤ get) }
  let s1 := { s with rpw :=
    if r1.room then { r1 with fullWait := false } else if forRecord then { r1 with fullWait := true } else r1 }
  if decide (s.rpw.len ≤ get) && !s.rpw.badGet then produce (repWarnIndex 0 3 get s.rpw.len) s1 else s1

theorem getRead_eq (forRecord : Bool) (get trig : Nat) (s : State) :
    getRead forRecord get trig s = rpwNext (s.getTaken forRecord get trig) := rfl

theorem getTaken_spec (forRecord : Bool) (get trig : Nat) (s : State) :
    let t := s.getTaken forRecord get trig
    let room : Prop := get < s.rpw.len ∧ (s.rpw.put + 1) % s.rpw.len ≠ get
    t.mpt = s.mpt ∧ t.cue = s.cue ∧ t.mem = s.mem ∧ t.rpw.lastGet = get ∧
    t.rpw.trigger = (if trig < s.rpw.len then some trig else none) ∧ t.rpw.badGet = decide (s.rpw.len ≤ get) ∧
    t.rpw.put = s.rpw.put ∧
    t.rpw.fullWait = (if room then false else if forRecord then true else s.rpw.fullWait) ∧
    (get < s.rpw.len ∨ s.rpw.badGet = true → t.rpw.fifo = s.rpw.fifo) ∧
    (s.rpw.len ≤ get → s.rpw.badGet = false → s.rpw.fifo.length < 8 → ∃ g, t.rpw.fifo =
      s.rpw.fifo ++ [⟨(repWarnIndex 0 3 get s.rpw.len).stamped s.tgn.stamp, g⟩]) := by
  intro t room
  set r1 : Rpw := { s.rpw with
    lastGet := get, trigger := triggerOf s.rpw.len trig, badGet := decide (s.rpw.len ≤ get) } with hr1
  have hroom : r1.room = true ↔ room := Rpw.room_iff
  obtain ⟨r2, hr2, hfull, hsame⟩ : ∃ r2 : Rpw,
      r2 = (if r1.room then { r1 with fullWait := false } else if forRecord then { r1 with fullWait := true } else r1) ∧
      r2.fullWait = (if room then false else if forRecord then true else s.rpw.fullWait) ∧
      r2 = { r1 with fullWait := r2.fullWait } := by
    refine ⟨_, rfl, ?_, ?_⟩
    · by_cases h : room
      · simp only [hroom.2 h, if_true, if_pos h]
      · simp only [mt hroom.1 h, if_neg h, if_false]
        cases forRecord <;> rfl
    · (repeat' split) <;> rfl
  have ht : t = if decide (s.rpw.len ≤ get) && !s.rpw.badGet then
      produce (repWarnIndex 0 3 get s.rpw.len) { s with rpw := r2 } else { s with rpw := r2 } := by
    rw [hr2]
    rfl
  have hput2 : r2.put = s.rpw.put := by rw [hsame]
  have hf : r2.fifo = s.rpw.fifo := by rw [hsame]
  by_cases hw : (decide (s.rpw.len ≤ get) && !s.rpw.badGet) = true
  · rw [if_pos hw] at ht
    have hsf := Rpw.produce_sameButFifo r2 ((repWarnIndex 0 3 get s.rpw.len).stamped s.tgn.stamp)
    rw [Bool.and_eq_true, decide_eq_true_eq, Bool.not_eq_true'] at hw
    rw [ht]
    refine ⟨rfl, rfl, rfl, (congrArg Rpw.lastGet hsf).trans (congrArg Rpw.lastGet hsame),
      (congrArg Rpw.trigger hsf).trans (congrArg Rpw.trigger hsame), (congrArg Rpw.badGet hsf).trans (congrArg Rpw.badGet hsame),
      (congrArg Rpw.put hsf).trans hput2, (congrArg Rpw.fullWait hsf).trans hfull, fun h => ?_,
      fun _ _ h8 => ?_⟩
    · rcases h with h | h
      · omega
      · rw [h] at hw
        exact absurd hw.2 (by decide)
    · rw [← hf] at h8 ⊢
      exact (Rpw.produce_room h8).1
  · rw [if_neg hw] at ht
    rw [ht]
    refine ⟨rfl, rfl, rfl, congrArg Rpw.lastGet hsame, congrArg Rpw.trigger hsame, congrArg Rpw.badGet hsame,
      hput2, hfull, fun _ => hf, fun h hb => ?_⟩
    simp [h, hb] at hw

theorem exec_getReadComplete {bus : BusTraffic} {a : Nat} {forRecord discard : Bool} {asked : Tick} {cut : Option Nat}
    {s : State} (h : s.mpt.service = some ⟨.getRead a forRecord, discard, asked, cut⟩) :
    exec (.getReadComplete bus) s = .next (getRead forRecord ((s.mem.readRun [a, a + 2] bus).2.getD 0 0).toNat
      ((s.mem.readRun [a, a + 2] bus).2.getD 1 0).toNat { freePort s with mem := (s.mem.readRun [a, a + 2] bus).1 }) := by
  simp only [exec, execGetReadComplete, h]
  rfl

theorem exec_reportWriteComplete {bus : BusTraffic} {a : Nat} {rec : Report} {gap : Bool} {pa put : Nat} {discard : Bool}
    {asked : Tick} {cut : Option Nat} {s : State}
    (h : s.mpt.service = some ⟨.reportWrite a rec gap pa put, discard, asked, cut⟩) :
    exec (.reportWriteComplete bus) s =
      .next (reportWritten rec gap put (serveWrite (.reportWrite a rec gap pa put) bus s)) := by
  simp only [exec, execReportWriteComplete, h]

/-- Settles O43: the writer's next act, the completion of its write and its read of get, one after the other. -/
theorem recordsReachTheRing : Obligations.RecordsReachTheRing := by
  refine ⟨fun bus s => ⟨fun hstop hstart hlink hsus hrpw hserve x rest hx => ?_, fun hnil => ?_, ?_⟩, ?_⟩
  · have hmay : s.mayWrite = true := State.mayWrite_iff.2 ⟨hstop, hstart, hlink, hsus⟩
    have hhand : s.writeInHand = false := by simp [State.writeInHand, hrpw, hserve]
    refine ⟨fun hget hnext => ?_, fun hno => ?_⟩
    · exact congrArg Host.Outcome.next (writeRecord_room hmay hhand hx (Rpw.room_iff.2 ⟨hget, fun h => hnext h.symm.symm⟩))
    · have hroom : s.rpw.room = false := by
        rw [Bool.eq_false_iff]
        intro h
        obtain ⟨h1, h2⟩ := Rpw.room_iff.1 h
        exact hno.elim (Nat.not_le.2 h1) h2
      have hw := writeRecord_full hmay hhand hx hroom
      refine ⟨fun hfull => ?_, fun hfull => ?_⟩ <;> rw [hfull] at hw <;> exact congrArg Host.Outcome.next hw
  · exact congrArg Host.Outcome.next (writeRecord_nil hnil)
  · intro a rec gap pa put x rest discard asked cut hservice hfifo hgap left free
    set u := serveWrite (.reportWrite a rec gap pa put) bus s with hu
    have hufifo : u.rpw.fifo = x :: rest := hfifo
    obtain ⟨hmatch, htrig⟩ := recordWritten_latched (s := u) (w0 := rec.w0) (gap := gap) (put := put)
    have hretire : (u.rpw.retire gap).fifo = left := by
      cases gap with
      | false => rw [Rpw.retire_record hufifo]; rfl
      | true =>
        obtain ⟨g, hg⟩ := Option.ne_none_iff_exists'.1 (hgap rfl)
        rw [Rpw.retire_gap hufifo hg]
        rfl
    obtain ⟨-, -, -, -, hputDue, hgetDue⟩ := retire_keeps gap u.rpw
    set v := u.recordWritten rec.w0 gap put with hv
    obtain ⟨hvmpt, hvcue, hvmem, hvsus⟩ := recordWritten_frame rec.w0 gap put u
    have hfree : v.mayWrite = true ∧ v.writeInHand = false ↔ free := by
      have hhand : v.writeInHand = s.mpt.rpw.isSome := by
        simp only [State.writeInHand, hv, hvmpt]
        simp [hu, serveWrite, freePort, Mpt.serviceIs]
      rw [State.mayWrite_iff, hv, hvcue, hvsus, ← hv, hhand]
      simp [free, hu, serveWrite, freePort, and_assoc]
    have hcounts : put < s.rpw.len ∨ left.length < 8 →
        v.rpw.withheld = (u.rpw.retire gap).withheld ∧ v.rpw.gapPending = (u.rpw.retire gap).gapPending := by
      intro h
      rcases Nat.lt_or_ge put s.rpw.len with hlt | hge
      · rw [hv, recordWritten_below (s := u) hlt]
        exact ⟨rfl, rfl⟩
      · have h8 : left.length < 8 := h.elim (fun h => absurd h (Nat.not_lt.2 hge)) id
        rw [hv, recordWritten_above (s := u) hge]
        exact (Rpw.produce_room (by rw [← hretire] at h8; exact h8)).2
    refine ⟨rpwNext v, ?_, ?_⟩
    · rw [exec_reportWriteComplete hservice, reportWritten_eq]
    have hmptOf : (rpwNext v).mpt = { s.mpt with service := none, rpw := (rpwNext v).mpt.rpw } := by
      have h := rpwNext_mpt v
      rw [hvmpt] at h
      exact h
    have hvrpw : v.mpt.rpw = s.mpt.rpw := by rw [hvmpt]; rfl
    simp only [rpwNext_frame, rpwNext_rpw_frame, htrig]
    refine ⟨hvmem, hmptOf, hvcue, hmatch, fun hlt => ?_, fun hge => ?_, fun hg hroom => ?_, fun g hgap' hg hroom => ?_⟩
    · have hr := recordWritten_below (s := u) (w0 := rec.w0) (gap := gap) hlt
      refine ⟨by rw [hv, hr], by rw [hv, hr]; exact hretire, fun hp hgd => ?_, ?_⟩
      · rw [rpwNext_of_nothing_due (by rw [hv, hr]; exact hputDue.trans hp) (by rw [hv, hr]; exact hgetDue.trans hgd), hvrpw]
      · show ((if s.rpw.trigger = some put then _ else _) = _) ↔ _
        by_cases ht : s.rpw.trigger = some put
        · simp only [ht, if_true, true_or]
        · simp only [ht, if_false, false_or]
          exact Iff.rfl
    · have hr := recordWritten_above (s := u) (w0 := rec.w0) (gap := gap) hge
      have hput0 : v.rpw.put = 0 := by rw [hv, hr]; simp
      have hdue : v.rpw.putDue = true := by rw [hv, hr]; simp
      refine ⟨hput0, fun hf => ?_, fun hf => ?_, fun h8 => ?_, fun ht => ?_⟩
      · obtain ⟨hmay, hhand⟩ := hfree.2 hf
        rw [rpwNext_put hdue hmay hhand, hvcue, hput0]
        exact ⟨rfl, rfl⟩
      · rw [rpwNext_of_busy (mt hfree.1 hf), hvrpw]
        exact ⟨rfl, hdue⟩
      · rw [hv, hr]
        rw [← hretire] at h8 ⊢
        exact (Rpw.produce_room (r := { u.rpw.retire gap with put := 0, putDue := true }) h8).1
      · exact if_neg ht
    · subst hg
      rw [(hcounts (hroom.imp_right id)).1, Rpw.retire_record hufifo]
      rfl
    · subst hgap'
      obtain ⟨hw, hp⟩ := hcounts (hroom.imp_right (fun h => by simp [left]; omega))
      rw [hw, hp, Rpw.retire_gap hufifo hg]
      refine ⟨fun h1 h2 => ?_, fun h => ?_⟩
      · exact ⟨if_pos ⟨h1, h2⟩, if_pos ⟨h1, h2⟩⟩
      · have hn : ¬((∀ y ∈ rest, y.gap = none) ∧ u.rpw.openGap = 0) := by
          rintro ⟨h1, h2⟩
          rcases h with ⟨y, hy, hne⟩ | h
          · exact hne (h1 y hy)
          · exact h h2
        exact ⟨if_neg hn, if_neg hn⟩
  · intro bus a forRecord discard asked cut s hs read get trig
    set u : State := { freePort s with mem := read.1 } with hu
    obtain ⟨hmpt, hcue, hmem, hget, htrig, hbad, hput, hfull, hsame, hwarn⟩ := getTaken_spec forRecord get trig u
    refine ⟨rpwNext (u.getTaken forRecord get trig), exec_getReadComplete hs, ?_⟩
    obtain ⟨hf', hput', -, -, -, hget', htrig', hbad', hfull', hservice⟩ := rpwNext_rpw_frame (u.getTaken forRecord get trig)
    have hmem' : (rpwNext (u.getTaken forRecord get trig)).mem = _ := (rpwNext_frame _).2.2.2.2.2.2.2.2.1
    have hcue' : (rpwNext (u.getTaken forRecord get trig)).cue = _ := (rpwNext_frame _).2.2.2.2.1
    rw [hf', hput', hget', htrig', hbad', hfull', hservice, hmem', hcue', hmpt, hcue, hmem, hget, htrig, hbad, hput, hfull]
    refine ⟨rfl, rfl, rfl, rfl, rfl, rfl, rfl, ⟨fun h => if_pos h, fun h hr => ?_, fun h hr => ?_⟩, hsame, hwarn⟩
    · rw [if_neg (by exact h), if_pos hr]
    · rw [if_neg (by exact h), if_neg (by rw [hr]; exact Bool.false_ne_true)]
      rfl

end Sys2Proof.Machine
end

section
/-!
PROOFS. The scan: the fill read, the fetch of cue records and the idle cue, with O40.
-/

namespace Sys2Proof.Machine

/-! ## The words of a run of reads -/

/-- A run of reads begins with the words of any run it continues. -/
theorem Memory.readRun_take (m : Memory) (as bs : List Nat) (bus : BusTraffic) :
    (m.readRun (as ++ bs) bus).2.take as.length = (m.readRun as bus).2 := by
  induction as generalizing m bus with
  | nil => rfl
  | cons a t ih => simp only [List.cons_append, Memory.readRun, List.length_cons, List.take_succ_cons, ih]

theorem Memory.readRun_getD (m : Memory) {as bs : List Nat} (bus : BusTraffic) {k : Nat} (hk : k < as.length) :
    (m.readRun (as ++ bs) bus).2.getD k 0 = (m.readRun as bus).2.getD k 0 := by
  rw [← Memory.readRun_take m as bs bus]
  simp [List.getD_eq_getElem?_getD, List.getElem?_take, hk]

/-- The record at the head of a run of reads is the same however far the run goes on. -/
theorem CueWords.ofList_readRun (m : Memory) {as : List Nat} (bs : List Nat) (bus : BusTraffic) (h : as.length = 8) :
    CueWords.ofList (m.readRun (as ++ bs) bus).2 = CueWords.ofList (m.readRun as bus).2 := by
  simp only [CueWords.ofList]
  simp only [Memory.readRun_getD m (as := as) (bs := bs) bus (show 0 < as.length by omega),
    Memory.readRun_getD m (as := as) (bs := bs) bus (show 1 < as.length by omega),
    Memory.readRun_getD m (as := as) (bs := bs) bus (show 2 < as.length by omega),
    Memory.readRun_getD m (as := as) (bs := bs) bus (show 3 < as.length by omega),
    Memory.readRun_getD m (as := as) (bs := bs) bus (show 4 < as.length by omega),
    Memory.readRun_getD m (as := as) (bs := bs) bus (show 5 < as.length by omega),
    Memory.readRun_getD m (as := as) (bs := bs) bus (show 6 < as.length by omega),
    Memory.readRun_getD m (as := as) (bs := bs) bus (show 7 < as.length by omega)]

theorem recordAddrs_length (a : Nat) : (recordAddrs a).length = 8 := by simp [recordAddrs]

/-! ## What a record says (R105, R107) -/

theorem cueKind_settings (n : Nat) : cueKind n = some .settings ↔ n = 13 := by
  constructor
  · intro h
    have hsmall : ∀ k < 18, cueKind k = some .settings → k = 13 := by decide
    rcases Nat.lt_or_ge n 18 with hn | hn
    · exact hsmall n hn h
    · simp [cueKind, hn] at h
  · rintro rfl
    rfl

theorem CueWords.isSettings_iff (c : CueWords) : c.isSettings = true ↔ c.kind = 13 := by
  simp only [CueWords.isSettings, decide_eq_true_eq, cueKind_settings]

/-- R105: a record is future when its target lies ahead of the scan's stamp. -/
theorem CueWords.standing_none (c : CueWords) (n : Stamp) (d : Bool) : c.standing n d = none ↔
    c.immediate = false ∧ 0 < (c.target - n).toNat ∧ (c.target - n).toNat < 2 ^ 23 := by
  unfold CueWords.standing
  generalize (c.target - n).toNat = ahead
  simp only
  split
  · next h => simp [h]
  · next h =>
    rw [Bool.not_eq_true] at h
    split
    · next h0 => simp [h0]
    · next h0 =>
      split
      · next h1 => simp only [h, true_and, true_iff]; omega
      · next h1 => split <;> simp only [reduceCtorEq, false_iff] <;> omega

theorem CueWords.standing_some (c : CueWords) (n : Stamp) (d : Bool)
    (h : c.immediate = true ∨ (c.target - n).toNat = 0 ∨ 2 ^ 23 ≤ (c.target - n).toNat) :
    c.standing n d = some (if c.immediate then .immediate
      else if (c.target - n).toNat = 0 ∨ d = true then .due else .past) := by
  unfold CueWords.standing
  cases hi : c.immediate with
  | true => rfl
  | false =>
    have hd : (c.target - n).toNat = 0 ∨ 2 ^ 23 ≤ (c.target - n).toNat := by simpa [hi] using h
    by_cases h0 : (c.target - n).toNat = 0
    · simp [h0]
    · have h1 : ¬(c.target - n).toNat < 2 ^ 23 := by omega
      simp only [Bool.false_eq_true, if_false, if_neg h0, if_neg h1, h0, false_or]
      split <;> rfl

theorem Image.ofWords_drop (ws : List Word) : Image.ofWords (ws.drop 8) =
    (let w : Nat → Word := fun k => ws.getD (8 + k) 0
     { qBase := (w 0).toNat + 65536 * ((w 1).toNat % 256), qLen := (w 2).toNat
       rBase := (w 3).toNat + 65536 * ((w 4).toNat % 256), rLen := (w 5).toNat
       get := (w 6).toNat, repTrigger := (w 7).toNat
       matchList := #v[⟨w 8, w 9⟩, ⟨w 10, w 11⟩, ⟨w 12, w 13⟩, ⟨w 14, w 15⟩]
       settings := (ws.drop 24).take 13 }) := by
  have hget (j k : Nat) : (ws.drop j).getD k 0 = ws.getD (j + k) 0 := by
    simp [List.getD_eq_getElem?_getD]
  simp only [Image.ofWords, matchListOf, baseOf, bits_low, hget, List.drop_drop, Nat.reduceAdd]

/-! ## The fetch (R106) -/

theorem fetchNext_stops {n : Stamp} {next : Nat} {s : State} (h : next = s.cue.lastFill ∨ 16 ≤ s.cue.due.length) :
    fetchNext n next s = { s with cue := { s.cue with scan := none } } := if_pos h

theorem fetchNext_goesOn {n : Stamp} {next : Nat} {s : State} (h : ¬(next = s.cue.lastFill ∨ 16 ≤ s.cue.due.length)) :
    fetchNext n next s = { s with
      cue := { s.cue with scan := some { n := n, next := next } }
      mpt := { s.mpt with cueQ :=
        s.mpt.cueQ ++ [.cueRecord (s.cue.qBase + 16 * next) next n s.cue.link.toNat] } } := if_neg h

/-- The copy the engine keeps of a record it has read, its settings image with it (R107). -/
def Copy.ofWords (index : Option Nat) (st : Standing) (ws : List Word) : Copy :=
  { index := index, standing := st, words := CueWords.ofList ws
    image := if (CueWords.ofList ws).kind = 13 then some (Image.ofWords (ws.drop 8)) else none }

/-- A fetched record that is not future joins the due list, and the fetch goes on behind it (R105, R106). -/
theorem recordRead_joins {n : Stamp} {index : Nat} {ws : List Word} {s : State} {st : Standing}
    (hst : (CueWords.ofList ws).standing n (s.cue.deferral = some index) = some st) (h16 : s.cue.due.length < 16) :
    recordRead n index ws s = fetchNext n ((index + 1) % s.cue.qLen) 
      { s with cue := { s.cue with due := s.cue.due ++ [Copy.ofWords (some index) st ws] } } := by
  simp only [recordRead, hst, if_neg (Nat.not_le.2 h16), CueWords.isSettings_iff, Copy.ofWords]

/-- A future record, and one for which the due list has no room, ends the fetch. -/
theorem recordRead_stops {n : Stamp} {index : Nat} {ws : List Word} {s : State}
    (h : (CueWords.ofList ws).standing n (s.cue.deferral = some index) = none ∨ 16 ≤ s.cue.due.length) :
    recordRead n index ws s = { s with cue := { s.cue with scan := none } } := by
  unfold recordRead
  simp only
  split
  · rfl
  · next st hst =>
    rcases h with h | h
    · rw [h] at hst
      exact absurd hst (by simp)
    · exact if_pos h

/-! ## The three reads of a scan -/

theorem exec_fillReadComplete {bus : BusTraffic} {l : Nat} {n : Stamp} {discard : Bool} {asked : Tick} {cut : Option Nat}
    {s : State} (h : s.mpt.service = some ⟨.fillRead l n, discard, asked, cut⟩) :
    exec (.fillReadComplete bus) s = .next (
      if discard then { freePort s with mem := (s.mem.readRun [l + 6, l + 10] bus).1 }
      else fillRead n ((s.mem.readRun [l + 6, l + 10] bus).2.getD 0 0).toNat
        ((s.mem.readRun [l + 6, l + 10] bus).2.getD 1 0).toNat
        { freePort s with mem := (s.mem.readRun [l + 6, l + 10] bus).1 }) := by
  simp only [exec, execFillReadComplete, h]
  rfl

/-- What the fill read leaves before it is compared with take (R85). -/
def State.fillTaken (fill trig : Nat) (s : State) : State :=
  let s1 := { s with cue := { s.cue with
    lastFill := if fill < s.cue.qLen then fill else s.cue.take
    trigger := if trig < s.cue.qLen then some trig else none
    badFill := decide (s.cue.qLen ≤ fill) } }
  if decide (s.cue.qLen ≤ fill) && !s.cue.badFill then produce (repWarnIndex 0 2 fill s.cue.qLen) s1 else s1

theorem fillTaken_spec (fill trig : Nat) (s : State) :
    let t := s.fillTaken fill trig
    t.mem = s.mem ∧ t.mpt = s.mpt ∧ t.cue = { s.cue with
      lastFill := if fill < s.cue.qLen then fill else s.cue.take
      trigger := if trig < s.cue.qLen then some trig else none
      badFill := decide (s.cue.qLen ≤ fill) } ∧ t.rpw.latched = s.rpw.latched ∧
    (fill < s.cue.qLen ∨ s.cue.badFill = true → t.rpw.fifo = s.rpw.fifo) ∧
    (s.cue.qLen ≤ fill → s.cue.badFill = false → s.rpw.fifo.length < 8 → ∃ g,
      t.rpw.fifo = s.rpw.fifo ++ [⟨(repWarnIndex 0 2 fill s.cue.qLen).stamped s.tgn.stamp, g⟩]) := by
  intro t
  by_cases hw : (decide (s.cue.qLen ≤ fill) && !s.cue.badFill) = true
  · have ht : t = produce (repWarnIndex 0 2 fill s.cue.qLen) _ := if_pos hw
    rw [Bool.and_eq_true, decide_eq_true_eq, Bool.not_eq_true'] at hw
    rw [ht]
    refine ⟨rfl, rfl, rfl, (Rpw.produce_frame _ _).2.2.2.2.2.2.2.2.2.2.2.2.2.1, fun h => ?_, fun _ _ h8 =>
      (Rpw.produce_room (r := s.rpw) h8).1⟩
    rcases h with h | h
    · omega
    · rw [h] at hw
      exact absurd hw.2 (by decide)
  · have ht : t = _ := if_neg hw
    rw [ht]
    refine ⟨rfl, rfl, rfl, rfl, fun _ => rfl, fun h hb => ?_⟩
    simp [h, hb] at hw

theorem fillRead_eq (n : Stamp) (fill trig : Nat) (s : State) : fillRead n fill trig s =
    (let u := s.fillTaken fill trig
     if u.cue.lastFill = u.cue.take then
       if u.cue.seenEmpty then { u with cue := { u.cue with scan := none } }
       else postCue (.idleCue u.cue.link.toNat)
         (latch .queueEmpty { u with cue := { u.cue with scan := none, seenEmpty := true } })
     else fetchNext n u.cue.take { u with cue := { u.cue with seenEmpty := false } }) := by
  have hif : (if decide (s.cue.qLen ≤ fill) = true then s.cue.take else fill) =
      if fill < s.cue.qLen then fill else s.cue.take := by
    rcases Nat.lt_or_ge fill s.cue.qLen with h | h
    · simp [h]
    · simp [h, Nat.not_lt.2 h]
  simp only [fillRead, hif, triggerOf]
  rfl

section
variable {bus : BusTraffic} {a index : Nat} {n : Stamp} {l : Nat} {discard : Bool} {asked : Tick} {cut : Option Nat}
  {s : State}

theorem exec_cueRecordRead_dropped (h : s.mpt.service = some ⟨.cueRecord a index n l, discard, asked, cut⟩)
    (hd : discard = true ∨ s.cue.scan = none) :
    exec (.cueRecordRead bus) s = .next (serveRead (.cueRecord a index n l) bus s).1 := by
  simp only [exec, execCueRecordRead, h]
  cases hs : s.cue.scan with
  | none => rfl
  | some sc => exact congrArg Host.Outcome.next (if_pos (hd.resolve_right (by rw [hs]; simp)))

theorem exec_cueRecordRead_kept {sc : ScanRecord} (h : s.mpt.service = some ⟨.cueRecord a index n l, false, asked, cut⟩)
    (hs : s.cue.scan = some sc) :
    exec (.cueRecordRead bus) s = .next (recordRead sc.n index (serveRead (.cueRecord a index n l) bus s).2
      (serveRead (.cueRecord a index n l) bus s).1) := by
  simp only [exec, execCueRecordRead, h, hs, Bool.false_eq_true, if_false]

end

theorem exec_idleCueRead {bus : BusTraffic} {l : Nat} {discard : Bool} {asked : Tick}
    {cut : Option Nat} {s : State} (h : s.mpt.service = some ⟨.idleCue l, discard, asked, cut⟩) :
    exec (.idleCueRead bus) s = .next (
      let r := serveRead (.idleCue l) bus s
      if discard then r.1 else idleRead r.2 r.1) := by
  simp only [exec, execIdleCueRead, h]

/-- R106: how far the read of a cue record goes. -/
theorem runAddrs_cueRecord (a index : Nat) (n : Stamp) (l : Nat) (bus : BusTraffic) (s : State) :
    s.runAddrs (.cueRecord a index n l) bus =
      recordAddrs a ++ if (CueWords.ofList (s.mem.readRun (recordAddrs a) bus).2).kind = 13 ∧
        ¬((CueWords.ofList (s.mem.readRun (recordAddrs a) bus).2).immediate = false ∧
          0 < ((CueWords.ofList (s.mem.readRun (recordAddrs a) bus).2).target - n).toNat ∧
          ((CueWords.ofList (s.mem.readRun (recordAddrs a) bus).2).target - n).toNat < 2 ^ 23)
      then linkAddrs l imageWords else [] := by
  simp only [State.runAddrs, State.recordGoesOn, Bool.and_eq_true, CueWords.isSettings_iff, Option.isSome_iff_ne_none,
    ne_eq, CueWords.standing_none]
  split
  · rfl
  · exact (List.append_nil _).symm

/-- R108: how far the read of the idle cue goes. -/
theorem runAddrs_idleCue (l : Nat) (bus : BusTraffic) (s : State) : s.runAddrs (.idleCue l) bus =
    if (CueWords.ofList (s.mem.readRun (recordAddrs (l + 12)) bus).2).kind = 0 then [l + 12]
    else recordAddrs (l + 12) ++
      if (CueWords.ofList (s.mem.readRun (recordAddrs (l + 12)) bus).2).kind = 13 then linkAddrs l imageWords else [] := by
  show (if (CueWords.ofList (s.mem.readRun (recordAddrs (l + 12)) bus).2).kind = 0 then [l + 12] else
    if (CueWords.ofList (s.mem.readRun (recordAddrs (l + 12)) bus).2).isSettings then
      recordAddrs (l + 12) ++ linkAddrs l imageWords else recordAddrs (l + 12)) = _
  simp only [CueWords.isSettings_iff]
  split
  · rfl
  · split
    · rfl
    · exact (List.append_nil _).symm

/-- The addresses of the settings image, written out (12.3, log 12). -/
theorem linkAddrs_imageWords (l : Nat) : linkAddrs l imageWords =
    ([0, 1, 2, 14, 15, 16, 18, 19] ++ (List.range 28).map (fun k => 20 + k)).map (fun k => l + 2 * k) := rfl

theorem idleRead_eq (ws : List Word) (s : State) : idleRead ws s =
    if (CueWords.ofList ws).kind = 0 then s
    else { s with cue := { s.cue with idle := some (Copy.ofWords none .immediate ws) } } := by
  simp only [idleRead, CueWords.isSettings_iff, Copy.ofWords]

/-- The kind of an idle cue stands in its first word. -/
theorem kind_ofList (ws : List Word) : (CueWords.ofList ws).kind = (ws.getD 0 0).toNat % 256 := bits_low _

/-- Settles O40: the fill read, the read of a cue record and that of the idle cue. -/
theorem scansFillTheDueList : Obligations.ScansFillTheDueList := by
  constructor
  · intro bus l n discard asked cut s hs read fill trig
    have hex := exec_fillReadComplete (bus := bus) hs
    cases discard with
    | true => exact ⟨_, hex, rfl, rfl, rfl, rfl, fun _ => rfl, fun h => absurd h (by decide)⟩
    | false =>
      rw [if_neg Bool.false_ne_true, fillRead_eq] at hex
      obtain ⟨hmem, hmpt, hcue, hlatched, hsame, hwarn⟩ := fillTaken_spec fill trig { freePort s with mem := read.1 }
      set u := State.fillTaken fill trig { freePort s with mem := read.1 } with hu
      have hseen : u.cue.seenEmpty = s.cue.seenEmpty := by rw [hcue]; rfl
      have htake : u.cue.take = s.cue.take := by rw [hcue]; rfl
      have hlast : u.cue.lastFill = (if fill < s.cue.qLen then fill else s.cue.take) := by rw [hcue]; rfl
      have hdue : u.cue.due = s.cue.due := by rw [hcue]; rfl
      have hengine : u.cue.engine = s.cue.engine := by rw [hcue]; rfl
      have htrigger : u.cue.trigger = (if trig < s.cue.qLen then some trig else none) := by rw [hcue]; rfl
      have hbad : u.cue.badFill = decide (s.cue.qLen ≤ fill) := by rw [hcue]; rfl
      have hqueue : u.mpt.cueQ = s.mpt.cueQ := by rw [hmpt]; rfl
      have hserve : u.mpt.service = none := by rw [hmpt]; rfl
      have hrecord : u.cue.qBase = s.cue.qBase ∧ u.cue.link = s.cue.link := by rw [hcue]; exact ⟨rfl, rfl⟩
      by_cases hempty : u.cue.lastFill = u.cue.take
      · have hempty' : (if fill < s.cue.qLen then fill else s.cue.take) = s.cue.take := by rw [← hlast, ← htake]; exact hempty
        simp only [if_pos hempty, hseen] at hex
        cases hs2 : s.cue.seenEmpty with
        | true =>
          simp only [hs2, if_true] at hex
          exact ⟨_, hex, hmem, hserve, htake, hengine, fun h => absurd h (by decide), fun _ =>
            ⟨htrigger, hlast, hbad, hsame, hwarn,
              fun _ => ⟨rfl, rfl, fun _ => ⟨hqueue, hlatched⟩, fun h => absurd h (by decide)⟩,
              fun h => absurd (hempty.trans htake) h⟩⟩
        | false =>
          simp only [hs2, Bool.false_eq_true, if_false] at hex
          exact ⟨_, hex, hmem, hserve, htake, hengine, fun h => absurd h (by decide), fun _ =>
            ⟨htrigger, hlast, hbad, hsame, hwarn,
              fun _ => ⟨rfl, rfl, fun h => absurd h (by decide), fun _ =>
                ⟨by rw [← hqueue, ← hrecord.2]; rfl, congrArg (· ||| Cause.queueEmpty.bit) hlatched⟩⟩,
              fun h => absurd (hempty.trans htake) h⟩⟩
      · have hne : u.cue.lastFill ≠ s.cue.take := fun h => hempty (h.trans htake.symm)
        rw [if_neg hempty] at hex
        by_cases h16 : s.cue.due.length < 16
        · have hgo : ¬(u.cue.take = u.cue.lastFill ∨ 16 ≤ u.cue.due.length) := by
            rw [hdue]
            exact fun h => h.elim (fun h => hempty h.symm) (Nat.not_le.2 h16)
          rw [fetchNext_goesOn (s := { u with cue := { u.cue with seenEmpty := false } }) hgo] at hex
          refine ⟨_, hex, hmem, hserve, htake, hengine, fun h => absurd h (by decide), fun _ =>
            ⟨htrigger, hlast, hbad, hsame, hwarn, fun h => absurd h hne, fun _ _ => ⟨rfl, ?_, ?_, hlatched⟩⟩⟩
          · show some (ScanRecord.mk n u.cue.take) = _
            rw [htake]
          · show u.mpt.cueQ ++ [.cueRecord (u.cue.qBase + 16 * u.cue.take) u.cue.take n u.cue.link.toNat] = _
            rw [hqueue, hrecord.1, hrecord.2, htake]
        · have hstop : u.cue.take = u.cue.lastFill ∨ 16 ≤ u.cue.due.length := by
            rw [hdue]
            exact .inr (Nat.not_lt.1 h16)
          rw [fetchNext_stops (s := { u with cue := { u.cue with seenEmpty := false } }) hstop] at hex
          exact ⟨_, hex, hmem, hserve, htake, hengine, fun h => absurd h (by decide), fun _ =>
            ⟨htrigger, hlast, hbad, hsame, hwarn, fun h => absurd h hne, fun _ h => absurd h h16⟩⟩
  · intro bus s imageAddrs image
    constructor
    · intro a index n l discard asked cut hs c future read
      have hserve : serveRead (.cueRecord a index n l) bus s = ({ freePort s with mem := read.1 }, read.2) := by
        simp only [serveRead, runAddrs_cueRecord]
        rfl
      have hc : CueWords.ofList read.2 = c := CueWords.ofList_readRun _ _ _ (recordAddrs_length a)
      by_cases hdrop : discard = true ∨ s.cue.scan = none
      · refine ⟨_, exec_cueRecordRead_dropped hs hdrop, ?_⟩
        rw [hserve]
        refine ⟨rfl, fun _ => rfl, fun sc hd hsc => ?_⟩
        rcases hdrop with h | h
        · rw [hd] at h
          exact absurd h (by decide)
        · rw [h] at hsc
          exact absurd hsc (by simp)
      · obtain ⟨hd, hsc⟩ := not_or.1 hdrop
        obtain ⟨sc, hsc⟩ := Option.ne_none_iff_exists'.1 hsc
        obtain rfl : discard = false := Bool.not_eq_true _ ▸ hd
        have hex := exec_cueRecordRead_kept (bus := bus) hs hsc
        rw [hserve] at hex
        set v : State := { freePort s with mem := read.1 } with hv
        by_cases hjoin : (c.immediate = true ∨ (c.target - sc.n).toNat = 0 ∨ 2 ^ 23 ≤ (c.target - sc.n).toNat) ∧
            s.cue.due.length < 16
        · obtain ⟨hst, h16⟩ := hjoin
          have hst' := CueWords.standing_some c sc.n (decide (s.cue.deferral = some index)) hst
          rw [← hc] at hst'
          rw [recordRead_joins (s := v) hst' h16] at hex
          generalize hcp : Copy.ofWords (some index) _ read.2 = copy at hex
          have hcopy : ∃ x : Copy, s.cue.due ++ [copy] = s.cue.due ++ [x] ∧ x.index = some index ∧ x.words = c ∧
              x.standing = (if c.immediate then .immediate
                else if (c.target - sc.n).toNat = 0 ∨ s.cue.deferral = some index then .due else .past) ∧
              x.image = if c.kind = 13 then some (image read.2) else none := by
            rw [← hcp]
            refine ⟨_, rfl, rfl, hc, ?_, ?_⟩
            · simp only [Copy.ofWords, hc, decide_eq_true_eq]
            · simp only [Copy.ofWords, hc, Image.ofWords_drop]
              rfl
          have hlen : (s.cue.due ++ [copy]).length = s.cue.due.length + 1 := List.length_append
          have hnotFuture : ¬(c.immediate = false ∧ 0 < (c.target - sc.n).toNat ∧ (c.target - sc.n).toNat < 2 ^ 23) := by
            rintro ⟨hi, h0, h1⟩
            rcases hst with h | h | h
            · rw [hi] at h
              exact absurd h (by decide)
            · omega
            · omega
          by_cases hend : (index + 1) % s.cue.qLen = s.cue.lastFill ∨ 15 ≤ s.cue.due.length
          · rw [fetchNext_stops (by exact hend.imp_right fun h => (Nat.succ_le_succ h).trans hlen.ge)] at hex
            refine ⟨_, hex, rfl, fun h => absurd h hdrop, fun sc' _ hsc' => ?_⟩
            obtain rfl : sc = sc' := Option.some.inj (hsc.symm.trans hsc')
            exact ⟨rfl, rfl, rfl, fun h1 h2 h3 => absurd ⟨h1, h2, h3⟩ hnotFuture,
              fun h => absurd h (Nat.not_le.2 h16), fun _ _ => ⟨hcopy, fun _ => ⟨rfl, rfl⟩,
                fun h1 h2 => absurd hend (not_or.2 ⟨h1, Nat.not_le.2 h2⟩)⟩⟩
          · rw [fetchNext_goesOn (by exact fun h => hend (h.imp_right fun h => Nat.le_of_succ_le_succ (h.trans hlen.le)))] at hex
            refine ⟨_, hex, rfl, fun h => absurd h hdrop, fun sc' _ hsc' => ?_⟩
            obtain rfl : sc = sc' := Option.some.inj (hsc.symm.trans hsc')
            exact ⟨rfl, rfl, rfl, fun h1 h2 h3 => absurd ⟨h1, h2, h3⟩ hnotFuture,
              fun h => absurd h (Nat.not_le.2 h16), fun _ _ => ⟨hcopy, fun h => absurd h hend, fun _ _ => ⟨rfl, rfl⟩⟩⟩
        · have hstops : (CueWords.ofList read.2).standing sc.n (v.cue.deferral = some index) = none ∨
              16 ≤ v.cue.due.length := by
            rw [CueWords.standing_none, hc]
            by_cases h16 : s.cue.due.length < 16
            · have hn : ¬(c.immediate = true ∨ (c.target - sc.n).toNat = 0 ∨ 2 ^ 23 ≤ (c.target - sc.n).toNat) :=
                fun h => hjoin ⟨h, h16⟩
              obtain ⟨h1, h2, h3⟩ := by simpa only [not_or] using hn
              exact .inl ⟨Bool.not_eq_true _ ▸ h1, Nat.pos_of_ne_zero h2, Nat.not_le.1 h3⟩
            · exact .inr (Nat.not_lt.1 h16)
          rw [recordRead_stops (s := v) hstops] at hex
          refine ⟨_, hex, rfl, fun h => absurd h hdrop, fun sc' _ hsc' => ?_⟩
          obtain rfl : sc = sc' := Option.some.inj (hsc.symm.trans hsc')
          exact ⟨rfl, rfl, rfl, fun _ _ _ => ⟨rfl, rfl, rfl⟩, fun _ => ⟨rfl, rfl, rfl⟩,
            fun h1 h2 => absurd ⟨h1, h2⟩ hjoin⟩
    · intro l discard asked cut hs first kind read
      have hex := exec_idleCueRead (bus := bus) hs
      have hkind : (CueWords.ofList (s.mem.readRun (recordAddrs (l + 12)) bus).2).kind = kind :=
        (kind_ofList _).trans (congrArg (fun w : Word => w.toNat % 256)
          (Memory.readRun_getD s.mem (as := [l + 12]) (bs := (recordAddrs (l + 12)).tail) bus Nat.one_pos))
      have hserve : serveRead (.idleCue l) bus s = ({ freePort s with mem := read.1 }, read.2) := by
        simp only [serveRead, runAddrs_idleCue, hkind]
        rfl
      rw [hserve] at hex
      cases discard with
      | true =>
        exact ⟨_, hex, rfl, fun _ => rfl, fun h => absurd h (by decide)⟩
      | false =>
        rw [if_neg Bool.false_ne_true, idleRead_eq] at hex
        have hread : (CueWords.ofList read.2).kind = kind := by
          rw [kind_ofList]
          by_cases h0 : kind = 0
          · simp only [read, if_pos h0]
            rfl
          · simp only [read, if_neg h0]
            rw [← kind_ofList, CueWords.ofList_readRun _ _ _ (recordAddrs_length _), hkind]
        rw [hread] at hex
        by_cases h0 : kind = 0
        · rw [if_pos h0] at hex
          exact ⟨_, hex, rfl, fun _ => rfl, fun _ h => absurd h0 h⟩
        · rw [if_neg h0] at hex
          refine ⟨_, hex, rfl, fun h => absurd h (by simp [h0]), fun _ _ => ?_⟩
          simp only [Copy.ofWords, hread, Image.ofWords_drop]
          rfl

end Sys2Proof.Machine
end

section
/-!
PROOFS. What can be read off the state: the level of a dot (O54), the operand fields of a cue (O48) and the pins
and port words (O57).
-/

namespace Sys2Proof.Machine

/-! ## The shallowest window (R142 to R144) -/

/-- The search stops at the first depth that keys. -/
theorem Stack.search_eq {st : Stack} {line x : Nat} {i : Fin 8} {w : Window} (hi : st.keyedAt line x i = some w)
    (hj : ∀ j < i, st.keyedAt line x j = none) : st.search line x = some w := by
  have hsplit : ∀ i : Fin 8, depths = depths.take i ++ i :: depths.drop (i + 1) := by decide
  have hbefore : ∀ i : Fin 8, ∀ j ∈ depths.take i, j < i := by decide
  exact List.findSome?_eq_some_iff.2 ⟨_, i, _, hsplit i, hi, fun j hm => hj j (hbefore i j hm)⟩

theorem Stack.search_none {st : Stack} {line x : Nat} (h : ∀ i, st.keyedAt line x i = none) :
    st.search line x = none := List.findSome?_eq_none_iff.2 fun i _ => h i

theorem Stack.keyedAt_none {st : Stack} {line x : Nat} {i : Fin 8} (h : ∀ w, st.slot i = .live w →
    w.fade = 0 ∨ line < w.top ∨ w.bottom < line ∨ x < w.left ∨ w.right < x) : st.keyedAt line x i = none := by
  unfold Stack.keyedAt
  split
  · next w hw =>
    refine if_neg fun hk => ?_
    simp only [Window.covers, Bool.and_eq_true, decide_eq_true_eq] at hk
    have := h w hw
    omega
  · rfl

theorem Stack.keyedAt_some {st : Stack} {line x : Nat} {i : Fin 8} {w : Window} (hw : st.slot i = .live w)
    (hfade : 0 < w.fade) (hline : w.top ≤ line ∧ line ≤ w.bottom) (hdot : w.left ≤ x ∧ x ≤ w.right) :
    st.keyedAt line x i = some w := by
  simp [Stack.keyedAt, hw, Window.covers, hfade, hline, hdot]

theorem keyScale_full (f : Nat) : keyScale 64 f = f := by
  simp only [keyScale]
  omega

theorem keyScale_le_value {k f : Nat} (hf : f ≤ 64) : keyScale k f ≤ k := by
  have := Nat.mul_le_mul_left k hf
  simp only [keyScale]
  omega

theorem keyScale_comm (k f : Nat) : keyScale k f = keyScale f k := by simp only [keyScale, Nat.mul_comm]

/-- Settles O54. -/
theorem shallowestWindowKeys : Obligations.ShallowestWindowKeys := by
  refine ⟨fun st banks line x index => ⟨fun h => ?_, fun i w hw hfade h1 h2 h3 h4 hj => ?_⟩, fun k f hk hf => ?_⟩
  · simp only [Stack.level, Stack.search_none fun i => Stack.keyedAt_none (h i)]
  · have hs := Stack.search_eq (Stack.keyedAt_some hw hfade ⟨h1, h2⟩ ⟨h3, h4⟩)
      fun j hlt => Stack.keyedAt_none fun v hv => hj j v hlt hv
    simp only [Stack.level, hs]
    refine ⟨fun hm => ?_, fun hm => ?_, fun hm => ?_⟩ <;> simp only [Window.level, hm]
    · exact keyScale_full _
    · rfl
  · refine ⟨keyScale_le_value hf, ?_, ?_, keyScale_full f⟩
    · rw [keyScale_comm]
      exact keyScale_le_value hk
    · rw [keyScale_comm]
      exact keyScale_full k

/-! ## Operand fields (12.5, R180) -/

theorem badField_of_fields {c : CueWords} {k : CueKind} {fs : List (Nat × Nat × Bool)} (hk : cueKind c.kind = some k)
    (hf : c.fields k = fs.map fun f => opField f.1 f.2.1 f.2.2) :
    c.badField = (fs.find? (fun f => !f.2.2)).map (fun f => (f.1, BitVec.ofNat 16 f.2.1)) := by
  simp only [CueWords.badField, hk, hf, List.find?_map, Option.map_map]
  rfl

/-- The same with one more field behind them. -/
theorem badField_of_fields_append {c : CueWords} {k : CueKind} {fs : List (Nat × Nat × Bool)} {o : OperandField}
    (hk : cueKind c.kind = some k) (hf : c.fields k = (fs.map fun f => opField f.1 f.2.1 f.2.2) ++ [o]) :
    c.badField = ((fs.find? (fun f => !f.2.2)).map (fun f => (f.1, BitVec.ofNat 16 f.2.1))).or
      (if o.ok then none else some (o.word, o.value)) := by
  simp only [CueWords.badField, hk, hf, List.find?_append, List.find?_map]
  cases hfind : fs.find? ((fun f : OperandField => !f.ok) ∘ fun f => opField f.1 f.2.1 f.2.2) with
  | none =>
    have h : fs.find? (fun f => !f.2.2) = none := hfind
    cases hok : o.ok <;> simp [h, hok]
  | some x =>
    have h : fs.find? (fun f => !f.2.2) = some x := hfind
    rw [h]
    rfl

theorem badField_bad_kind {c : CueWords} (h : 17 < c.kind) : c.badField = some (0, BitVec.ofNat 16 c.kind) := by
  have hk : cueKind c.kind = none := by simp [cueKind]; omega
  simp only [CueWords.badField, hk]
  rfl

section
variable (w : Word)

theorem bits_depth : bits w 0 4 = w.toNat % 16 := by simp [bits]

theorem bits_code : bits w 8 4 = w.toNat / 256 % 16 := by simp [bits]

theorem bits_mode : bits w 9 2 = w.toNat / 512 % 4 := by simp [bits]

theorem bits_fade : bits w 9 7 = w.toNat / 512 := by
  have := w.isLt
  simp only [bits]
  omega

theorem bits_count : bits w 4 12 = w.toNat / 16 := by
  have := w.isLt
  simp only [bits]
  omega

end

/-- Settles O48: each kind's fields, read off `CueWords.fields`. -/
theorem operandsHaveEncodings : Obligations.OperandsHaveEncodings := by
  intro c kind depth first
  have hkind : c.kind = kind := bits_low c.w0
  have hdepth : c.depth = depth := bits_depth c.w4
  have hfields {n : Nat} {k : CueKind} (fs : List (Nat × Nat × Bool)) (hn : kind = n) (hk : cueKind n = some k)
      (hf : c.fields k = fs.map fun f => opField f.1 f.2.1 f.2.2) : c.badField = first fs :=
    badField_of_fields (by rw [hkind, hn]; exact hk) hf
  refine ⟨fun h => ?_, fun h => ?_, fun h => hfields _ h rfl ?_, fun h => hfields _ h rfl ?_, fun h => ?_,
    fun h => hfields _ h rfl ?_, fun h => hfields _ h rfl ?_, fun h => ?_, fun h => hfields _ h rfl ?_,
    fun h => hfields _ h rfl ?_, fun h => hfields _ h rfl ?_, fun h => hfields _ h rfl ?_, fun h => hfields _ h rfl ?_⟩
  · rw [badField_bad_kind (by rw [hkind]; exact h), hkind]
  · rcases h with h | h | h | h | h <;> exact hfields [] h rfl rfl
  · simp only [CueWords.fields, bits_mode, bits_fade, List.map]
  · simp only [CueWords.fields, hdepth, List.map]
  · rcases h with h | h | h <;> refine hfields _ h rfl ?_ <;> simp only [CueWords.fields, hdepth, List.map]
  · have hok (code v : Nat) : (!(decide (code = 4 ∧ 2 < v) || decide (code = 5 ∧ 3 < v))) =
        decide ((code = 4 → v ≤ 2) ∧ (code = 5 → v ≤ 3)) := by
      rw [Bool.eq_iff_iff]
      simp
    simp only [CueWords.fields, hdepth, bits_code, List.map, hok]
  · simp only [CueWords.fields, hdepth, List.map]
  · intro count source early badSource
    have hcount : c.loadCount = count := bits_count c.w4
    have hsource : c.loadSource = source := congrArg (fun n => c.w6.toNat + 65536 * n) (bits_low c.w7)
    have hbank : c.loadBank = depth := bits_depth c.w4
    have hb := badField_of_fields_append (c := c) (k := .keyload)
      (fs := [(4, depth, decide (depth ≤ 3)), (4, count, decide (count ≤ 1024)), (5, c.w5.toNat, decide (c.w5.toNat ≤ 255))])
      (o := ⟨6, Config.wideSourceField c.w6 (c.w7.extractLsb' 0 8), !(decide (count ≠ 0 ∧ source % 2 = 1)
        || decide (count ≠ 0 ∧ 2 ^ 24 < source + 2 * sourceWords count))⟩)
      (by rw [hkind, h]; rfl) (by rw [← hbank, ← hcount, ← hsource]; rfl)
    have hbad : (decide (count ≠ 0 ∧ source % 2 = 1)
        || decide (count ≠ 0 ∧ 2 ^ 24 < source + 2 * sourceWords count)) = true ↔ badSource := by
      rw [Bool.or_eq_true, decide_eq_true_eq, decide_eq_true_eq, ← and_or_left]
      exact Iff.rfl
    refine ⟨fun he => ?_, fun he hg => ?_, fun he hg => ?_⟩
    · rw [hb]
      exact Option.or_of_isSome (Option.isSome_iff_ne_none.2 he)
    · rw [hb]
      refine (congrArg (Option.or · _) he).trans ?_
      simp only [Option.none_or, Bool.eq_false_iff.2 (mt hbad.1 hg), Bool.not_false, if_true]
    · refine ⟨Config.wideSourceField c.w6 (c.w7.extractLsb' 0 8), ?_⟩
      rw [hb]
      refine (congrArg (Option.or · _) he).trans ?_
      simp only [Option.none_or, hbad.2 hg, Bool.not_true, Bool.false_eq_true, if_false]
  · simp only [CueWords.fields, List.map]
  · simp only [CueWords.fields, List.map]
  · simp only [CueWords.fields, List.map]
  · simp only [CueWords.fields, List.map]
  · simp only [CueWords.fields, List.map]

/-! ## The pins and the port words (R68 to R76, R126, R146, R178) -/

/-- A bit of a count shown as a word. -/
theorem wordOfNat_bit {n k : Nat} {b : Bool} (hk : k < 16) (h : n / 2 ^ k % 2 = bitOf b) :
    (wordOfNat n).getLsbD k = b := by
  simp only [wordOfNat, BitVec.getLsbD_ofNat, hk, decide_true, Bool.true_and, Nat.testBit_eq_decide_div_mod_eq, h]
  cases b <;> rfl

theorem bitOf_le (b : Bool) : bitOf b ≤ 1 := by cases b <;> decide

/-- The code of the engine in the state summary (12.2). -/
theorem Cue.code_eq (c : Cue) : Cue.code c =
    match c.engine with
    | .stopped => 0
    | .running => if c.startup then 1 else 2
    | .waiting => 3
    | .held => 4
    | .halted => match c.haltReason with
      | some .link => 6 | some .memory => 7
      | some (.fault f) => (match f with
        | .badCue => 8 | .late => 9 | .prot => 10 | .stackOver => 11 | .stackUnder => 12
        | .range => 13 | .busy => 14)
      | _ => 5 := by
  unfold Cue.code
  cases c.engine with
  | halted =>
    cases c.haltReason with
    | none => rfl
    | some r =>
      cases r with
      | fault f => cases f <;> rfl
      | _ => rfl
  | _ => rfl

theorem Cue.code_lt (c : Cue) : Cue.code c < 16 := by
  rw [Cue.code_eq]
  (repeat' split) <;> omega

theorem Lll.locked_iff (l : Lll) : l.locked = true ↔ l.loop = .track ∨ l.loop = .coast := by
  simp [Lll.locked]

theorem State.lockPin_iff (s : State) : s.lockPin = true ↔
    (s.lll.loop = .track ∨ s.lll.loop = .coast) ∧ (s.cue.settings.lockMode = .strict → s.fal.field = .lock) := by
  cases h : s.cue.settings.lockMode <;> simp [State.lockPin, h, State.strictLock, Lll.locked_iff]

theorem Stack.keying_iff (st : Stack) : st.keying = true ↔ ∃ i w, st.slot i = .live w ∧ 0 < w.fade := by
  have hair (x : Slot) : x.onAir = true ↔ ∃ w, x = .live w ∧ 0 < w.fade := by cases x <;> simp [Slot.onAir]
  simp only [Stack.keying, List.any_eq_true, Vector.mem_toList_iff, Vector.mem_iff_getElem, hair]
  constructor
  · rintro ⟨_, ⟨k, hk, rfl⟩, w, hw, hfade⟩
    exact ⟨_, w, (Stack.slots_eq_slot st ⟨k, hk⟩).symm.trans hw, hfade⟩
  · rintro ⟨i, w, hw, hfade⟩
    have hslot := Stack.slots_eq_slot st (i + st.top)
    rw [add_sub_cancel_right] at hslot
    exact ⟨_, ⟨(i + st.top).val, (i + st.top).isLt, rfl⟩, w, hslot.trans hw, hfade⟩

theorem State.outPin_iff (s : State) (mode : OutMode) (level : Bool) : s.outPin mode level = true ↔
    (mode = .cue ∧ level = true) ∨ (mode = .lock ∧ s.lockPin = true) ∨ (mode = .keying ∧ s.wsk.stack.keying = true) ∨
      (mode = .field ∧ s.tgn.line = 1 ∧ s.tgn.parity = .one) := by
  cases mode <;> simp [State.outPin]

theorem State.blank_iff (s : State) : s.blank = false ↔
    (let ticks := (s.rfe.tick - s.tgn.lineStart).toNat
     let first : Nat := if s.tgn.lineStd = .s625 then 378 else 340
     let blanked : Nat := if s.tgn.lineStd = .s625 then 23 else 20
     first ≤ ticks ∧ ticks < first + 1800 ∧ blanked < s.tgn.line) := by
  cases h : s.tgn.lineStd <;>
    simp [State.blank, State.inActiveSpan, State.lineTicks, h, Standard.activeStart, Standard.blankedLines, and_assoc]

/-- Settles O57. -/
theorem pinsFollowTheState : Obligations.PinsFollowTheState := by
  intro s ticks first blanked locked lock keying out
  have hlock : s.lockPin = true ↔ lock := State.lockPin_iff s
  have hkeying : s.wsk.stack.keying = true ↔ keying := Stack.keying_iff _
  have hout (mode : OutMode) (level : Bool) : s.outPin mode level = true ↔ out mode level := by
    rw [State.outPin_iff, hlock, hkeying]
  refine ⟨?_, ?_, ?_, State.blank_iff s, fun h => ?_, fun h => ?_, hlock, hkeying, hout _ _, hout _ _, ?_, fun h8 => ?_⟩
  · exact decide_eq_true_iff
  · exact decide_eq_true_iff
  · exact decide_eq_true_iff
  · exact if_neg (mt decide_eq_true_iff.1 (Int.not_le.2 h))
  · exact if_pos (decide_eq_true_iff.2 h)
  · have hd := bitOf_le s.tgn.strapDone
    have hs := s.tgn.straps.standard.isLt
    have ht := s.tgn.straps.test.isLt
    have hword : s.identity.toNat = 1 + 16 * s.tgn.straps.standard.toNat + 64 * s.tgn.straps.test.toNat
        + 32768 * bitOf s.tgn.strapDone := by
      simp only [State.identity, wordOfNat, BitVec.toNat_ofNat]
      omega
    refine ⟨by omega, ?_, ?_, ?_, wordOfNat_bit (by omega) (by omega)⟩
    · apply BitVec.eq_of_toNat_eq
      rw [BitVec.extractLsb'_toNat, hword, Nat.shiftRight_eq_div_pow]
      omega
    · apply BitVec.eq_of_toNat_eq
      rw [BitVec.extractLsb'_toNat, hword, Nat.shiftRight_eq_div_pow]
      omega
    · apply BitVec.eq_of_toNat_eq
      rw [BitVec.extractLsb'_toNat, hword, Nat.shiftRight_eq_div_pow]
      show _ = 0
      omega
  · have hcode := Cue.code_lt s.cue
    have h4 := bitOf_le s.cue.linkValid
    have h5 := bitOf_le s.cue.wait.isSome
    have h6 := bitOf_le s.cue.deferral.isSome
    have h7 := bitOf_le s.rpw.enabled
    have h8' := bitOf_le s.irq
    have h9 := bitOf_le s.rpw.gapPending
    have h10 := bitOf_le s.rpw.suspended
    have h11 := bitOf_le s.rpw.fullWait
    have hword : s.summary.toNat = Cue.code s.cue + 16 * bitOf s.cue.linkValid + 32 * bitOf s.cue.wait.isSome
        + 64 * bitOf s.cue.deferral.isSome + 128 * bitOf s.rpw.enabled + 256 * bitOf s.irq
        + 512 * bitOf s.rpw.gapPending + 1024 * bitOf s.rpw.suspended + 2048 * bitOf s.rpw.fullWait
        + 4096 * s.rpw.fifo.length := by
      simp only [State.summary, wordOfNat, BitVec.toNat_ofNat]
      omega
    refine ⟨?_, wordOfNat_bit (by omega) (by omega), wordOfNat_bit (by omega) (by omega),
      wordOfNat_bit (by omega) (by omega), wordOfNat_bit (by omega) (by omega), wordOfNat_bit (by omega) (by omega),
      wordOfNat_bit (by omega) (by omega), wordOfNat_bit (by omega) (by omega), wordOfNat_bit (by omega) (by omega),
      by omega⟩
    have hmod : s.summary.toNat % 16 = Cue.code s.cue := by omega
    exact hmod.trans (Cue.code_eq s.cue)

end Sys2Proof.Machine
end

section
/-!
PROOFS. Dot edges: when one is issued, the level of its dot and what it drives, with O35.
-/

namespace Sys2Proof.Machine

/-! ## The level of a dot (R141, R148, R150) -/

theorem barsLevel_spec {dots x : Nat} (h : x < dots) :
    ([0, 9, 18, 27, 37, 46, 55, 64] : List Nat)[8 * x / dots]? = some (barsLevel dots x) := by
  have hband : 8 * x / dots < 8 := (Nat.div_lt_iff_lt_mul (by omega)).2 (by omega)
  have hget : ∀ k < 8, ([0, 9, 18, 27, 37, 46, 55, 64] : List Nat)[k]? = some (bandLevel k) := by decide
  exact hget _ hband

section
variable {s : State} {d : Drive} {index : Byte}

theorem dotLevel_stack (hm : s.cue.settings.testMode = .normal ∨ s.cue.settings.testMode = .internalLoop) :
    s.dotLevel d index = if d.stamp = s.tgn.stamp then s.wsk.stack.level s.kbl.banks d.line d.dot index
      else match s.wsk.prev with
        | some st => st.level s.kbl.endedBanks d.line d.dot index
        | none => 0 := by
  rcases hm with h | h <;> simp only [State.dotLevel, h] <;> rfl

/-! ## The drives (R71, R72) -/

/-- The drive whose level an edge puts on KEY: the newest one due at it. -/
def newestDue (drives : List Drive) (n : BitVec 16) : Option Drive :=
  (drives.filter (fun d => decide (d.due = n))).getLast?

theorem newestDue_append {pre post : List Drive} {n : BitVec 16} (hd : d.due = n) (hpost : ∀ e ∈ post, e.due ≠ n) :
    newestDue (pre ++ d :: post) n = some d := by
  have hnil : post.filter (fun d => decide (d.due = n)) = [] :=
    List.filter_eq_nil_iff.2 fun e he => by simpa using hpost e he
  simp only [newestDue, List.filter_append, List.filter_cons, hd, decide_true, if_true, hnil, List.getLast?_append,
    List.getLast?_singleton, Option.some_or]

theorem newestDue_none {drives : List Drive} {n : BitVec 16} (h : ∀ e ∈ drives, e.due ≠ n) : newestDue drives n = none := by
  have hnil : drives.filter (fun d => decide (d.due = n)) = [] :=
    List.filter_eq_nil_iff.2 fun e he => by simpa using h e he
  simp only [newestDue, hnil, List.getLast?_nil]

theorem due_eq_iff (n : BitVec 16) (delay : Nat) : n + BitVec.ofNat 16 delay = n ↔ delay % 65536 = 0 := by
  rw [← BitVec.toNat_inj, BitVec.toNat_add, BitVec.toNat_ofNat]
  have := n.isLt
  omega

end

theorem dotEdge_eq (index : Byte) (s : State) : dotEdge index s = { s with
    rfe := { s.rfe with tick := (dotEdge index s).rfe.tick }, tgn := (dotEdge index s).tgn
    wsk := (dotEdge index s).wsk, kbl := (dotEdge index s).kbl } := by
  unfold dotEdge dropEnded
  dsimp only
  split <;> rfl

theorem dropEnded_keeps (s : State) :
    (dropEnded s).wsk.stack = s.wsk.stack ∧ (dropEnded s).kbl.banks = s.kbl.banks := by
  unfold dropEnded
  split <;> exact ⟨rfl, rfl⟩

/-- Settles O35. -/
theorem dotEdgesDriveKey : Obligations.DotEdgesDriveKey := by
  intro index s first at_ lineEnd
  have hfirst : s.tgn.lineStd.activeStart = first := by
    simp only [first]
    cases s.tgn.lineStd <;> rfl
  have hat (x : Nat) : s.dotInstant x = at_ x := by
    simp only [State.dotInstant, hfirst]
    rfl
  refine ⟨?_, ?_, fun hi => ?_, fun hi => ?_⟩
  · rw [State.dotIssued, decide_eq_true_iff, hat]
    exact Iff.rfl
  · intro d mode
    refine ⟨fun h => ?_, fun h hd => ?_, fun h => ⟨fun hs => ?_, fun ended hs hp => ?_⟩⟩
    · simp only [State.dotLevel, show s.cue.settings.testMode = .bypass from h]
    · simp only [State.dotLevel, show s.cue.settings.testMode = .bars from h]
      exact barsLevel_spec hd
    · rw [dotLevel_stack h, if_pos hs]
    · rw [dotLevel_stack h, if_neg hs, hp]
      refine ⟨fun hr => ?_, fun r hr => ?_⟩ <;> simp only [Kbl.endedBanks, hr]
  · have hx : s.tgn.nextDot < s.tgn.lineD := by
      rw [State.dotIssued, decide_eq_true_iff] at hi
      exact hi.1
    set n := s.tgn.edgeCount + 1 with hn
    set new : Drive := ⟨s.tgn.stamp, s.tgn.line, s.tgn.nextDot, s.tgn.lineD, n + BitVec.ofNat 16 s.tgn.delay⟩ with hnew
    have hkey : (dotEdge index s).tgn.key =
        ((newestDue (s.tgn.drives ++ [new]) n).map (fun d => s.dotLevel d index)).getD 0 := by
      simp only [dotEdge, dropEnded_frame]
      rfl
    refine ⟨dotEdge index s, ?_, ⟨hx, ?_, ?_, fun d => ?_, fun h0 => ?_, fun h0 => ⟨fun pre d post hsplit hd hpost => ?_,
      fun hnone => ?_⟩, ?_, ?_⟩, ?_, ?_, ?_, ?_, ?_, ?_⟩
    · rw [exec_dotEdge, if_pos hi]
    · simp only [dotEdge, dropEnded_frame]; rfl
    · simp only [dotEdge, dropEnded_frame]
    · have hdrives : (dotEdge index s).tgn.drives = (s.tgn.drives ++ [new]).filter (fun d => decide (d.due ≠ n)) := by
        simp only [dotEdge, dropEnded_frame]
        rfl
      rw [hdrives, List.mem_filter, List.mem_append, List.mem_singleton, decide_eq_true_iff]
    · rw [hkey, newestDue_append (pre := s.tgn.drives) (post := []) (d := new) ((due_eq_iff n _).2 h0) (by simp)]
      rfl
    · have hnewDue : new.due ≠ n := mt (due_eq_iff n _).1 h0
      rw [hkey, hsplit, List.append_assoc, List.cons_append, newestDue_append hd]
      · rfl
      · intro e he
        rcases List.mem_append.1 he with he | he
        · exact hpost e he
        · rw [List.mem_singleton.1 he]
          exact hnewDue
    · rw [hkey, newestDue_none]
      · rfl
      · intro e he
        rcases List.mem_append.1 he with he | he
        · exact hnone e he
        · rw [List.mem_singleton.1 he]
          exact mt (due_eq_iff n _).1 h0
    · simp only [dotEdge, dropEnded_frame]
      exact congrArg Pu.tick (hat _)
    · simp only [dotEdge, dropEnded_frame, hfirst]
    · simp only [dotEdge, dropEnded_frame]; rfl
    · simp only [dotEdge, dropEnded_frame]; rfl
    · simp only [dotEdge, dropEnded_frame]; rfl
    · exact (dropEnded_keeps _).1
    · exact (dropEnded_keeps _).2
    · exact dotEdge_eq index s
  · rw [exec_dotEdge, hi]
    rfl

end Sys2Proof.Machine
end

section
/-!
PROOFS. Arrivals at the line lock loop: the offset from the expected edge, captures, and the snap onto the grid
through an edge; with O24 and O25.
-/

namespace Sys2Proof.Machine

/-! ## The offset (R26) -/

theorem nearer_eq (x y : Int) : nearer x y = x ∨ nearer x y = y := by
  unfold nearer
  split
  · exact .inr rfl
  · exact .inl rfl

theorem nearer_le (x y : Int) : (nearer x y).natAbs ≤ x.natAbs ∧ (nearer x y).natAbs ≤ y.natAbs := by
  unfold nearer
  split <;> omega

section
variable {l : Lll} {st : Settings} {d : Standard} {line : Nat} {edge : Pu} {tick : Tick}

theorem arrive_locked (h : l.loop = .track ∨ l.loop = .coast) :
    l.arrive st d line edge tick = (l.measure st d line edge, []) := by
  rcases h with h | h <;> simp only [Lll.arrive, h]

theorem measure_skipped (h : l.settling = true ∨ st.inCoast line = true) : l.measure st d line edge = l :=
  if_pos (by simpa using h)

theorem measure_eq (hs : l.settling = false) (hc : st.inCoast line = false) : l.measure st d line edge =
    if (l.offset edge).natAbs ≤ 1024 then
      { l with accepted := match l.accepted with | none => some (l.offset edge) | some e => some e }
    else if (l.offset edge).natAbs ≤ d.quarter then
      { l with lineStray := match l.lineStray with | none => some (l.offset edge) | some e => some e }
    else l := by
  have hfirst (o : Option Int) (v : Int) : (if o.isSome then o else some v) =
      match o with | none => some v | some e => some e := by cases o <;> rfl
  simp only [Lll.measure, hs, hc, Bool.or_self, Bool.false_eq_true, if_false, hfirst]
  rfl

end

/-- Settles O25: the three branches of `measure`, and the nearest of the three offsets. -/
theorem arrivalsAreMeasured : Obligations.ArrivalsAreMeasured := by
  intro l st d line edge tick hlock o e diff r
  have hr : r = (l.measure st d line edge, []) := arrive_locked hlock
  have hexp : l.expected = e := rfl
  have h0 : signedDiff edge l.expected = diff 0 := by
    have hz : BitVec.ofInt 36 0 = 0#36 := rfl
    simp only [diff, signedDiff, hexp, Int.zero_mul, hz, BitVec.add_zero]
  have h1 : signedDiff edge (l.expected + BitVec.ofNat 36 (l.p / 16)) = diff 1 := by
    simp only [diff, signedDiff, hexp, Int.one_mul, BitVec.ofInt_natCast]
  have hm1 : signedDiff edge (l.expected - BitVec.ofNat 36 (l.p / 16)) = diff (-1) := by
    simp only [diff, signedDiff, hexp, Int.neg_mul, Int.one_mul, BitVec.ofInt_neg, BitVec.ofInt_natCast, BitVec.sub_eq_add_neg]
  have ho : o = nearer (nearer (diff 0) (diff (-1))) (diff 1) := by
    rw [← h0, ← h1, ← hm1]
    rfl
  obtain ⟨hle, hle1⟩ := nearer_le (nearer (diff 0) (diff (-1))) (diff 1)
  obtain ⟨hle0, hlem⟩ := nearer_le (diff 0) (diff (-1))
  refine ⟨by rw [hr], fun h => by rw [hr]; exact measure_skipped h, fun hs hc => ?_, ?_, fun k hk => ?_⟩
  · rw [hr]
    simp only [measure_eq hs hc]
    refine ⟨fun h => if_pos h, fun h1 h2 => ?_, fun h1 h2 => ?_⟩
    · exact (if_neg (Nat.not_le.2 h1)).trans (if_pos h2)
    · exact (if_neg (Nat.not_le.2 h1)).trans (if_neg (Nat.not_le.2 h2))
  · rcases nearer_eq (nearer (diff 0) (diff (-1))) (diff 1) with h | h
    · rcases nearer_eq (diff 0) (diff (-1)) with h' | h'
      · exact .inl (by rw [ho, h, h'])
      · exact .inr (.inl (by rw [ho, h, h']))
    · exact .inr (.inr (by rw [ho, h]))
  · rw [ho]
    rcases hk with rfl | rfl | rfl
    · exact hle.trans hle0
    · exact hle1
    · exact hle.trans hlem

/-! ## Captures (R36 to R39) -/

theorem clampN_eq (x lo hi : Nat) (h : lo ≤ hi) : clampN x lo hi = max lo (min x hi) := by
  unfold clampN
  split
  · omega
  · split <;> omega

theorem pMin_le_pMax (d : Standard) : d.pMin ≤ d.pMax := by cases d <;> decide

section
variable {l : Lll} {st : Settings} {d : Standard} {line : Nat} {edge : Pu} {tick : Tick} {r : CaptureRecord}

theorem arrive_capture (hl : l.loop = .capture) (hr : l.capture = some r) :
    l.arrive st d line edge tick = l.captureArrival st d r edge tick := by
  simp only [Lll.arrive, hl, hr]

/-- R37: an edge at a spacing outside the pull range starts the search again. -/
theorem captureArrival_outside (h : (edge - r.lastEdge).toNat < d.pMin / 16 ∨ d.pMax / 16 < (edge - r.lastEdge).toNat) :
    l.captureArrival st d r edge tick =
      ({ l with capture := some { r with lastEdge := edge, lastTick := tick, first := none } }, []) :=
  if_pos (by simpa only [Bool.or_eq_true, decide_eq_true_eq] using h)

theorem captureArrival_inside
    (h : ¬((edge - r.lastEdge).toNat < d.pMin / 16 ∨ d.pMax / 16 < (edge - r.lastEdge).toNat)) :
    l.captureArrival st d r edge tick = match r.first with
      | none => ({ l with capture := some { r with
          lastEdge := edge, lastTick := tick, first := some (edge - r.lastEdge).toNat } }, [])
      | some d1 =>
        if (((edge - r.lastEdge).toNat : Int) - d1).natAbs ≤ st.captureTol then
          l.snap d r (edge - r.lastEdge).toNat edge tick
        else ({ l with capture := some { r with
          lastEdge := edge, lastTick := tick, first := some (edge - r.lastEdge).toNat } }, []) := by
  refine (if_neg (by simpa only [Bool.or_eq_true, decide_eq_true_eq] using h)).trans ?_
  cases r.first <;> rfl

end

/-! ## The grid through an edge (R38) -/

/-- The tick of a position on the line of qu, which wraps with it. -/
theorem tick_ofInt (x : Int) : BitVec.ofNat 32 ((BitVec.ofInt 40 x).toNat / 256) = BitVec.ofInt 32 (x / 256) := by
  apply BitVec.eq_of_toNat_eq
  rw [BitVec.toNat_ofNat, BitVec.toNat_ofInt, BitVec.toNat_ofInt]
  omega

/-- A position's tick lies later than a tick near it exactly when the position lies at or past the next tick. -/
theorem later_iff {x t : Int} (hnear : (x - 256 * t).natAbs < 2 ^ 32) :
    0 < (BitVec.ofNat 32 ((BitVec.ofInt 40 x).toNat / 256) - BitVec.ofInt 32 t).toInt ↔ 256 * (t + 1) ≤ x := by
  rw [tick_ofInt, BitVec.sub_eq_add_neg, ← BitVec.ofInt_neg, ← BitVec.ofInt_add, BitVec.toInt_ofInt, Int.bmod_eq_of_le (by omega) (by omega)]
  omega

/-- R38: the instant of the snap is the first of the grid through the edge that lies later than the arrival. -/
theorem snapInstant_spec {l : Lll} {p : Nat} {edge : Pu} {tick : Tick} (hp : 0 < p) (hp' : p ≤ 2 ^ 20)
    (hH : l.hEff.natAbs ≤ 2 ^ 15) (htick : (tick - BitVec.ofNat 32 (edge.toNat / 16)).toNat ≤ 255) :
    let grid : Nat → Qu := fun j =>
      BitVec.ofInt 40 (16 * ((edge.toNat : Int) - l.hEff)) + BitVec.ofNat 40 (j * p)
    let later : Qu → Prop := fun q => 0 < (BitVec.ofNat 32 (q.toNat / 256) - tick).toInt
    ∃ j, l.snapInstant p edge tick = grid j ∧ later (grid j) ∧ ∀ i < j, ¬later (grid i) := by
  intro grid later
  set E : Nat := edge.toNat with hE
  set X : Int := 16 * ((E : Int) - l.hEff) with hX
  set T : Int := (E : Int) / 16 + (tick - BitVec.ofNat 32 (E / 16)).toNat with hT
  have htickT : tick = BitVec.ofInt 32 T := by
    apply BitVec.eq_of_toNat_eq
    rw [BitVec.toNat_ofInt, hT, BitVec.toNat_sub, BitVec.toNat_ofNat]
    have := tick.isLt
    omega
  have hgrid (j : Nat) : grid j = BitVec.ofInt 40 (X + (j * p : Nat)) := by
    rw [BitVec.ofInt_add, BitVec.ofInt_natCast]
  have hlater {j : Nat} (hj : j * p ≤ 2 ^ 30) : later (grid j) ↔ 256 * (T + 1) ≤ X + (j * p : Nat) := by
    rw [← later_iff (by omega), ← htickT, ← hgrid]
  have hlate : (BitVec.ofNat 40 (256 * (tick.toNat + 1)) - BitVec.ofInt 40 X).toInt = 256 * (T + 1) - X := by
    have hbase : BitVec.ofNat 40 (256 * (tick.toNat + 1)) = BitVec.ofInt 40 (256 * (T + 1)) := by
      apply BitVec.eq_of_toNat_eq
      rw [BitVec.toNat_ofInt, BitVec.toNat_ofNat, htickT, BitVec.toNat_ofInt]
      omega
    rw [hbase, BitVec.sub_eq_add_neg, ← BitVec.ofInt_neg, ← BitVec.ofInt_add, BitVec.toInt_ofInt,
      Int.bmod_eq_of_le (by omega) (by omega)]
    rfl
  have hsnap : l.snapInstant p edge tick = if 256 * (T + 1) - X ≤ 0 then BitVec.ofInt 40 X
      else BitVec.ofInt 40 X + BitVec.ofNat 40 ((((256 * (T + 1) - X).toNat + p - 1) / p) * p) := by
    rw [← hlate]
    rfl
  by_cases hL : 256 * (T + 1) - X ≤ 0
  · refine ⟨0, ?_, (hlater (by omega)).2 (by omega), fun i hi => absurd hi (Nat.not_lt_zero i)⟩
    rw [hsnap, if_pos hL, hgrid, Nat.zero_mul]
    simp
  · set L : Nat := (256 * (T + 1) - X).toNat with hLn
    have hcast : (L : Int) = 256 * (T + 1) - X := by omega
    have hmod := Nat.div_add_mod (L + p - 1) p
    have hlt := Nat.mod_lt (L + p - 1) hp
    set j := (L + p - 1) / p with hj
    rw [Nat.mul_comm] at hmod
    refine ⟨j, ?_, (hlater (by omega)).2 (by omega), fun i hi h => ?_⟩
    · rw [hsnap, if_neg hL]
    · have hip : i * p + p ≤ j * p := by
        rw [← Nat.succ_mul]
        exact Nat.mul_le_mul_right p hi
      have := (hlater (by omega)).1 h
      omega

/-! ## TST's arrivals (R191) -/

theorem tstWatch_tst (s : State) : (tstWatch s).tst = { s.tst with lockTime := (tstWatch s).tst.lockTime } := by
  unfold tstWatch
  split
  · split <;> rfl
  · rfl

theorem lineArrival_tst (e : Pu) (u : Tick) (s : State) :
    (lineArrival e u s).tst = { s.tst with lockTime := (lineArrival e u s).tst.lockTime } := by
  have h := tstWatch_tst (s.withLoop (s.lll.arrive s.cue.settings s.rfe.working s.tgn.line e u))
  have hloop : (s.withLoop (s.lll.arrive s.cue.settings s.rfe.working s.tgn.line e u)).tst = s.tst := by rw [withLoop_eq]
  rw [hloop] at h
  exact h

theorem exec_captureAbandon_none {s : State} (h : s.lll.loop ≠ .capture) : exec .captureAbandon s = .next s := by
  simp only [exec, execCaptureAbandon]
  cases hl : s.lll.loop with
  | capture => exact absurd hl h
  | _ => rfl

theorem exec_captureAbandon {s : State} {r : CaptureRecord} (hl : s.lll.loop = .capture) (hr : s.lll.capture = some r) :
    exec .captureAbandon s = .next { s.atTick (r.abandonAt s.rfe.working) with lll := s.lll.abandon r } := by
  simp only [exec, execCaptureAbandon, hl, hr]

theorem exec_tstLineArrival {s : State} {e : Pu} {rest : List Pu} (h : s.tst.lines = e :: rest) :
    exec .tstLineArrival s = .next (if s.tstLineDue e then lineArrival e (tstLineTick e)
      { s.atTick (tstLineTick e) with tst := { s.tst with lines := rest } } else s) := by
  simp only [exec, execTstLineArrival, h]

/-- Settles O24. -/
theorem capturesOpenSnapAndEnd : Obligations.CapturesOpenSnapAndEnd := by
  constructor
  · intro s
    refine ⟨fun r hl hr => ?_, fun h => exec_captureAbandon_none h, fun h => ?_, ?_⟩
    · refine ⟨_, exec_captureAbandon hl hr, ?_, rfl, rfl⟩
      simp only [Lll.abandon]
      cases r.origin <;> rfl
    · cases hlines : s.tst.lines with
      | nil => simp only [exec, execTstLineArrival, hlines]
      | cons e rest =>
        have hmode : s.tst.mode ≠ .internalLoop := h.resolve_right (by rw [hlines]; exact List.cons_ne_nil _ _)
        rw [exec_tstLineArrival hlines, if_neg (by simp [State.tstLineDue, hmode])]
    · intro edge rest hmode hlines tick r
      have hdue : s.tstLineDue edge = Tick.reached s.lineEndTick tick := by
        simp only [State.tstLineDue, hmode, decide_true, Bool.true_and]
        rfl
      rw [exec_tstLineArrival hlines, hdue]
      refine ⟨fun h => ?_, fun h => ?_⟩
      · rw [if_pos (by exact decide_eq_true_iff.2 h)]
        set u : State := { s.atTick tick with tst := { s.tst with lines := rest } } with hu
        have heq := lineArrival_eq edge tick u
        have htst := lineArrival_tst edge tick u
        refine ⟨lineArrival edge tick u, rfl, by rw [heq]; rfl, by rw [htst], by rw [htst], by rw [htst],
          by rw [heq]; rfl, fun hn => ?_, ?_⟩
        · rw [(lineArrival_closed (s := u) hn edge tick).2]
          exact produceAll_rpw_congr _ rfl rfl
        · rw [heq]
          rfl
      · rw [if_neg (by exact mt decide_eq_true_iff.1 (Int.not_le.2 h))]
  · intro l st d line edge tick a
    refine ⟨fun o ho => ?_, fun r hl hr => ?_⟩
    · rcases ho with ⟨hl, rfl⟩ | ⟨hl, rfl⟩ <;> simp only [a, Lll.arrive, hl, Lll.openCapture]
    · have ha : a = l.captureArrival st d r edge tick := arrive_capture hl hr
      intro sp
      refine ⟨fun h => ?_, fun h1 h2 => ?_⟩
      · rw [ha, captureArrival_outside h]
      · have hin := captureArrival_inside (l := l) (st := st) (d := d) (edge := edge) (tick := tick) (r := r)
          (by rintro (h | h) <;> simp only [sp] at h1 h2 <;> omega)
        rw [hin] at ha
        refine ⟨fun h => ?_, ?_⟩
        · rw [ha]
          rcases h with h | ⟨d1, h, hfar⟩
          · simp only [h]
            rfl
          · simp only [h]
            exact if_neg (Nat.not_le.2 hfar)
        · intro d1 hd1 htol p grid later
          have hp : clampN (16 * sp) d.pMin d.pMax = p := clampN_eq _ _ _ (pMin_le_pMax d)
          have hsnap : a = l.snap d r sp edge tick := by
            rw [ha]
            simp only [hd1]
            exact if_pos htol
          have hpos : 0 < p := by
            have : 0 < d.pMin := by cases d <;> decide
            omega
          have hmax : p ≤ 2 ^ 20 := by
            have : d.pMin ≤ 2 ^ 20 ∧ d.pMax ≤ 2 ^ 20 := by cases d <;> decide
            omega
          have hhalf : d.half ≤ 2 ^ 15 := by cases d <;> decide
          rw [hsnap]
          simp only [Lll.snap, hp]
          refine ⟨trivial, fun hH ht => snapInstant_spec hpos hmax (hH.trans hhalf) ht, ?_⟩
          cases r.origin <;> rfl

end Sys2Proof.Machine
end

section
/-!
PROOFS. The field aligner: misalignment, shifts and the lengths they give, with O29.
-/

namespace Sys2Proof.Machine

/-! ## Misalignment (R49) -/

/-- Wrapping changes a count of lines by whole frames and brings it into one frame up to `hi`. -/
theorem wrapTo_spec (x : Int) {f : Nat} {hi : Int} (hf : 0 < f) (h0 : 0 ≤ hi) (h1 : hi < f) :
    (∃ k : Int, x = wrapTo x f hi + k * f) ∧ hi - f < wrapTo x f hi ∧ wrapTo x f hi ≤ hi := by
  have hpos := Int.emod_nonneg x (show (f : Int) ≠ 0 by omega)
  have hlt := Int.emod_lt_of_pos x (show (0 : Int) < f by omega)
  have hdiv := Int.emod_add_mul_ediv x f
  simp only [wrapTo]
  split
  · refine ⟨⟨x / f + 1, ?_⟩, by omega, by omega⟩
    rw [Int.add_mul, Int.one_mul, Int.mul_comm]
    omega
  · refine ⟨⟨x / f, ?_⟩, by omega, by omega⟩
    rw [Int.mul_comm]
    omega

theorem misalignment_spec (c : FieldCtx) (q : Parity) (g : Int) :
    (∃ k : Int, (if q = c.parity then g + c.std.fieldLines c.parity - c.length else g - c.length) =
      c.misalignment q g + k * c.std.frame) ∧ 2 * (c.misalignment q g).natAbs < c.std.frame := by
  have hodd : 0 < c.std.frame ∧ c.std.frame % 2 = 1 := by cases c.std <;> decide
  obtain ⟨hk, hlo, hhi⟩ := wrapTo_spec (if q = c.parity then g + c.std.fieldLines c.parity - c.length else g - c.length)
    (f := c.std.frame) (hi := (((c.std.frame - 1) / 2 : Nat) : Int)) hodd.1 (by omega) (by omega)
  refine ⟨hk, ?_⟩
  show 2 * (wrapTo _ _ _).natAbs < _
  omega

/-! ## Applying a shift (R51) -/

/-- The lines of a shift that the field in progress takes. -/
def ShiftKind.move (k : ShiftKind) (s : Int) : Int :=
  match k with
  | .whole => s
  | .slip => if 0 < s then 1 else -1

theorem applyShift_eq (f : Fal) (c : FieldCtx) (s : Int) (k : ShiftKind) : f.applyShift c s k =
    if c.allows (c.length + k.move s) then
      { fal := { f with shift := s - k.move s, kind := k }, length := ((c.length : Int) + k.move s).toNat }
    else { fal := { f with shift := s, kind := k }, length := c.length } := by
  cases k <;> rfl

theorem applyShift_keeps (f : Fal) (c : FieldCtx) (s : Int) (k : ShiftKind) :
    (f.applyShift c s k).fal = { f with shift := (f.applyShift c s k).fal.shift, kind := k } ∧
    (f.applyShift c s k).reports = [] := by
  rw [applyShift_eq]
  split <;> exact ⟨rfl, rfl⟩

/-- R51: the field in progress takes its part of the shift where its length is allowed, else all of it is pending. -/
theorem applyShift_spec (f : Fal) (c : FieldCtx) (s : Int) (k : ShiftKind) :
    let a := f.applyShift c s k
    let taken : Int := c.length + k.move s
    (20 ≤ taken ∧ (c.line : Int) ≤ taken ∧ taken ≤ c.std.fieldLines c.parity + 16 →
      (a.length : Int) = taken ∧ a.fal.shift = s - k.move s) ∧
    (taken < 20 ∨ taken < (c.line : Int) ∨ c.std.fieldLines c.parity + 16 < taken →
      a.length = c.length ∧ a.fal.shift = s) := by
  intro a taken
  have ha : a = _ := applyShift_eq f c s k
  have hallows : c.allows taken = true ↔
      20 ≤ taken ∧ (c.line : Int) ≤ taken ∧ taken ≤ c.std.fieldLines c.parity + 16 := by
    rw [FieldCtx.allows, decide_eq_true_iff]
    omega
  refine ⟨fun h => ?_, fun h => ?_⟩
  · rw [ha, if_pos (hallows.2 h)]
    exact ⟨Int.toNat_of_nonneg (by omega), rfl⟩
  · rw [ha, if_neg (by rw [hallows]; omega)]
    exact ⟨rfl, rfl⟩

/-! ## A start (R52 to R54) -/

section
variable {f : Fal} {c : FieldCtx} {d : Int} {ag : Bool}

theorem handleAlign_zero : f.handleAlign c 0 ag =
    { fal := { f with shift := 0, field := .lock, miss := 0 }, length := c.length
      reports := [repFieldLocked { f with shift := 0, field := .lock, miss := 0 } c.parity c.vOffset] } := rfl

theorem handleAlign_pending (h0 : d ≠ 0) (hp : (d - f.shift) % c.std.frame = 0) :
    f.handleAlign c d ag = { fal := f, length := c.length } := by
  simp only [Fal.handleAlign, if_neg h0, if_pos hp]

theorem handleAlign_shift (h0 : d ≠ 0) (hp : (d - f.shift) % c.std.frame ≠ 0) : f.handleAlign c d ag =
    if ag = true ∧ c.vert = .slip then f.applyShift c d .slip
    else f.applyShift c (wrapTo d c.std.frame 16) .whole := by
  simp only [Fal.handleAlign, if_neg h0, if_neg hp, Bool.and_eq_true, decide_eq_true_eq]

theorem handleLock_zero : f.handleLock c 0 ag = { fal := { f with shift := 0 }, length := c.length } := rfl

theorem handleLock_pending (h0 : d ≠ 0) (hp : (d - f.shift) % c.std.frame = 0) :
    f.handleLock c d ag = { fal := f, length := c.length } := by
  simp only [Fal.handleLock, if_neg h0, if_pos hp]

theorem handleLock_adjust (h0 : d ≠ 0) (hp : (d - f.shift) % c.std.frame ≠ 0) (hag : ag = true) (h8 : d.natAbs ≤ 8) :
    f.handleLock c d ag = { f.applyShift c d .whole with
      reports := [repFieldAdjust (f.applyShift c d .whole).fal d
        (if (f.applyShift c d .whole).fal.shift = 0 then some (f.applyShift c d .whole).length else none)] } := by
  simp only [Fal.handleLock, if_neg h0, if_neg hp, hag, h8, decide_true, Bool.and_self, if_true]

theorem handleLock_realign (h0 : d ≠ 0) (hp : (d - f.shift) % c.std.frame ≠ 0) (hag : ag = false ∨ 8 < d.natAbs) :
    f.handleLock c d ag =
      { ({ f with field := .align, miss := 0 } : Fal).handleAlign c d ag with
        reports := repFieldRealign { f with field := .align, miss := 0 } (if ag then .distance else .parity) ::
          (({ f with field := .align, miss := 0 } : Fal).handleAlign c d ag).reports } := by
  have hno : ¬((ag && decide (d.natAbs ≤ 8)) = true) := by
    rcases hag with h | h
    · simp [h]
    · simp [Nat.not_le.2 h]
  simp only [Fal.handleLock, if_neg h0, if_neg hp, if_neg hno]

end

/-- The aligner with a start noted (R48). -/
def Fal.started (f : Fal) (c : FieldCtx) (r : BroadRecord) : Fal :=
  { f with lastParity := some r.parity, startSeen := true, lastDelta := c.misalignment r.parity (r.aligned c) }

section
variable {f : Fal} {c : FieldCtx} {r : BroadRecord}

theorem handleStart_lock (h : f.field = .lock) : f.handleStart c r =
    (f.started c r).handleLock c (c.misalignment r.parity (r.aligned c)) (c.agrees r.parity (r.aligned c)) := by
  unfold Fal.handleStart
  dsimp only
  split
  · next hf => exact absurd (h.symm.trans hf) (by decide)
  · next hf => exact absurd (h.symm.trans hf) (by decide)
  · rfl

theorem handleStart_search (h : f.field ≠ .lock) : ∃ m, f.handleStart c r =
    ({ f.started c r with field := .align, miss := m } : Fal).handleAlign c (c.misalignment r.parity (r.aligned c))
      (c.agrees r.parity (r.aligned c)) := by
  unfold Fal.handleStart
  dsimp only
  split
  · exact ⟨0, rfl⟩
  · next hf =>
    refine ⟨f.miss, ?_⟩
    have hs : ({ f.started c r with field := .align, miss := f.miss } : Fal) = f.started c r := by
      rw [← hf]
      rfl
    rw [hs]
    rfl
  · next hf => exact absurd hf h

end

/-- A start whose Δ is neither 0 nor pending makes a new shift: the aligner it is applied to, the shift and its kind
(R53, R54). -/
theorem handleStart_shift {f : Fal} {c : FieldCtx} {r : BroadRecord} {d : Int} {ag : Bool}
    (hd : c.misalignment r.parity (r.aligned c) = d) (hag : c.agrees r.parity (r.aligned c) = ag)
    (h0 : d ≠ 0) (hp : (d - f.shift) % c.std.frame ≠ 0) :
    let adjust : Prop := f.field = .lock ∧ ag = true ∧ d.natAbs ≤ 8
    let slip : Prop := ¬adjust ∧ ag = true ∧ c.vert = .slip
    let a := f.handleStart c r
    ∃ (f0 : Fal) (k : ShiftKind) (shift : Int),
      a.fal = (f0.applyShift c shift k).fal ∧ a.length = (f0.applyShift c shift k).length ∧
      f0 = { f.started c r with field := f0.field, miss := f0.miss } ∧ f0.shift = f.shift ∧
      f0.field = (if adjust then .lock else .align) ∧ (f.field = .lock → ¬adjust → f0.miss = 0) ∧
      (slip → k = .slip ∧ shift = d) ∧ (adjust → k = .whole ∧ shift = d) ∧
      (¬adjust → ¬slip → k = .whole ∧ shift = wrapTo d c.std.frame 16) ∧
      a.reports = (if f.field = .lock then
        (if adjust then [repFieldAdjust a.fal d (if a.fal.shift = 0 then some a.length else none)]
         else [repFieldRealign f0 (if ag then .distance else .parity)]) else []) := by
  intro adjust slip a
  have halign (f0 : Fal) (hadj : ¬adjust) (hf0 : f0.shift = f.shift) : ∃ (k : ShiftKind) (shift : Int),
      f0.handleAlign c d ag = f0.applyShift c shift k ∧ (slip → k = .slip ∧ shift = d) ∧
      (¬slip → k = .whole ∧ shift = wrapTo d c.std.frame 16) := by
    have h := handleAlign_shift (f := f0) (ag := ag) h0 (by rw [hf0]; exact hp)
    by_cases hs : ag = true ∧ c.vert = .slip
    · exact ⟨.slip, d, h.trans (if_pos hs), fun _ => ⟨rfl, rfl⟩, fun hn => absurd ⟨hadj, hs⟩ hn⟩
    · exact ⟨.whole, _, h.trans (if_neg hs), fun hy => absurd hy.2 hs, fun _ => ⟨rfl, rfl⟩⟩
  by_cases hlock : f.field = .lock
  · have ha : a = (f.started c r).handleLock c d ag := by
      rw [← hd, ← hag]
      exact handleStart_lock hlock
    by_cases hadj : adjust
    · obtain ⟨-, hag', h8⟩ : _ ∧ _ ∧ _ := id hadj
      rw [handleLock_adjust (f := f.started c r) h0 hp hag' h8] at ha
      refine ⟨f.started c r, .whole, d, by rw [ha], by rw [ha], rfl, rfl, ?_, fun _ hn => absurd hadj hn,
        fun hs => absurd hadj hs.1, fun _ => ⟨rfl, rfl⟩, fun hn => absurd hadj hn, ?_⟩
      · rw [if_pos hadj]
        exact hlock
      · rw [if_pos hlock, if_pos hadj, ha]
    · have hno : ag = false ∨ 8 < d.natAbs := by
        by_contra hc
        obtain ⟨hc1, hc2⟩ := not_or.1 hc
        exact hadj ⟨hlock, Bool.not_eq_false _ ▸ hc1, Nat.not_lt.1 hc2⟩
      rw [handleLock_realign (f := f.started c r) h0 hp hno] at ha
      obtain ⟨k, shift, hk, h1, h2⟩ := halign { f.started c r with field := .align, miss := 0 } hadj rfl
      rw [hk] at ha
      refine ⟨{ f.started c r with field := .align, miss := 0 }, k, shift, by rw [ha], by rw [ha], rfl, rfl,
        (if_neg hadj).symm, fun _ _ => rfl, h1,
        fun hy => absurd hy hadj, fun _ => h2, ?_⟩
      rw [if_pos hlock, if_neg hadj, ha, (applyShift_keeps _ _ _ _).2]
  · have hadj : ¬adjust := fun hy => hlock hy.1
    obtain ⟨m, hm⟩ := handleStart_search (c := c) (r := r) hlock
    rw [hd, hag] at hm
    obtain ⟨k, shift, hk, h1, h2⟩ := halign { f.started c r with field := .align, miss := m } hadj rfl
    rw [hk] at hm
    have ha : a = _ := hm
    refine ⟨{ f.started c r with field := .align, miss := m }, k, shift, by rw [ha], by rw [ha], rfl, rfl,
      (if_neg hadj).symm, fun hy => absurd hy hlock, h1,
      fun hy => absurd hy hadj, fun _ => h2, ?_⟩
    rw [if_neg hlock, ha, (applyShift_keeps _ _ _ _).2]

/-- A start at the end of the field: F_LOCK, with nothing pending (R53, R54). -/
theorem handleStart_zero {f : Fal} {c : FieldCtx} {r : BroadRecord} (h0 : c.misalignment r.parity (r.aligned c) = 0) :
    let a := f.handleStart c r
    a.fal = { f.started c r with shift := 0, field := .lock, miss := if f.field = .lock then f.miss else 0 } ∧
    a.length = c.length ∧
    a.reports = if f.field = .lock then [] else [repFieldLocked a.fal c.parity c.vOffset] := by
  intro a
  by_cases hlock : f.field = .lock
  · have ha : a = (f.started c r).handleLock c 0 (c.agrees r.parity (r.aligned c)) := by
      rw [← h0]
      exact handleStart_lock hlock
    rw [if_pos hlock, if_pos hlock, ha, handleLock_zero, ← hlock]
    exact ⟨rfl, rfl, rfl⟩
  · obtain ⟨m, hm⟩ := handleStart_search (c := c) (r := r) hlock
    rw [h0, handleAlign_zero] at hm
    have ha : a = _ := hm
    rw [if_neg hlock, if_neg hlock, ha]
    exact ⟨rfl, rfl, rfl⟩

/-- A start whose Δ is pending changes nothing (R53, R54). -/
theorem handleStart_pending {f : Fal} {c : FieldCtx} {r : BroadRecord} (h0 : c.misalignment r.parity (r.aligned c) ≠ 0)
    (hp : (c.misalignment r.parity (r.aligned c) - f.shift) % c.std.frame = 0) :
    let a := f.handleStart c r
    a.fal = { f.started c r with field := if f.field = .lock then .lock else .align, miss := a.fal.miss } ∧
    a.length = c.length ∧ a.reports = [] := by
  intro a
  by_cases hlock : f.field = .lock
  · have ha : a = _ := handleStart_lock hlock
    rw [handleLock_pending (f := f.started c r) h0 hp] at ha
    rw [if_pos hlock, ha, ← hlock]
    exact ⟨rfl, rfl, rfl⟩
  · obtain ⟨m, hm⟩ := handleStart_search (c := c) (r := r) hlock
    rw [handleAlign_pending (f := { f.started c r with field := .align, miss := m }) h0 hp] at hm
    have ha : a = _ := hm
    rw [if_neg hlock, ha]
    exact ⟨rfl, rfl, rfl⟩

/-- R50's table for the field that begins. -/
theorem nextLength_spec (f : Fal) (d : Standard) (q : Parity) (holdover : Bool) :
    let r := f.nextLength d q holdover
    (f.field = .seek ∨ f.shift = 0 → r = (d.fieldLines q, 0)) ∧
    (f.field ≠ .seek → f.shift ≠ 0 →
      (holdover = true → r = (d.fieldLines q, f.shift)) ∧
      (holdover = false → f.kind = .whole → (r.1 : Int) = max 20 (d.fieldLines q + f.shift) ∧
        r.2 = f.shift - (r.1 - d.fieldLines q)) ∧
      (holdover = false → f.kind = .slip →
        (0 < f.shift → r = (d.fieldLines q + 1, f.shift - 1)) ∧
        (f.shift < 0 → r = (d.fieldLines q - 1, f.shift + 1)))) := by
  intro r
  have hr : r = f.nextLength d q holdover := rfl
  simp only [Fal.nextLength, Bool.or_eq_true, decide_eq_true_eq] at hr
  refine ⟨fun h => by rw [hr, if_pos h], fun hs h0 => ⟨fun hh => ?_, fun hh hk => ?_, fun hh hk => ⟨fun hp => ?_, fun hn => ?_⟩⟩⟩
  · rw [hr, if_neg (not_or.2 ⟨hs, h0⟩), if_pos hh]
  all_goals
    have hno : ¬holdover = true := by rw [hh]; exact Bool.false_ne_true
    rw [if_neg (not_or.2 ⟨hs, h0⟩), if_neg hno, hk] at hr
    rw [hr]
  · exact ⟨Int.toNat_of_nonneg (by omega), rfl⟩
  · exact if_pos hp
  · exact if_neg (by omega)

/-- Settles O29. -/
theorem startsAndShiftsSetTheLength : Obligations.StartsAndShiftsSetTheLength := by
  constructor
  · intro f c r g d ag a word
    obtain ⟨hk, hhalf⟩ := misalignment_spec c r.parity g
    have hframe : 0 < c.std.frame := by cases c.std <;> decide
    have hword (g : Fal) (n : Nat) (hn : g.field.code = n) (hq : g.lastParity = some r.parity) : fieldWord g = word n := by
      simp only [fieldWord, hn, hq, word]
      cases r.parity <;> rfl
    by_cases h0 : d = 0
    · obtain ⟨hfal, hlength, hreports⟩ := handleStart_zero (f := f) (c := c) (r := r) h0
      have hne {P : Prop} (h : d ≠ 0) : P := absurd h0 h
      refine ⟨by rw [hfal]; rfl, by rw [hfal]; rfl, by rw [hfal]; rfl, by rw [hfal]; rfl, by rw [hfal]; rfl, hk, hhalf,
        fun _ => ⟨by rw [hfal], by rw [hfal], hlength, ?_⟩, hne, hne, hne, hne, hne⟩
      rw [hreports, repFieldLocked, hword _ 2 (by rw [hfal]; rfl) (by rw [hfal]; rfl)]
      cases c.parity <;> rfl
    · by_cases hp : (d - f.shift) % c.std.frame = 0
      · obtain ⟨hfal, hlength, hreports⟩ := handleStart_pending (f := f) (c := c) (r := r) h0 hp
        have hfield : a.fal.field = if f.field = .lock then .lock else .align := by rw [hfal]
        have hne {P : Prop} (h : (d - f.shift) % c.std.frame ≠ 0) : P := absurd hp h
        exact ⟨by rw [hfal]; rfl, by rw [hfal]; rfl, by rw [hfal]; rfl, by rw [hfal]; rfl, by rw [hfal]; rfl, hk, hhalf,
          fun h => absurd h h0, fun _ hl => ⟨by rw [hfield, if_neg hl], hreports⟩,
          fun _ _ => ⟨hfield, by rw [hfal]; rfl, hlength, hreports⟩, fun _ => hne, fun _ => hne, fun _ => hne⟩
      · obtain ⟨f0, k, shift, hfal, hlength, hf0, hshift0, hfield0, hmiss0, hslip, hadjust, hother, hreports⟩ :=
          handleStart_shift (f := f) (c := c) (r := r) (d := d) (ag := ag) rfl rfl h0 hp
        have hkeeps : a.fal = { f.started c r with
            field := f0.field, miss := f0.miss, shift := a.fal.shift, kind := k } := by
          have h := (applyShift_keeps f0 c shift k).1
          rw [← hfal, hf0] at h
          exact h
        obtain ⟨htaken, hstays⟩ := applyShift_spec f0 c shift k
        rw [← hfal, ← hlength] at htaken hstays
        have hpar : a.fal.lastParity = some r.parity := by rw [hkeeps]; rfl
        have hfield : a.fal.field = f0.field := by rw [hkeeps]
        refine ⟨by rw [hkeeps]; rfl, hpar, by rw [hkeeps]; rfl, by rw [hkeeps]; rfl, by rw [hkeeps]; rfl, hk, hhalf,
          fun h => absurd h h0, fun _ hl => ⟨?_, ?_⟩, fun _ h => absurd h hp, fun _ _ hl hag h8 => ?_,
          fun _ _ hl hno => ?_, fun _ _ => ?_⟩
        · rw [hfield, hfield0, if_neg fun hy => hl hy.1]
        · rw [hreports, if_neg hl]
        · have hadj : f.field = .lock ∧ ag = true ∧ d.natAbs ≤ 8 := ⟨hl, hag, h8⟩
          obtain ⟨rfl, rfl⟩ := hadjust hadj
          have hsum : (a.length : Int) + a.fal.shift = c.length + d := by
            by_cases h : 20 ≤ (c.length : Int) + d ∧ (c.line : Int) ≤ c.length + d ∧
                (c.length : Int) + d ≤ c.std.fieldLines c.parity + 16
            · obtain ⟨h1, h2⟩ : (a.length : Int) = c.length + d ∧ a.fal.shift = d - d := htaken h
              omega
            · obtain ⟨h1, h2⟩ : a.length = c.length ∧ a.fal.shift = d :=
                hstays (by simp only [ShiftKind.move]; omega)
              omega
          refine ⟨by rw [hfield, hfield0, if_pos hadj], hsum, ?_⟩
          rw [hreports, if_pos hl, if_pos hadj, repFieldAdjust, hword _ 2 (by rw [hfield, hfield0, if_pos hadj]; rfl) hpar]
          split <;> rfl
        · have hadj : ¬(f.field = .lock ∧ ag = true ∧ d.natAbs ≤ 8) := by
            rintro ⟨-, h1, h2⟩
            rcases hno with h | h
            · rw [h] at h1
              exact absurd h1 (by decide)
            · omega
          have halign : f0.field = .align := hfield0.trans (if_neg hadj)
          refine ⟨hfield.trans halign, ?_, ?_⟩
          · rw [hkeeps]
            exact hmiss0 hl hadj
          · rw [hreports, if_pos hl, if_neg hadj, repFieldRealign,
              hword _ 1 (by rw [halign]; rfl) (by rw [hf0]; rfl), hf0]
            cases ag <;> rfl
        · intro adjust slip frame shift' move taken
          have hshift : shift = shift' ∧ (k = if slip then .slip else .whole) := by
            by_cases hadj : adjust
            · obtain ⟨h1, h2⟩ := hadjust hadj
              exact ⟨h2.trans (if_pos (.inl hadj)).symm, h1.trans (if_neg fun hs => hs.1 hadj).symm⟩
            · by_cases hs : slip
              · obtain ⟨h1, h2⟩ := hslip hs
                exact ⟨h2.trans (if_pos (.inr hs)).symm, h1.trans (if_pos hs).symm⟩
              · obtain ⟨h1, h2⟩ := hother hadj hs
                exact ⟨h2.trans (if_neg (not_or.2 ⟨hadj, hs⟩)).symm, h1.trans (if_neg hs).symm⟩
          obtain ⟨hsh, hkind⟩ := hshift
          have hmove : k.move shift = move := by
            rw [hsh, hkind]
            simp only [move]
            split <;> rfl
          rw [hmove, hsh] at htaken
          rw [hmove, hsh] at hstays
          have hk' : a.fal.kind = k := by rw [hkeeps]
          refine ⟨fun hadj hs => ?_, fun hs => by rw [hk', hkind, if_pos hs], fun hs => by rw [hk', hkind, if_neg hs],
            htaken, hstays⟩
          obtain ⟨-, h1, h2⟩ := wrapTo_spec d (f := c.std.frame) (hi := 16) hframe (by decide)
            (by cases c.std <;> decide)
          rw [← hsh, (hother hadj hs).2]
          exact ⟨by omega, h2⟩
  · intro f d q holdover r
    obtain ⟨hstd, hrest⟩ := nextLength_spec f d q holdover
    have hlines : 262 ≤ d.fieldLines q := by cases d <;> cases q <;> decide
    by_cases h : f.field = .seek ∨ f.shift = 0
    · have hr : r = (d.fieldLines q, 0) := hstd h
      rw [hr]
      refine ⟨fun _ => rfl, fun hs => ?_, fun _ _ => rfl, by omega, fun _ _ => ⟨Nat.le_add_right _ _, fun _ _ _ => rfl⟩,
        fun _ => by simp⟩
      rw [h.resolve_left hs]
    · obtain ⟨hs, h0⟩ := not_or.1 h
      obtain ⟨hhold, hwhole, hslip⟩ := hrest hs h0
      by_cases hh : holdover = true
      · have hr : r = (d.fieldLines q, f.shift) := hhold hh
        rw [hr]
        exact ⟨fun hy => absurd hy h, fun _ => rfl, fun _ _ => rfl, by omega,
          fun _ _ => ⟨Nat.le_add_right _ _, fun _ _ hy => absurd hh (by rw [hy]; decide)⟩, fun _ => by simp⟩
      · have hf : holdover = false := Bool.not_eq_true _ ▸ hh
        cases hk : f.kind with
        | whole =>
          obtain ⟨h1, h2⟩ : (r.1 : Int) = max 20 (d.fieldLines q + f.shift) ∧ r.2 = f.shift - (r.1 - d.fieldLines q) :=
            hwhole hf hk
          refine ⟨fun hy => absurd hy h, fun _ => ?_, fun _ hy => absurd hy hh, ?_, fun _ h16 =>
            ⟨?_, fun h20 _ _ => ?_⟩, fun hy => absurd hy (by decide)⟩ <;> omega
        | slip =>
          obtain ⟨h1, h2⟩ := hslip hf hk
          have hr : (r = (d.fieldLines q + 1, f.shift - 1)) ∨ (r = (d.fieldLines q - 1, f.shift + 1)) := by
            rcases Int.lt_or_lt_of_ne h0 with hn | hp
            · exact .inr (h2 hn)
            · exact .inl (h1 hp)
          refine ⟨fun hy => absurd hy h, fun _ => ?_, fun _ hy => absurd hy hh, ?_,
            fun hy => absurd hy (by decide), fun _ => ?_⟩ <;> rcases hr with hr | hr <;> rw [hr] <;> dsimp only <;> omega

end Sys2Proof.Machine
end

section
/-!
PROOFS. BROAD arrivals at the aligner: the steps of the broad record and the start it detects, with O27.
-/

namespace Sys2Proof.Machine

/-! ## The broad record (R46) -/

section
variable {f : Fal} {l : Lll} {edge : Pu}

theorem broadStep_ignored {last : Pu} (h : f.lockout = some last) (hn : (edge - last).toNat < 16 * (l.p / 16)) :
    f.broadStep l edge = .ignored := by
  simp only [Fal.broadStep, h, Option.any_some, decide_eq_true hn, if_true]

theorem broadStep_open (h : ∀ last, f.lockout = some last → 16 * (l.p / 16) ≤ (edge - last).toNat) :
    f.broadStep l edge = match f.broad with
      | none => .opened
      | some r => if (edge - r.first).toNat ≤ 3 * (l.p / 16) then
          (if r.count + 1 = 3 then .detected r else .counted) else .opened := by
  refine if_neg ?_
  cases hl : f.lockout with
  | none => exact Bool.false_ne_true
  | some last => simpa using h last hl

theorem broadStep_opened (h : ∀ last, f.lockout = some last → 16 * (l.p / 16) ≤ (edge - last).toNat)
    (hb : f.broad = none ∨ ∃ r, f.broad = some r ∧ 3 * (l.p / 16) < (edge - r.first).toNat) :
    f.broadStep l edge = .opened := by
  rw [broadStep_open h]
  rcases hb with hb | ⟨r, hb, hfar⟩
  · simp only [hb]
  · simp only [hb, if_neg (Nat.not_le.2 hfar)]

theorem broadStep_within {r : BroadRecord} (h : ∀ last, f.lockout = some last → 16 * (l.p / 16) ≤ (edge - last).toNat)
    (hb : f.broad = some r) (hnear : (edge - r.first).toNat ≤ 3 * (l.p / 16)) :
    f.broadStep l edge = if r.count = 2 then .detected r else .counted := by
  rw [broadStep_open h]
  simp only [hb, if_pos hnear, Nat.reduceEqDiff]

end

/-! ## What a BROAD arrival leaves -/

section
variable {edge : Pu} {s : State}

theorem broadArrival_ignored (h : s.fal.broadStep s.lll edge = .ignored) : broadArrival edge s = s := by
  simp only [broadArrival, h]

theorem broadArrival_opened (h : s.fal.broadStep s.lll edge = .opened) : broadArrival edge s =
    { s with fal := { s.fal with broad := some (BroadRecord.place s.lll s.rfe.working s.tgn.line edge) } } := by
  simp only [broadArrival, h]

theorem broadArrival_counted {r : BroadRecord} (h : s.fal.broadStep s.lll edge = .counted) (hr : s.fal.broad = some r) :
    broadArrival edge s = { s with fal := { s.fal with broad := some { r with count := r.count + 1 } } } := by
  simp only [broadArrival, h, hr, Option.map_some]

/-- The aligner with a start detected: the record is closed and the lockout begins (R46). -/
def Fal.detect (f : Fal) (r : BroadRecord) : Fal := { f with broad := none, lockout := some r.first }

theorem broadArrival_dropped {r : BroadRecord} (h : s.fal.broadStep s.lll edge = .detected r) (hl : s.lll.locked = false) :
    broadArrival edge s = { s with fal := s.fal.detect r } := by
  simp only [broadArrival, h, hl, Bool.false_eq_true, if_false]
  rfl

theorem broadArrival_acted {r : BroadRecord} (h : s.fal.broadStep s.lll edge = .detected r) (hl : s.lll.locked = true) :
    broadArrival edge s = { s with
      fal := ((s.fal.detect r).handleStart s.fieldCtx r).fal
      tgn := { s.tgn with length := ((s.fal.detect r).handleStart s.fieldCtx r).length }
      rpw := (produceAll ((s.fal.detect r).handleStart s.fieldCtx r).reports s).rpw } := by
  simp only [broadArrival, h, hl, if_true]
  rw [produceAll_eq]
  have hrpw := produceAll_rpw_congr (s := s) (t := { s with
      fal := ((s.fal.detect r).handleStart s.fieldCtx r).fal
      tgn := { s.tgn with length := ((s.fal.detect r).handleStart s.fieldCtx r).length } })
    ((s.fal.detect r).handleStart s.fieldCtx r).reports rfl rfl
  exact congrArg (fun x => ({ s with
      fal := ((s.fal.detect r).handleStart s.fieldCtx r).fal
      tgn := { s.tgn with length := ((s.fal.detect r).handleStart s.fieldCtx r).length }
      rpw := x } : State)) hrpw

/-- A BROAD arrival changes the aligner, the length of the field in progress and the reports alone. -/
theorem broadArrival_eq (edge : Pu) (s : State) : broadArrival edge s = { s with
    fal := (broadArrival edge s).fal, tgn := { s.tgn with length := (broadArrival edge s).tgn.length }
    rpw := (broadArrival edge s).rpw } := by
  cases h : s.fal.broadStep s.lll edge with
  | ignored => rw [broadArrival_ignored h]
  | opened => rw [broadArrival_opened h]
  | counted => simp only [broadArrival, h]
  | detected r =>
    cases hl : s.lll.locked with
    | false => rw [broadArrival_dropped h hl]
    | true => rw [broadArrival_acted h hl]

theorem tstWatch_of_not_strict (h : s.strictLock = false) : tstWatch s = s := by
  unfold tstWatch
  split
  · rw [h]
    rfl
  · rfl

/-- Outside a locked state an arrival shows in the aligner alone (R48). -/
theorem broadPulse_unlocked (hl : s.lll.locked = false) :
    broadPulse edge s = { s with fal := (broadPulse edge s).fal } := by
  have hwatch : broadPulse edge s = broadArrival edge s := by
    refine tstWatch_of_not_strict ?_
    rw [broadArrival_eq]
    simp only [State.strictLock, hl, Bool.false_and]
  rw [hwatch]
  cases h : s.fal.broadStep s.lll edge with
  | ignored => rw [broadArrival_ignored h]
  | opened => rw [broadArrival_opened h]
  | counted => simp only [broadArrival, h]
  | detected r => rw [broadArrival_dropped h hl]

theorem broadPulse_eq (edge : Pu) (s : State) : broadPulse edge s = { s with
    fal := (broadArrival edge s).fal, tgn := { s.tgn with length := (broadArrival edge s).tgn.length }
    rpw := (broadPulse edge s).rpw, tst := (broadPulse edge s).tst } := by
  have hparts : ∀ (a : Tst) (b : Rpw), ({ broadArrival edge s with tst := a, rpw := b } : State) = { s with
      fal := (broadArrival edge s).fal, tgn := { s.tgn with length := (broadArrival edge s).tgn.length }
      rpw := b, tst := a } := fun a b => by rw [broadArrival_eq]
  exact (tstWatch_eq _).trans (hparts _ _)

theorem broadPulse_closed (h : s.tst.lockTime = none) : broadPulse edge s = broadArrival edge s :=
  tstWatch_closed (by rw [broadArrival_eq]; exact h)

theorem broadPulse_fal (edge : Pu) (s : State) :
    (broadPulse edge s).fal = (broadArrival edge s).fal ∧ (broadPulse edge s).tgn = (broadArrival edge s).tgn := by
  simp [broadPulse]

end

theorem Lll.locked_eq_false {l : Lll} : l.locked = false ↔ ¬(l.loop = .track ∨ l.loop = .coast) := by
  rw [← Lll.locked_iff, Bool.not_eq_true]

/-- Settles O27: the machine up to the arrival, then each step of the broad record. -/
theorem broadPulsesDetectStarts : Obligations.BroadPulsesDetectStarts := by
  intro i u s1 least tip edge s hc ha hlo hhi hactive hmode lp locked e offset quarter n opened
  set v := (s.atTick u).setInput i { s.input i with classifier := .armed } with hv
  obtain ⟨hi, ho, htick, hrest⟩ := setInput_at i u { s.input i with classifier := .armed } s
  rw [← hv] at hi ho htick hrest
  have hexec : exec (.pulseClassification i u s1 least) s = .next (broadPulse edge v) := by
    rw [exec_pulseClassification hc ha hhi, pulseClass_broad (w := pulseWidth edge u) ⟨hlo, hhi⟩]
    simp only [classified, ← hv]
    rw [if_pos]
    rw [hv, handsOn_setInput]
    exact handsOn_eq_true.2 ⟨hactive, hmode⟩
  have hlll : v.lll = s.lll := by rw [hrest]
  have hfal : v.fal = s.fal := by rw [hrest]
  have htgn : v.tgn = s.tgn := by rw [hrest]
  have hrpw : v.rpw = s.rpw := by rw [hrest]
  have htst : v.tst = s.tst := by rw [hrest]
  have hworking : v.rfe.working = s.rfe.working := by rw [hrest]
  have hctx : v.fieldCtx = s.fieldCtx := by rw [hrest]; rfl
  have hlocked : v.lll.locked = true ↔ locked := by rw [hlll]; exact Lll.locked_iff _
  have hplace : BroadRecord.place v.lll v.rfe.working v.tgn.line edge = opened := by
    rw [hlll, hworking, htgn]
    rfl
  obtain ⟨hpf, hpt⟩ := broadPulse_fal edge v
  have hrfe : (broadPulse edge v).rfe = v.rfe := by rw [broadPulse_eq]
  refine ⟨broadPulse edge v, hexec, ?_, fun hl => ?_, ?_, ?_, by rw [hrfe, htick], fun last hlast hn => ?_,
    fun hopen => ⟨fun hb => ?_, fun r hr hnear => ⟨fun h1 => ?_, fun h2 => ?_⟩⟩⟩
  · rw [broadPulse_eq edge v, hrest]
  · rw [broadPulse_unlocked (Bool.eq_false_iff.2 (mt hlocked.1 hl)), hrest]
  · exact (State.input_congr ⟨by rw [hrfe], by rw [hrfe]⟩ i).trans hi
  · exact (State.input_congr ⟨by rw [hrfe], by rw [hrfe]⟩ _).trans ho
  · rw [hpf, hpt, broadArrival_ignored (by rw [hfal, hlll]; exact broadStep_ignored hlast hn)]
    exact ⟨hfal, htgn⟩
  · rw [hpf, hpt, broadArrival_opened (by rw [hfal, hlll]; exact broadStep_opened hopen hb), hplace, hfal]
    exact ⟨rfl, htgn⟩
  · have hstep : v.fal.broadStep v.lll edge = .counted := by
      rw [hfal, hlll, broadStep_within hopen hr hnear, if_neg (by omega)]
    rw [hpf, hpt, broadArrival_counted hstep (by rw [hfal]; exact hr), hfal, h1]
    exact ⟨rfl, htgn⟩
  · have hstep : v.fal.broadStep v.lll edge = .detected r := by
      rw [hfal, hlll, broadStep_within hopen hr hnear, if_pos h2]
    refine ⟨fun hl => ?_, fun hl => ⟨?_, ?_, fun hnone => ?_⟩⟩
    · rw [hpf, broadArrival_dropped hstep (Bool.eq_false_iff.2 (mt hlocked.1 hl)), hfal]
      rfl
    all_goals
      have hacted := broadArrival_acted hstep (hlocked.2 hl)
      rw [hfal, hctx] at hacted
    · rw [hpf, hacted]
      rfl
    · rw [hpt, hacted]
      rfl
    · rw [broadPulse_closed (by rw [htst]; exact hnone), hacted]
      exact produceAll_rpw_congr _ hrpw (by rw [htgn])

end Sys2Proof.Machine
end

section
/-!
PROOFS. The line end, block by block: what the evaluation of the ended line and FAL's miss check leave once the grid
has moved on.
-/

namespace Sys2Proof.Machine

/-! ## Records handed on one after the other -/

theorem produceAll_append (a b : List Report) (s : State) : produceAll (a ++ b) s = produceAll b (produceAll a s) := by
  induction a generalizing s with
  | nil => rfl
  | cons r a ih => exact ih (produce r s)

theorem produceAll_set (rs : List Report) (l : Lll) (f : Fal) (s : State) :
    produceAll rs { s with lll := l, fal := f } = { s with lll := l, fal := f, rpw := (produceAll rs s).rpw } := by
  rw [produceAll_eq, produceAll_rpw_congr (s := s) (t := { s with lll := l, fal := f }) rs rfl rfl]

/-! ## FAL's miss check (R55, R56) -/

/-- The aligner after its miss check. -/
def Fal.missChecked (f : Fal) (holdover : Bool) : Fal :=
  if f.field = .seek then f
  else if holdover then { f with startSeen := false }
  else if f.startSeen then { f with miss := 0, startSeen := false }
  else if 4 ≤ f.miss + 1 then (({ f with miss := f.miss + 1 } : Fal).enterSeek .missed).1
  else { f with miss := f.miss + 1 }

/-- FIELD/LOST, where the miss check counts the fourth miss. -/
def Fal.missReports (f : Fal) (holdover : Bool) : List Report :=
  if f.fourthMiss holdover then (({ f with miss := f.miss + 1 } : Fal).enterSeek .missed).2 else []

theorem missCheck_eq (s : State) : missCheck s = { s with
    fal := s.fal.missChecked s.lll.inHoldover
    rpw := (produceAll (s.fal.missReports s.lll.inHoldover) s).rpw } := by
  unfold missCheck Fal.missChecked Fal.missReports Fal.fourthMiss
  by_cases hseek : s.fal.field = .seek
  · simp [hseek, produceAll]
  · cases hh : s.lll.inHoldover with
    | true => simp [hseek, produceAll]
    | false =>
      cases hstart : s.fal.startSeen with
      | true => simp [hseek, produceAll]
      | false =>
        by_cases h4 : 4 ≤ s.fal.miss + 1
        · simp only [hseek, if_false, h4, if_true, Bool.false_eq_true, decide_false, Bool.not_false, Bool.true_and,
            decide_true, ne_eq, not_false_eq_true, Bool.and_self]
          exact produceAll_set _ s.lll _ s
        · simp [hseek, h4, hstart, produceAll]

/-! ## The evaluation of the line (R23 to R35) -/

theorem takeOffer_eq (o : Option Int) (s : State) : takeOffer o s = { s with tst := (takeOffer o s).tst } := by
  unfold takeOffer
  (repeat' split) <;> rfl

theorem takeOffer_tst_congr (o : Option Int) {s t : State} (htst : t.tst = s.tst) (hstamp : t.tgn.stamp = s.tgn.stamp) :
    (takeOffer o t).tst = (takeOffer o s).tst := by
  cases o with
  | none => exact htst
  | some e =>
    simp only [takeOffer, htst, hstamp]
    cases s.tst.count with
    | none => exact htst
    | some r => dsimp only; split <;> simp [htst]

theorem evaluateLine_eq (s : State) : (evaluateLine s).s = { s with
    lll := s.evaluation.lll, rpw := (produceAll s.evaluation.reports s).rpw
    tst := (takeOffer s.evaluation.offer s).tst } := by
  have hall : produceAll s.evaluation.reports { s with lll := s.evaluation.lll } =
      { s with lll := s.evaluation.lll, rpw := (produceAll s.evaluation.reports s).rpw } :=
    produceAll_set _ _ s.fal s
  show takeOffer s.evaluation.offer (produceAll s.evaluation.reports { s with lll := s.evaluation.lll }) = _
  rw [takeOffer_eq, hall]
  rw [takeOffer_tst_congr (s := s) (t := { s with
    lll := s.evaluation.lll, rpw := (produceAll s.evaluation.reports s).rpw }) _ rfl rfl]

/-- LLL's evaluation reads the loop, the settings, the working standard and the line alone. -/
theorem evaluation_congr {s t : State} (hl : t.lll = s.lll) (hst : t.cue.settings = s.cue.settings)
    (hw : t.rfe.working = s.rfe.working) (hline : t.tgn.line = s.tgn.line) : t.evaluation = s.evaluation := by
  simp only [State.evaluation, hl, hst, hw, hline]

theorem evaluateLine_len (s : State) :
    (evaluateLine s).len = s.evaluation.len ∧ (evaluateLine s).entered = s.evaluation.entered := ⟨rfl, rfl⟩

/-- What LLL's evaluation of a line leaves as it is. -/
theorem evaluate_keeps (l : Lll) (st : Settings) (d : Standard) (line : Nat) :
    (l.evaluate st d line).lll.ideal = l.ideal ∧ (l.evaluate st d line).lll.nextIdeal = l.nextIdeal ∧
    (l.evaluate st d line).lll.hTarget = l.hTarget ∧ (l.evaluate st d line).lll.hEff = l.hEff ∧
    (l.evaluate st d line).lll.capture = l.capture := by
  unfold Lll.evaluate Lll.evalAccepted Lll.evalStep Lll.evalCoast
  (repeat' split) <;> and_intros <;> rfl

/-! ## The grid step (R23) -/

/-- The records of the line that ended: LLL's, and at line 16 FAL's, in the order the event gives (log 6). -/
def State.lineReports (missFirst : Bool) (s : State) : List Report :=
  if s.missLine then
    if missFirst then s.fal.missReports s.lll.inHoldover ++ s.evaluation.reports
    else s.evaluation.reports ++ s.fal.missReports s.evaluation.lll.inHoldover
  else s.evaluation.reports

/-- The aligner at the end of a line. -/
def State.lineFal (missFirst : Bool) (s : State) : Fal :=
  if s.missLine then s.fal.missChecked (if missFirst then s.lll else s.evaluation.lll).inHoldover else s.fal

theorem endLine_eq (b : Bool) (s : State) : (endLine b s).s = { s with
      lll := s.evaluation.lll, fal := s.lineFal b, rpw := (produceAll (s.lineReports b) s).rpw
      tst := (takeOffer s.evaluation.offer s).tst } ∧
    (endLine b s).len = s.evaluation.len ∧ (endLine b s).entered = s.evaluation.entered := by
  unfold endLine State.lineFal State.lineReports
  by_cases hm : s.missLine = true
  · rw [if_pos hm, if_pos hm, if_pos hm]
    cases b with
    | true =>
      simp only [if_true]
      have hev : (missCheck s).evaluation = s.evaluation := by
        rw [missCheck_eq]
        exact evaluation_congr rfl rfl rfl rfl
      obtain ⟨hlen, hent⟩ := evaluateLine_len (missCheck s)
      rw [hlen, hent, hev, evaluateLine_eq, hev, produceAll_append]
      refine ⟨?_, rfl, rfl⟩
      rw [takeOffer_tst_congr (s := s) _ (by rw [missCheck_eq]) (by rw [missCheck_eq]),
        produceAll_rpw_congr (s := produceAll (s.fal.missReports s.lll.inHoldover) s) _ (by rw [missCheck_eq])
          (by simp [missCheck_eq])]
      rw [missCheck_eq]
    | false =>
      simp only [Bool.false_eq_true, if_false]
      obtain ⟨hlen, hent⟩ := evaluateLine_len s
      rw [hlen, hent, produceAll_append]
      refine ⟨?_, rfl, rfl⟩
      rw [missCheck_eq, evaluateLine_eq]
      dsimp only
      rw [produceAll_rpw_congr (s := produceAll s.evaluation.reports s)]
      · rfl
      · simp
  · rw [if_neg hm, if_neg hm, if_neg hm]
    exact ⟨evaluateLine_eq s, evaluateLine_len s⟩

/-- The state at a line end, once the line has been evaluated and the grid moved on. -/
theorem gridStep_eq (x : LineInputs) (s : State) : (gridStep x s).s = { s with
    rfe := { s.rfe with tick := s.lineEndTick }
    lll := s.evaluation.lll.advance s.cue.settings s.evaluation.len
    fal := s.lineFal x.order.missFirst
    rpw := (produceAll (s.lineReports x.order.missFirst) s).rpw
    tst := (takeOffer s.evaluation.offer s).tst
    pins := { hold := x.hold, tally := x.tally } } := by
  obtain ⟨hs, hlen, -⟩ := endLine_eq x.order.missFirst (lineInstant x s)
  show ({ (endLine x.order.missFirst (lineInstant x s)).s with
    lll := (endLine x.order.missFirst (lineInstant x s)).s.lll.advance
      (endLine x.order.missFirst (lineInstant x s)).s.cue.settings (endLine x.order.missFirst (lineInstant x s)).len } : State) = _
  rw [hlen, hs]
  dsimp only
  rw [produceAll_rpw_congr (s := s) (t := lineInstant x s) _ rfl rfl,
    takeOffer_tst_congr (s := s) (t := lineInstant x s) _ rfl rfl]
  rfl

theorem gridStep_entered (x : LineInputs) (s : State) : (gridStep x s).entered = s.evaluation.entered :=
  (endLine_eq x.order.missFirst (lineInstant x s)).2.2

/-! ## A line end inside a field (R65, R67) -/

theorem tstLineStart_tst (s : State) : (tstLineStart s).tst = { s.tst with
    lines := (tstLineStart s).tst.lines, run := (tstLineStart s).tst.run } := by
  unfold tstLineStart
  split <;> rfl

/-- The beginning of a line places TST's arrivals, and changes no more of the test unit. -/
theorem beginLine_tst (s : State) : (beginLine s).tst = { s.tst with
    lines := (beginLine s).tst.lines, run := (beginLine s).tst.run } := tstLineStart_tst _

theorem scanHere_gridStep (x : LineInputs) (s : State) : (gridStep x s).s.scanHere = s.scanHere := by
  simp only [State.scanHere, gridStep_frame]

/-- The scan point leaves the engine and the port but for a scan it begins (R104). -/
theorem scanPoint_eq (s : State) : scanPoint s = { s with
    tgn := { s.tgn with scanDone := s.scanHere || s.tgn.scanDone }
    cue := { s.cue with scan := (scanPoint s).cue.scan }, mpt := { s.mpt with cueQ := (scanPoint s).mpt.cueQ } } := by
  unfold scanPoint
  by_cases h : s.scanHere = true
  · rw [if_pos h, h]
    unfold scanBegin
    split <;> rfl
  · rw [if_neg h, Bool.eq_false_iff.2 h]
    rfl

/-- A line end inside a field, block by block but for the engine's scan. -/
theorem lineEndWork_inField_blocks {x : LineInputs} {s : State} (h : s.tgn.line < s.tgn.length) :
    let t := lineEndWork x s
    t.rfe = { s.rfe with tick := s.lineEndTick } ∧
    t.lll = s.evaluation.lll.advance s.cue.settings s.evaluation.len ∧
    t.fal = s.lineFal x.order.missFirst ∧ t.rpw = (produceAll (s.lineReports x.order.missFirst) s).rpw ∧
    t.tst = { (takeOffer s.evaluation.offer s).tst with lines := t.tst.lines, run := t.tst.run } ∧
    t.wsk = s.wsk ∧ t.kbl = s.kbl ∧ t.pins = { hold := x.hold, tally := x.tally } ∧
    t.tgn = { s.tgn with
      line := s.tgn.line + 1, scanDone := s.scanHere || s.tgn.scanDone
      lineStart := Qu.tick s.lll.nextIdeal, lineD := s.cue.settings.dots, lineStd := s.rfe.working, nextDot := 0
      key := if Tick.reached (Qu.tick s.lll.nextIdeal) s.tgn.keyUntil then 0 else s.tgn.key } := by
  intro t
  have hst : (scanPoint (gridStep x s).s).cue.settings = s.cue.settings := by
    rw [scanPoint_eq]
    simp
  have ht : t = beginLine (nextLine (scanPoint (gridStep x s).s)) := lineEndWork_inField h
  refine ⟨?_, ?_, ?_, ?_, ?_, ?_, ?_, ?_, ?_⟩
  · rw [ht]
    simp [gridStep_eq]
  · rw [ht]
    simp [gridStep_eq]
  · rw [ht]
    simp [gridStep_eq]
  · rw [ht]
    simp [gridStep_eq]
  · rw [ht]
    refine (beginLine_tst _).trans ?_
    simp [gridStep_eq]
  · rw [ht]
    simp
  · rw [ht]
    simp
  · rw [ht]
    simp [gridStep_eq]
  · rw [ht, beginLine_tgn]
    have hideal : (gridStep x s).s.lll.ideal = s.lll.nextIdeal := by
      rw [gridStep_eq]
      exact (evaluate_keeps _ _ _ _).2.1
    have hworking : (gridStep x s).s.rfe.working = s.rfe.working := by rw [gridStep_eq]
    simp only [nextLine, hst, scanPoint_tgn, scanHere_gridStep, gridStep_frame, scanPoint_frame, hideal, hworking]

end Sys2Proof.Machine
end

section
/-!
PROOFS. The line lock loop at a line end: measured lines and strays, with O22, O26 and O31.
-/

namespace Sys2Proof.Machine

/-! ## Rounding to nearest (spec/00_scope.md, Arithmetic) -/

theorem ediv_nearest {v M : Int} (hM : 0 < M) :
    -M < 2 * M * ((v + M) / (2 * M)) - v ∧ 2 * M * ((v + M) / (2 * M)) - v ≤ M := by
  have hdiv := Int.mul_ediv_add_emod (v + M) (2 * M)
  have h0 := Int.emod_nonneg (v + M) (show 2 * M ≠ 0 by omega)
  have hlt := Int.emod_lt_of_pos (v + M) (show 0 < 2 * M by omega)
  omega

/-- The quotient is the nearest, ties away from zero. -/
theorem roundDiv_nearest (v : Int) (k : Nat) :
    let off : Int := 2 ^ k * roundDiv v k - v
    2 * off.natAbs ≤ 2 ^ k ∧ (2 * off.natAbs = 2 ^ k → v.natAbs < (2 ^ k * roundDiv v k).natAbs) := by
  intro off
  cases k with
  | zero =>
    have hoff : off = 0 := by simp [off, roundDiv]
    rw [hoff]
    simp
  | succ n =>
    have hM : (0 : Int) < 2 ^ n := by positivity
    have hpow : (2 : Int) ^ (n + 1) = 2 * 2 ^ n := by rw [Int.pow_succ, Int.mul_comm]
    have hpowN : ((2 ^ (n + 1) : Nat) : Int) = 2 * 2 ^ n := by rw [← hpow]; simp
    have hround : roundDiv v (n + 1) = if 0 ≤ v then (v + 2 ^ n) / (2 * 2 ^ n) else -((-v + 2 ^ n) / (2 * 2 ^ n)) := by
      simp only [roundDiv, if_neg (Nat.succ_ne_zero n), Nat.add_sub_cancel, hpow]
    simp only [off, hpow, hround]
    generalize (2 : Int) ^ n = M at *
    rcases Int.lt_or_le v 0 with hv | hv
    · obtain ⟨h1, h2⟩ := ediv_nearest (v := -v) hM
      rw [if_neg (by omega), Int.mul_neg]
      generalize 2 * M * ((-v + M) / (2 * M)) = w at *
      omega
    · obtain ⟨h1, h2⟩ := ediv_nearest (v := v) hM
      rw [if_pos hv]
      generalize 2 * M * ((v + M) / (2 * M)) = w at *
      omega

theorem clampI_of_nonneg {x : Int} {lo hi : Nat} (h : lo ≤ hi) : ((clampI x lo hi).toNat : Int) = clampI x lo hi :=
  Int.toNat_of_nonneg ((Int.natCast_nonneg lo).trans (clampI_bounds (by exact_mod_cast h)).1)

theorem lenMin_le_lenMax (d : Standard) : d.lenMin ≤ d.lenMax := by cases d <;> decide

/-! ## The evaluation of a line in a locked state (R28) -/

section
variable {l : Lll} {st : Settings} {d : Standard} {line : Nat}

theorem evaluate_settling (hl : l.loop = .track ∨ l.loop = .coast) (hs : l.settling = true) :
    l.evaluate st d line = { lll := { l with settling := false }, len := l.p } := by
  rcases hl with h | h <;> simp only [Lll.evaluate, h, hs, if_true]

theorem evaluate_inCoast (hl : l.loop = .track ∨ l.loop = .coast) (hs : l.settling = false) (hc : st.inCoast line = true) :
    l.evaluate st d line = { lll := { l with loop := .coast, stats := l.stats.addCoast }, len := l.p } := by
  rcases hl with h | h <;> simp only [Lll.evaluate, h, hs, hc, Bool.false_eq_true, if_false, if_true]

theorem evaluate_measured (hl : l.loop = .track ∨ l.loop = .coast) (hs : l.settling = false)
    (hc : st.inCoast line = false) : l.evaluate st d line = match l.accepted with
      | some e => l.evalAccepted st d e
      | none => match (applyStray st.captureTol l.stray l.lineStray).2 with
        | some o => l.evalStep st d o
        | none => l.evalCoast st (applyStray st.captureTol l.stray l.lineStray).1 := by
  have hcommon : l.evaluate st d line = match l.accepted with
      | some e => l.evalAccepted st d e
      | none => match applyStray st.captureTol l.stray l.lineStray with
        | (_, some o) => l.evalStep st d o
        | (r, none) => l.evalCoast st r := by
    rcases hl with h | h <;> simp only [Lll.evaluate, h, hs, hc, Bool.false_eq_true, if_false] <;> rfl
  rw [hcommon]
  cases l.accepted with
  | some e => rfl
  | none =>
    obtain ⟨r, o⟩ := applyStray st.captureTol l.stray l.lineStray
    cases o <;> rfl

theorem evaluate_unlocked (hl : ¬(l.loop = .track ∨ l.loop = .coast)) :
    (l.evaluate st d line).lll = l ∧ (l.evaluate st d line).reports = [] ∧ (l.evaluate st d line).entered = false ∧
    (l.evaluate st d line).offer = none := by
  unfold Lll.evaluate
  split
  · exact ⟨rfl, rfl, rfl, rfl⟩
  · exact ⟨rfl, rfl, rfl, rfl⟩
  · exact ⟨rfl, rfl, rfl, rfl⟩
  · next h1 h2 h3 =>
    cases hloop : l.loop with
    | free => exact absurd hloop h1
    | capture => exact absurd hloop h2
    | holdover => exact absurd hloop h3
    | track => exact absurd (.inl hloop) hl
    | coast => exact absurd (.inr hloop) hl

/-! ## The stray record (R33) -/

theorem applyStray_none (r : Option StrayRecord) (tol : Nat) : applyStray tol r none = (none, none) := by
  cases r <;> rfl

theorem applyStray_first (o : Int) (tol : Nat) : applyStray tol none (some o) = (some ⟨1, o⟩, none) := rfl

theorem applyStray_disagrees {o : Int} {r : StrayRecord} {tol : Nat} (h : tol < (o - r.last).natAbs) :
    applyStray tol (some r) (some o) = (some ⟨1, o⟩, none) := if_neg (Nat.not_le.2 h)

theorem applyStray_agrees {o : Int} {r : StrayRecord} {tol : Nat} (h : (o - r.last).natAbs ≤ tol) :
    applyStray tol (some r) (some o) =
      if r.count = 2 then (none, some o) else (some ⟨r.count + 1, o⟩, none) := by
  refine (if_pos h).trans ?_
  simp only [Nat.reduceEqDiff]

end

/-! ## The evaluation of the line in progress -/

theorem lineReports_other {s : State} (h : s.tgn.line ≠ 16) (b : Bool) : s.lineReports b = s.evaluation.reports :=
  if_neg (by simpa [State.missLine] using h)

/-- One record handed to a FIFO with room is its next. -/
theorem produceAll_single_room {s : State} {rec : Report} (h : s.rpw.fifo.length < 8) :
    ∃ g, (produceAll [rec] s).rpw.fifo = s.rpw.fifo ++ [⟨rec.stamped s.tgn.stamp, g⟩] :=
  (Rpw.produce_room (r := s.rpw) (rec := rec.stamped s.tgn.stamp) h).1

/-- What the grid step leaves of an evaluated loop. -/
theorem advance_eq (l : Lll) (st : Settings) (len : Nat) : l.advance st len = { l with
    ideal := l.nextIdeal, nextIdeal := l.nextIdeal + BitVec.ofNat 40 len, hEff := moveToward l.hEff l.hTarget st.slew
    c := moveToward l.c 0 st.slew, accepted := none, lineStray := none } := rfl

/-- TST's record takes an error above 1 pu in magnitude of its own field (R193). -/
theorem takeOffer_count (e : Int) (s : State) : (takeOffer (some e) s).tst.count = s.tst.count.map fun r =>
    if r.stamp = s.tgn.stamp ∧ 1 < e.natAbs then { r with excess := min 1023 (r.excess + 1) } else r := by
  simp only [takeOffer]
  cases hc : s.tst.count with
  | none => simp [hc]
  | some r =>
    by_cases h : r.stamp = s.tgn.stamp ∧ 1 < e.natAbs
    · simp [h, satSucc_eq_min]
    · have hb : ¬((decide (r.stamp = s.tgn.stamp) && decide (1 < e.natAbs)) = true) := by simpa using h
      simp only [if_neg hb, hc, Option.map_some, if_neg h]

/-- Settles O22. -/
theorem measuredLineSteersTheLoop : Obligations.MeasuredLineSteersTheLoop := by
  refine ⟨fun x e s hloop hset hcoast hacc hline => ?_, roundDiv_nearest⟩
  have hev : s.evaluation = s.lll.evalAccepted s.cue.settings s.rfe.working e := by
    refine (evaluate_measured hloop hset hcoast).trans ?_
    rw [hacc]
  obtain ⟨-, hlll, -, hrpw, htst, -⟩ := lineEndWork_inField_blocks (x := x) hline
  rw [hev] at hlll htst
  have hcount := (congrArg Tst.count htst).trans (takeOffer_count e s)
  refine ⟨lineEndWork x s, exec_lineEnd x s, ?_, ?_⟩
  · intro d raw acts
    have hp : ((lineEndWork x s).lll.p : Int) = clampI raw d.pMin d.pMax := by
      rw [hlll]
      exact clampI_of_nonneg (pMin_le_pMax d)
    have hacts : (decide ((d.pMax : Int) < raw) || decide (raw < d.pMin)) = true ↔ acts := by
      rw [Bool.or_eq_true, decide_eq_true_iff, decide_eq_true_iff]
      exact or_comm
    have hreports : s.evaluation.reports = if acts ∧ s.lll.pullLimit = false then
        [repPullLimit (lineEndWork x s).lll.p (decide ((d.pMax : Int) < raw)) e] else [] := by
      rw [hev, hlll]
      by_cases h : acts ∧ s.lll.pullLimit = false
      · rw [if_pos h]
        exact if_pos (by rw [hacts.2 h.1, h.2]; rfl)
      · rw [if_neg h]
        refine if_neg fun hb => h ?_
        rw [Bool.and_eq_true, Bool.not_eq_true'] at hb
        exact ⟨hacts.1 hb.1, hb.2⟩
    refine ⟨hp, ?_, ?_, fun ha hpl h8 h16 => ?_, fun hno h16 => ?_⟩
    · rw [hlll]
      show s.lll.nextIdeal + BitVec.ofNat 40 (clampI _ _ _).toNat = s.lll.nextIdeal + BitVec.ofInt 40 (clampI _ _ _)
      rw [← BitVec.ofInt_natCast, clampI_of_nonneg (lenMin_le_lenMax d)]
      rfl
    · rw [hlll]
      exact hacts
    · rw [hrpw, lineReports_other h16, hreports, if_pos ⟨ha, hpl⟩]
      obtain ⟨g, hg⟩ := produceAll_single_room
        (rec := repPullLimit (lineEndWork x s).lll.p (decide ((d.pMax : Int) < raw)) e) h8
      exact ⟨g, by rw [hg]; simp⟩
    · rw [hrpw, lineReports_other h16, hreports, if_neg (by
        rintro ⟨h1, h2⟩
        rcases hno with h | h
        · exact h h1
        · rw [h] at h2
          exact absurd h2 (by decide))]
      rfl
  · rw [hlll, hcount]
    refine ⟨rfl, rfl, rfl, rfl, rfl, rfl, ?_, fun h => by rw [h]; rfl, fun r h => by rw [h]; rfl, rfl, rfl, rfl, rfl, rfl⟩
    show (s.lll.stats.addError e).errors = _
    simp only [FieldStats.addError] <;> rfl

/-! ## The scan point (R67, R104) -/

theorem scanHere_iff (s : State) : s.scanHere = true ↔
    s.tgn.line + s.cue.settings.scanLines = s.tgn.length ∧ 1 ≤ s.tgn.line ∧ s.tgn.scanDone = false := by
  simp [State.scanHere, and_assoc]

/-- An engine that is RUNNING with the link valid begins a scan at the scan point; any other is left as it is. -/
theorem scanBegin_cue_mpt (s : State) :
    (s.cue.engine = .running → s.cue.linkValid = true → s.cue.startup = false →
      (scanBegin s).cue.scan = some ⟨s.tgn.stamp + 1, s.cue.take⟩ ∧
      (scanBegin s).mpt.cueQ = s.mpt.cueQ ++ [.fillRead s.cue.link.toNat (s.tgn.stamp + 1)]) ∧
    (s.cue.engine ≠ .running ∨ s.cue.linkValid = false ∨ s.cue.startup = true → scanBegin s = s) := by
  refine ⟨fun h1 h2 h3 => ?_, fun h => ?_⟩
  · simp only [scanBegin, h1, h2, h3, decide_true, Bool.not_false, Bool.and_self, if_true]
    exact ⟨rfl, rfl⟩
  · refine if_neg fun hc => ?_
    simp only [Bool.and_eq_true, decide_eq_true_eq, Bool.not_eq_true'] at hc
    obtain ⟨⟨h1, h2⟩, h3⟩ := hc
    rcases h with h | h | h
    · exact h h1
    · rw [h] at h2
      exact absurd h2 (by decide)
    · rw [h] at h3
      exact absurd h3 (by decide)

/-- Settles O31. -/
theorem scanPointComesOnce : Obligations.ScanPointComesOnce := by
  intro x s hline
  obtain ⟨-, -, -, -, -, hwsk, hkbl, -, htgn⟩ := lineEndWork_inField_blocks (x := x) hline
  have ht := lineEndWork_inField (x := x) hline
  have hcue : (lineEndWork x s).cue = (scanPoint (gridStep x s).s).cue := by rw [ht]; simp
  have hmpt : (lineEndWork x s).mpt = (scanPoint (gridStep x s).s).mpt := by rw [ht]; simp
  have hends : s.endsField = false := (State.endsField_eq_false_iff s).2 hline
  have hkeep : (lineEndWork x s).cue = { s.cue with scan := (lineEndWork x s).cue.scan } := by
    rw [hcue, scanPoint_eq]
    simp
  have hnow : s.scanNow x = s.scanHere := by
    simp only [State.scanNow, gridStep_endsField, hends, scanHere_gridStep, Bool.not_false, Bool.true_and]
  refine ⟨lineEndWork x s, exec_lineEnd x s, ?_⟩
  refine ⟨by rw [htgn], by rw [htgn], by rw [htgn], by rw [htgn], by rw [htgn], by rw [htgn], by rw [htgn], hwsk, hkbl,
    by rw [hkeep], by rw [hkeep], by rw [hkeep], fun h1 h2 h3 => ?_, fun hno => ?_⟩
  · have hhere : s.scanHere = true := (scanHere_iff s).2 ⟨h1, h2, h3⟩
    obtain ⟨u, hscan, hucue, humpt, hustamp⟩ : ∃ u, scanPoint (gridStep x s).s = scanBegin u ∧ u.cue = s.cue ∧
        u.mpt = s.mpt ∧ u.tgn.stamp = s.tgn.stamp :=
      ⟨_, if_pos (by rw [scanHere_gridStep]; exact hhere), by simp, by simp, by simp⟩
    obtain ⟨hbegins, hstays⟩ := scanBegin_cue_mpt u
    rw [hucue, humpt, hustamp] at hbegins
    rw [hucue] at hstays
    refine ⟨by rw [exec_scanPoint, hnow, if_pos hhere], by rw [htgn, hhere]; rfl, fun a b c => ?_, fun hno => ?_⟩
    · rw [hcue, hmpt, hscan]
      exact hbegins a b c
    · rw [hcue, hmpt, hscan, hstays hno]
      exact ⟨hucue, humpt⟩
  · have hhere : s.scanHere = false := by
      rw [Bool.eq_false_iff]
      intro h
      obtain ⟨h1, -, h3⟩ := (scanHere_iff s).1 h
      rcases hno with hno | hno
      · exact hno h1
      · rw [h3] at hno
        exact absurd hno (by decide)
    have hscan : scanPoint (gridStep x s).s = (gridStep x s).s :=
      if_neg (by rw [scanHere_gridStep, hhere]; exact Bool.false_ne_true)
    refine ⟨by rw [exec_scanPoint, hnow, hhere]; rfl, by rw [htgn, hhere]; rfl, ?_, ?_⟩
    · rw [hcue, hscan]
      simp
    · rw [hmpt, hscan]
      simp

/-! ## Strays and phase steps (R33 to R35) -/

theorem evaluation_stray {s : State} (hl : s.lll.loop = .track ∨ s.lll.loop = .coast) (hs : s.lll.settling = false)
    (hc : s.cue.settings.inCoast s.tgn.line = false) (ha : s.lll.accepted = none) : s.evaluation =
      match (applyStray s.cue.settings.captureTol s.lll.stray s.lll.lineStray).2 with
      | some o => s.lll.evalStep s.cue.settings s.rfe.working o
      | none => s.lll.evalCoast s.cue.settings
          (applyStray s.cue.settings.captureTol s.lll.stray s.lll.lineStray).1 := by
  refine (evaluate_measured hl hs hc).trans ?_
  rw [ha]

theorem evalCoast_below {l : Lll} {st : Settings} {r : Option StrayRecord} (h : l.flywheel + 1 < st.flyLimit) :
    l.evalCoast st r = { lll := { l with
      loop := .coast, stray := r, flywheel := l.flywheel + 1, stats := l.stats.addCoast }, len := l.p } :=
  if_neg (Nat.not_le.2 h)

theorem evalCoast_limit {l : Lll} {st : Settings} {r : Option StrayRecord} (h : st.flyLimit ≤ l.flywheel + 1) :
    l.evalCoast st r =
      { lll := { l with
          loop := .holdover, stray := none, flywheel := 0, holdover := 0, stats := l.stats.addCoast }
        reports := [repHoldover l.p false l.lastE]
        len := l.p
        entered := true } := if_pos h

theorem evalCoast_p (l : Lll) (st : Settings) (r : Option StrayRecord) :
    (l.evalCoast st r).lll.p = l.p ∧ (l.evalCoast st r).len = l.p := by
  unfold Lll.evalCoast
  split <;> exact ⟨rfl, rfl⟩

/-- R34, R35: a phase step goes into C, or into the next line. -/
theorem evalStep_slew {l : Lll} {st : Settings} (d : Standard) (o : Int) (h : st.stepMode = .slew) :
    l.evalStep st d o =
      { lll := { l with loop := .track, flywheel := 0, stray := none, c := clampI (l.c + o) (-(d.half : Int)) d.half }
        reports := [repStep .slew o (clampI (l.c + o) (-(d.half : Int)) d.half)]
        len := l.p } := by
  simp only [Lll.evalStep, h]

theorem evalStep_snap {l : Lll} {st : Settings} (d : Standard) (o : Int) (h : st.stepMode = .snap) :
    l.evalStep st d o =
      { lll := { l with loop := .track, flywheel := 0, stray := none, settling := true }
        reports := [repStep .snap o 0]
        len := ((l.p : Int) + 16 * o).toNat } := by
  simp only [Lll.evalStep, h]

theorem evalStep_keeps (l : Lll) (st : Settings) (d : Standard) (o : Int) :
    (l.evalStep st d o).lll.stray = none ∧ (l.evalStep st d o).lll.loop = .track ∧
    (l.evalStep st d o).lll.flywheel = 0 ∧ (l.evalStep st d o).lll.p = l.p := by
  unfold Lll.evalStep
  split <;> exact ⟨rfl, rfl, rfl, rfl⟩

/-- Settles O26. -/
theorem thirdStrayIsAStep : Obligations.ThirdStrayIsAStep := by
  intro x o s hloop hset hcoast hacc hstray hline
  have hev := evaluation_stray hloop hset hcoast hacc
  rw [hstray] at hev
  obtain ⟨-, hlll, -, hrpw, -⟩ := lineEndWork_inField_blocks (x := x) hline
  rw [advance_eq] at hlll
  refine ⟨lineEndWork x s, exec_lineEnd x s, ?_, fun hnone hfly => ?_, fun r hr => ⟨fun hfly => ⟨fun hfar => ?_,
    fun hnear h1 => ?_⟩, fun hnear h2 => ?_⟩⟩
  · rw [hlll, hev]
    split
    · exact (evalStep_keeps _ _ _ _).2.2.2
    · exact (evalCoast_p _ _ _).1
  · rw [hnone, applyStray_first] at hev
    rw [hlll, hev, evalCoast_below hfly]
    exact ⟨rfl, rfl, rfl⟩
  · rw [hr, applyStray_disagrees hfar] at hev
    rw [hlll, hev, evalCoast_below hfly]
    exact ⟨rfl, rfl⟩
  · rw [hr, applyStray_agrees hnear, if_neg (by omega)] at hev
    rw [hlll, hev, evalCoast_below hfly, h1]
    exact ⟨rfl, rfl⟩
  · rw [hr, applyStray_agrees hnear, if_pos h2] at hev
    intro c snap
    have hev' : s.evaluation = s.lll.evalStep s.cue.settings s.rfe.working o := hev
    obtain ⟨h1, h3, h4, -⟩ := evalStep_keeps s.lll s.cue.settings s.rfe.working o
    rw [hlll, hev']
    refine ⟨h1, h3, h4, fun h16 h8 => ?_, fun hslew => ?_, fun hsnap => ?_⟩
    · rw [hrpw, lineReports_other h16, hev']
      have hmode : s.cue.settings.stepMode = .slew ∨ s.cue.settings.stepMode = .snap := by
        cases s.cue.settings.stepMode <;> simp
      rcases hmode with hm | hm
      · rw [evalStep_slew _ _ hm]
        obtain ⟨g, hg⟩ := produceAll_single_room (rec := repStep .slew o c) h8
        refine ⟨g, hg.trans ?_⟩
        simp only [snap, hm, reduceCtorEq, if_false]
        rfl
      · rw [evalStep_snap _ _ hm]
        obtain ⟨g, hg⟩ := produceAll_single_room (rec := repStep .snap o 0) h8
        refine ⟨g, hg.trans ?_⟩
        simp only [snap, hm, if_true]
        rfl
    · rw [evalStep_slew _ _ hslew]
      exact ⟨rfl, hset, rfl⟩
    · rw [evalStep_snap _ _ hsnap]
      refine ⟨rfl, fun h0 => ?_⟩
      show s.lll.nextIdeal + BitVec.ofNat 40 ((s.lll.p : Int) + 16 * o).toNat = _
      rw [← BitVec.ofInt_natCast, Int.toNat_of_nonneg h0]

end Sys2Proof.Machine
end

section
/-!
PROOFS. What the works of a boundary behind LLL's carry on: the grid, the statistics, the records written, and an
aligner or a loop that is at rest (R23, R32, R56, R66).
-/

namespace Sys2Proof.Machine

/-! ### The cues as steps of a property -/

namespace SharedKeeps

variable {P : State → Prop} {s : State} {c : Copy}

theorem produceAll (hP : SharedKeeps P) (rs : List Report) (h : P s) : P (produceAll rs s) := by
  induction rs generalizing s with
  | nil => exact h
  | cons r rs ih => exact ih (hP.produce r s h)

theorem stackUnder (hP : SharedKeeps P) {i : Fin 8} {f : State → CopyResult} (h : P s) (hf : P (f s).1) :
    P (stackUnder c i s f).1 := by
  unfold Machine.stackUnder
  dsimp only
  split
  · exact hP.onFault h (hP.produce _ _ h)
  · exact hf

theorem rangeCheck (hP : SharedKeeps P) {n : Nat} {fs : List GeoField} {f : State → CopyResult} (h : P s)
    (hf : ∀ t, P t → P (f t).1) : P (rangeCheck c n fs s f).1 := by
  unfold Machine.rangeCheck
  split
  · exact hf s h
  · exact hP.onFault h (hf _ (hP.produce _ _ h))

theorem lockdownCheck (hP : SharedKeeps P) {f : State → CopyResult} (h : P s) (hf : P (f s).1) :
    P (lockdownCheck c s f).1 := by
  unfold Machine.lockdownCheck
  split
  · exact hP.onFault h (hP.produce _ _ h)
  · exact hf

theorem deferLoad (hP : SharedKeeps P) (isIdle : Bool) (h : P s) : P (deferLoad isIdle c s).1 := by
  unfold Machine.deferLoad
  split
  · exact hP.produce _ _ h
  split
  · exact h
  · exact hP.produce _ _ (hP.cue _ _ rfl (.same rfl rfl rfl) h)

end SharedKeeps

/-! ### What is carried on -/

/-- The aligner is in F_SEEK with nothing to come (R56). -/
def Fal.Lost (f : Fal) : Prop := f.field = .seek ∧ f.shift = 0 ∧ f.miss = 0 ∧ f.startSeen = false

/-- The loop runs free at the nominal period (R41, R43). -/
def State.FreeRuns (s : State) : Prop :=
  s.lll.loop = .free ∧ s.lll.p = s.rfe.working.nominal ∧ s.lll.holdover = 0

theorem Cue.Leaves.trans {a b c : Cue} (h : a.Leaves b) (h' : b.Leaves c) : a.Leaves c := by
  refine ⟨h'.link.trans h.link, ?_⟩
  rcases h'.copies with ⟨hd, hi⟩ | hnone
  · rw [hd, hi]
    exact h.copies
  · exact .inr hnone

/-- `t` carries on from `s`: the instant, the grid and the statistics as they were, the records behind those
written, and what was at rest still at rest. -/
structure State.Carried (s t : State) : Prop where
  tick      : t.rfe.tick = s.rfe.tick
  ideal     : t.lll.ideal = s.lll.ideal
  nextIdeal : t.lll.nextIdeal = s.lll.nextIdeal
  stats     : t.lll.stats = s.lll.stats
  ended     : t.rpw.ended = s.rpw.ended
  fifo      : s.rpw.fifo <+: t.rpw.fifo
  run       : s.tst.run = [] → t.tst.run = []
  lost      : s.fal.Lost → t.fal.Lost
  free      : s.FreeRuns → t.FreeRuns
  cue       : s.cue.Leaves t.cue

namespace State.Carried

variable {a s t u : State}

theorem trans (h : s.Carried t) (h' : t.Carried u) : s.Carried u where
  tick := h'.tick.trans h.tick
  ideal := h'.ideal.trans h.ideal
  nextIdeal := h'.nextIdeal.trans h.nextIdeal
  stats := h'.stats.trans h.stats
  ended := h'.ended.trans h.ended
  fifo := h.fifo.trans h'.fifo
  run := h'.run ∘ h.run
  lost := h'.lost ∘ h.lost
  free := h'.free ∘ h.free
  cue := h.cue.trans h'.cue

/-- A work that leaves the loop, the aligner, the working standard and the run alone. -/
theorem of_front (htick : t.rfe.tick = s.rfe.tick) (hwork : t.rfe.working = s.rfe.working) (hlll : t.lll = s.lll)
    (hfal : t.fal = s.fal) (hrun : t.tst.run = s.tst.run) (hended : t.rpw.ended = s.rpw.ended)
    (hfifo : s.rpw.fifo <+: t.rpw.fifo) (hcue : s.cue.Leaves t.cue) : s.Carried t where
  cue := hcue
  tick := htick
  ideal := by rw [hlll]
  nextIdeal := by rw [hlll]
  stats := by rw [hlll]
  ended := hended
  fifo := hfifo
  run h := hrun.trans h
  lost h := by rw [hfal]; exact h
  free h := by unfold State.FreeRuns; rw [hlll, hwork]; exact h

/-- A work of the other blocks, without a report. -/
theorem of_eq (hrfe : t.rfe = s.rfe) (hlll : t.lll = s.lll) (hfal : t.fal = s.fal) (hrun : t.tst.run = s.tst.run)
    (hended : t.rpw.ended = s.rpw.ended) (hfifo : t.rpw.fifo = s.rpw.fifo) (hcue : s.cue.Leaves t.cue) : s.Carried t :=
  of_front (by rw [hrfe]) (by rw [hrfe]) hlll hfal hrun hended (by rw [hfifo]) hcue

theorem refl (s : State) : s.Carried s := of_eq rfl rfl rfl rfl rfl rfl (.same rfl rfl rfl)

/-- A work of the other blocks, with the reports it gives. -/
theorem of_reports (hrfe : t.rfe = s.rfe) (hlll : t.lll = s.lll) (hfal : t.fal = s.fal)
    (hrun : t.tst.run = s.tst.run) (hended : t.rpw.ended = s.rpw.ended) (hfifo : s.rpw.fifo <+: t.rpw.fifo)
    (hcue : s.cue.Leaves t.cue) : s.Carried t :=
  of_front (by rw [hrfe]) (by rw [hrfe]) hlll hfal hrun hended hfifo hcue

theorem produce (r : Report) (s : State) : s.Carried (produce r s) :=
  of_reports rfl rfl rfl rfl (by simp [Machine.produce]) (produce_prefix r s) (.same rfl rfl rfl)

theorem shared : SharedKeeps a.Carried where
  produce r s h := h.trans (produce r s)
  latch _ _ h := h.trans (of_eq rfl rfl rfl rfl rfl rfl (.same rfl rfl rfl))
  mpt _ _ h := h.trans (of_eq rfl rfl rfl rfl rfl rfl (.same rfl rfl rfl))
  cue _ _ _ hcue h := h.trans (of_eq rfl rfl rfl rfl rfl rfl hcue)

theorem produceAll (rs : List Report) (s : State) : s.Carried (produceAll rs s) := shared.produceAll rs (refl s)

/-! ### The aligner's and the loop's own events -/

theorem falSeek (why : LostReason) (s : State) : s.Carried (falSeek why s) := by
  have hlost : (s.fal.enterSeek why).1.Lost := by
    unfold Fal.enterSeek
    dsimp only
    split <;> exact ⟨rfl, rfl, rfl, rfl⟩
  have hset : s.Carried { s with fal := (s.fal.enterSeek why).1 } :=
    ⟨rfl, rfl, rfl, rfl, rfl, List.prefix_rfl, id, fun _ => hlost, id, .same rfl rfl rfl⟩
  exact hset.trans (produceAll _ _)

/-- An event at the loop that leaves its grid and statistics, and a loop that runs free. -/
theorem withLoop {r : Lll × List Report} (hi : r.1.ideal = s.lll.ideal) (hn : r.1.nextIdeal = s.lll.nextIdeal)
    (hs : r.1.stats = s.lll.stats)
    (hf : s.FreeRuns → r.1.loop = .free ∧ r.1.p = s.rfe.working.nominal ∧ r.1.holdover = 0) :
    s.Carried (s.withLoop r) := by
  have hset : s.Carried { s with lll := r.1 } := ⟨rfl, hi, hn, hs, rfl, List.prefix_rfl, id, id, hf, .same rfl rfl rfl⟩
  exact hset.trans (produceAll _ _)

theorem sourceNotice (s : State) : s.Carried (sourceNotice s) := by
  have hswitch : s.Carried (s.withLoop s.lll.switch) := by
    unfold Lll.switch
    split
    · exact withLoop rfl rfl rfl id
    · exact withLoop rfl rfl rfl fun h => ⟨h.1, h.2.1, rfl⟩
    · next hne _ => exact withLoop rfl rfl rfl fun h => absurd h.1 hne
  exact hswitch.trans (falSeek _ _)

theorem changeActive (i : Input) (why : SwitchReason) (s : State) : s.Carried (changeActive i why s) := by
  have hset : s.Carried { s with rfe := { s.rfe with active := i, differ := 0, warned := false } } :=
    of_front rfl rfl rfl rfl rfl rfl List.prefix_rfl (.same rfl rfl rfl)
  exact (shared.latch _ _ (shared.produce _ _ hset)).trans (sourceNotice _)

theorem changeStandard (d : Standard) (forced : Bool) (s : State) : s.Carried (changeStandard d forced s) := by
  let s1 : State := Machine.produce (repStandard d s.rfe.active forced) { s with rfe := { s.rfe with working := d } }
  have hprod := produce (repStandard d s.rfe.active forced) { s with rfe := { s.rfe with working := d } }
  have hloop : s.Carried (s1.withLoop (s1.lll.standard d)) := by
    have hset : s.Carried { s1 with lll := (s1.lll.standard d).1 } :=
      ⟨rfl, rfl, rfl, rfl, hprod.ended, hprod.fifo, hprod.run, id, fun _ => ⟨rfl, rfl, rfl⟩, .same rfl rfl rfl⟩
    exact hset.trans (produceAll _ _)
  exact hloop.trans (falSeek _ _)

theorem policyArrival (old new : Policy) (s : State) : s.Carried (policyArrival old new s) := by
  unfold Machine.policyArrival
  split
  · exact refl s
  split
  · exact of_front rfl rfl rfl rfl rfl rfl List.prefix_rfl (.same rfl rfl rfl)
  split
  · exact refl s
  · exact changeActive _ _ _

theorem stdModeLoad (old new : StdMode) (s : State) : s.Carried (stdModeLoad old new s) := by
  have hset : s.Carried { s with rfe := { s.rfe with differ := 0, warned := false } } :=
    of_front rfl rfl rfl rfl rfl rfl List.prefix_rfl (.same rfl rfl rfl)
  unfold Machine.stdModeLoad
  split
  · exact refl s
  dsimp only
  split
  · exact hset
  split
  · exact hset
  · exact hset.trans (changeStandard _ _ _)

theorem vOffsetChange (old : Nat) (s : State) : s.Carried (vOffsetChange old s) := by
  unfold Machine.vOffsetChange
  split
  · next h =>
    have hlock : s.fal.field = .lock := by
      simp only [ne_eq, Bool.and_eq_true, decide_eq_true_eq] at h
      exact h.2
    have hset : s.Carried { s with fal := { s.fal with field := .align, miss := 0 } } :=
      ⟨rfl, rfl, rfl, rfl, rfl, List.prefix_rfl, id, fun h => absurd (hlock.symm.trans h.1) nofun, id,
        .same rfl rfl rfl⟩
    exact hset.trans (produce _ _)
  · exact refl s

theorem target (h : Int) (s : State) : s.Carried { s with lll := { s.lll with hTarget := h } } :=
  ⟨rfl, rfl, rfl, rfl, rfl, List.prefix_rfl, id, id, id, .same rfl rfl rfl⟩

theorem testModeLoad (m : TestMode) (s : State) : s.Carried (testModeLoad m s) := by
  have hset (x : Tst) (hx : x.run = [] ∨ x.run = s.tst.run) : s.Carried { s with tst := x } :=
    ⟨rfl, rfl, rfl, rfl, rfl, List.prefix_rfl, fun h => hx.elim id (·.trans h), id, id, .same rfl rfl rfl⟩
  unfold Machine.testModeLoad
  split
  · exact refl s
  split
  · exact (hset _ (.inl rfl)).trans (sourceNotice _)
  split
  · exact (hset _ (.inl rfl)).trans (sourceNotice _)
  · exact hset _ (.inr rfl)

/-! ### Loads (R81 to R91) -/

theorem loadEffects (old : Settings) (s : State) : s.Carried (loadEffects old s) := by
  have hrestart : s.Carried (if s.cue.settings.restart then slicerRestart s else s) := by
    split
    · exact of_front rfl rfl rfl rfl rfl rfl List.prefix_rfl (.same rfl rfl rfl)
    · exact refl s
  exact ((((hrestart.trans (stdModeLoad _ _ _)).trans (policyArrival _ _ _)).trans (target _ _)).trans
    (vOffsetChange _ _)).trans (testModeLoad _ _)

theorem rpwNext (s : State) : s.Carried (rpwNext s) :=
  of_eq (by simp) (by simp) (by simp) (by simp) (by rw [rpwNext_eq]) (by simp)
    (.same (by simp) (by simp) (by simp))

theorem checkIndices (tag : Word) (s : State) : s.Carried (checkIndices tag s) := by
  have htake : s.Carried (if s.cue.qLen ≤ s.cue.take then
      postTake (Machine.produce (repWarnIndex tag 0 s.cue.take s.cue.qLen)
        { s with cue := { s.cue with take := 0 } }) else s) := by
    split
    · exact shared.postTake (shared.produce _ _ (of_eq rfl rfl rfl rfl rfl rfl (.same rfl rfl rfl)))
    · exact refl s
  unfold Machine.checkIndices
  generalize (if s.cue.qLen ≤ s.cue.take then _ else s) = s1 at htake
  dsimp only
  split
  · have hput : s1.Carried { s1 with rpw := { s1.rpw with put := 0, putDue := true } } :=
      of_eq rfl rfl rfl rfl rfl rfl (.same rfl rfl rfl)
    exact (htake.trans hput).trans (produce _ _)
  · exact htake

theorem adoptLoad (tag : Word) (x : Image) (take put : Nat) (s : State) : s.Carried (adoptLoad tag x take put s) := by
  have hadopt : s.Carried (adoptDescriptors x take put s) := of_eq rfl rfl rfl rfl rfl rfl (.same rfl rfl rfl)
  unfold Machine.adoptLoad
  dsimp only
  refine (hadopt.trans (checkIndices tag _)).trans ?_
  generalize Machine.checkIndices tag (adoptDescriptors x take put s) = s1
  let s2 : State := { s1 with cue := { s1.cue with settings := settingsOf x.settings s1.rfe.working } }
  have hset : s1.Carried s2 := of_eq rfl rfl rfl rfl rfl rfl (.same rfl rfl rfl)
  have heff := (hset.trans (produceAll (settingWarnings tag x.settings s1.rfe.working) s2)).trans
    (loadEffects s.cue.settings _)
  generalize Machine.loadEffects s.cue.settings
    (Machine.produceAll (settingWarnings tag x.settings s1.rfe.working) s2) = s3 at heff
  have hlast (st : BitVec 7) : s1.Carried { s3 with cue := { s3.cue with linkValid := true, startup := false, masks := st } } :=
    heff.trans (of_eq rfl rfl rfl rfl rfl rfl (.same rfl rfl rfl))
  exact (hlast _).trans (rpwNext _)

theorem closeLoad (s : State) : s.Carried (closeLoad s) := of_eq rfl rfl rfl rfl rfl rfl (.same rfl rfl rfl)

theorem abortLoading (why : AbortReason) (s : State) : s.Carried (abortLoading why s) := by
  unfold Machine.abortLoading abortLoad
  split
  · split
    · exact (closeLoad s).trans (produce _ _)
    · exact refl s
  · exact refl s

theorem linkFault (t : Word) (b : Bool) (n : Nat) (s : State) : s.Carried (linkFault t b n s) := by
  unfold Machine.linkFault
  dsimp only
  refine .trans ?_ (abortLoading _ _)
  exact shared.produce _ _ (of_eq rfl rfl rfl rfl rfl rfl (.none rfl rfl rfl))

/-! ### The cues -/

theorem withStack (st : Stack) (s : State) : s.Carried (withStack s st) := of_eq rfl rfl rfl rfl rfl rfl (.same rfl rfl rfl)

theorem cuePush (c : Copy) (s : State) : s.Carried (cuePush c s).1 := by
  unfold Machine.cuePush
  dsimp only
  split
  · exact shared.onFault (refl s) (produce _ _)
  · exact shared.rangeCheck (refl s) fun t ht => ht.trans (withStack _ _)

theorem cueExch (c : Copy) (s : State) : s.Carried (cueExch c s).1 := by
  unfold Machine.cueExch
  dsimp only
  split
  · exact shared.stackUnder (refl s) (withStack _ _)
  · exact withStack _ _

theorem cueEdit (c : Copy) (s : State) : s.Carried (cueEdit c s).1 := by
  unfold Machine.cueEdit
  dsimp only
  split
  · exact refl s
  · exact shared.stackUnder (refl s) (shared.rangeCheck (refl s) fun t ht => ht.trans (withStack _ _))

theorem cueKeyload (isIdle : Bool) (c : Copy) (s : State) : s.Carried (cueKeyload isIdle c s).1 := by
  have busy := shared.onFault (k := .busy) (c := c) (refl s) (shared.deferLoad isIdle (c := c) (refl s))
  unfold Machine.cueKeyload
  dsimp only
  split
  · split
    · exact refl s
    · split
      · exact (closeLoad s).trans (produce _ _)
      · exact busy
  · split
    · exact shared.onFault (refl s) (produce _ _)
    · split
      · exact busy
      · exact of_eq rfl rfl rfl rfl rfl rfl (.same rfl rfl rfl)

theorem cuePhase (c : Copy) (s : State) : s.Carried (cuePhase c s).1 := by
  refine shared.lockdownCheck (refl s) ?_
  dsimp only
  split
  · exact shared.onFault (refl s) (produce _ _)
  · refine .trans (t := { s with
      cue := { s.cue with settings := { s.cue.settings with slew := c.words.w6.toNat, vOffset := c.words.w5.toNat } }
      lll := { s.lll with hTarget := c.words.w4.toInt } }) ?_ (vOffsetChange _ _)
    exact ⟨rfl, rfl, rfl, rfl, rfl, List.prefix_rfl, id, id, id, .same rfl rfl rfl⟩

theorem cueSelect (isIdle : Bool) (c : Copy) (s : State) : s.Carried (cueSelect isIdle c s).1 := by
  refine shared.lockdownCheck (refl s) ?_
  have hpolicy : s.Carried { s with cue := { s.cue with settings :=
      { s.cue.settings with policy := policyOf c.words.w4.toNat } } } := of_eq rfl rfl rfl rfl rfl rfl (.same rfl rfl rfl)
  exact (shared.reportDone c.words (shared.retire isIdle hpolicy)).trans (policyArrival _ _ _)

theorem cueSettings (isIdle : Bool) (c : Copy) (s : State) : s.Carried (cueSettings isIdle c s).1 := by
  refine shared.lockdownCheck (refl s) ?_
  dsimp only
  split
  · exact refl s
  split
  · exact linkFault _ _ _ _
  cases isIdle with
  | true => exact shared.reportDone _ (adoptLoad _ _ _ _ _)
  | false =>
    exact shared.reportDone _ (shared.writeTake ((shared.advanceTake (refl s)).trans (adoptLoad _ _ _ _ _)))

theorem cueSnapshot (c : Copy) (s : State) : s.Carried (cueSnapshot c s).1 := by
  unfold Machine.cueSnapshot
  dsimp only
  split
  · exact (produceAll _ s).trans (of_eq rfl rfl rfl rfl rfl rfl (.same rfl rfl rfl))
  · exact produceAll _ s

theorem cueWaitlock (isIdle : Bool) (c : Copy) (s : State) : s.Carried (cueWaitlock isIdle c s).1 := by
  unfold Machine.cueWaitlock
  dsimp only
  generalize (if c.words.w4.toNat = 0 then WaitCond.line else .field) = cond
  split
  · exact refl s
  · exact of_eq rfl rfl rfl rfl rfl rfl (.same rfl rfl rfl)

theorem kindEffect (isIdle : Bool) (k : CueKind) (c : Copy) (s : State) : s.Carried (kindEffect isIdle k c s).1 := by
  cases k with
  | none | halt => exact refl s
  | mark => exact produce _ s
  | push => exact cuePush c s
  | exch => exact cueExch c s
  | edit => exact cueEdit c s
  | pop | drop | show_ | park | fade => exact shared.stackUnder (refl s) (withStack _ _)
  | keyload => exact cueKeyload isIdle c s
  | phase => exact cuePhase c s
  | select => exact cueSelect isIdle c s
  | settings => exact cueSettings isIdle c s
  | output => exact of_eq rfl rfl rfl rfl rfl rfl (.same rfl rfl rfl)
  | waitlock => exact cueWaitlock isIdle c s
  | snapshot => exact cueSnapshot c s

theorem engine : EngineKeeps a.Carried where
  toSharedKeeps := shared
  kind isIdle k c s _ _ h := h.trans (kindEffect isIdle k c s)

theorem engineBoundary (s : State) : s.Carried (engineBoundary s).1 := engine.engineBoundary (refl s)

end State.Carried

end Sys2Proof.Machine
end

section
/-!
PROOFS. The field boundary: its opening by TGN, LLL and TST, what the works behind it carry on, and what they
leave where no cue runs (R40, R41, R50, R60, R66, R139, R157, R193, R194).
-/

namespace Sys2Proof.Machine

/-! ### The opening of a boundary (R32, R40, R41, R60, R140, R193) -/

/-- TGN's, LLL's and TST's work of a boundary, before the aligner's and the cues. -/
def boundaryStart (entered : Bool) (s : State) : State :=
  keepEnded (countHoldover entered (handStatistics s.tgn.stamp (nextField s)))

/-- The holdover limit is reached at this boundary, and not by the line end that entered HOLDOVER (R40). -/
def State.expiresNow (entered : Bool) (s : State) : Bool := !entered && s.holdoverOver

/-- The loop as a boundary's opening leaves it (R32, R40, R41). -/
def State.openedLoop (entered : Bool) (s : State) : Lll :=
  if s.expiresNow entered then ({ s.lll with stats := {} } : Lll).expire s.rfe.working |>.1
  else if !entered && s.lll.inHoldover then { s.lll with stats := {}, holdover := satSucc 255 s.lll.holdover }
  else { s.lll with stats := {} }

/-- The aligner as a boundary's opening leaves it (R56). -/
def State.openedFal (entered : Bool) (s : State) : Fal :=
  if s.expiresNow entered then (s.fal.enterSeek .free).1 else s.fal

/-- TST's report of the field that ended (R193). -/
def State.testReports (s : State) : List Report :=
  match s.tst.count with
  | some r => if r.stamp = s.tgn.stamp then [repTestField r.excess s.lll.stats.accepted] else []
  | none => []

/-- The reports of the holdover limit (R41, R56). -/
def State.expiryReports (entered : Bool) (s : State) : List Report :=
  if s.expiresNow entered then repFree s.rfe.working.nominal false :: (s.fal.enterSeek .free).2 else []

/-- TST's record as the boundary leaves it (R193). -/
def State.openedCount (s : State) : Option CountRecord :=
  match s.tst.count with
  | some r => if r.stamp = s.tgn.stamp then some ⟨s.tgn.stamp + 1, 0⟩ else some r
  | none => none

/-- The field that begins, with the statistics of the one that ended at the report writer. -/
def State.opening (s : State) : State :=
  { s with tgn := (nextField s).tgn, rpw := { s.rpw with ended := s.lll.stats } }

theorem handStatistics_eq (s : State) : handStatistics s.tgn.stamp (nextField s) = { s with
    tgn := (nextField s).tgn, lll := { s.lll with stats := {} }
    rpw := (produceAll s.testReports s.opening).rpw, tst := { s.tst with count := s.openedCount } } := by
  unfold handStatistics State.testReports State.openedCount
  simp only [nextField_frame]
  cases h : s.tst.count with
  | none =>
    simp only [produceAll, State.opening]
    rw [← h]
  | some r =>
    dsimp only
    split
    · rfl
    · rw [← h]
      rfl

theorem falSeek_eq (why : LostReason) (s : State) : falSeek why s = { s with
    fal := (s.fal.enterSeek why).1, rpw := (produceAll (s.fal.enterSeek why).2 s).rpw } :=
  produceAll_set (s.fal.enterSeek why).2 s.lll (s.fal.enterSeek why).1 s

theorem falSeek_withLoop_eq (why : LostReason) (r : Lll × List Report) (s : State) :
    falSeek why (s.withLoop r) = { s with
      lll := r.1, fal := (s.fal.enterSeek why).1
      rpw := (produceAll (r.2 ++ (s.fal.enterSeek why).2) s).rpw } := by
  have hrpw := produceAll_rpw_congr (s := produceAll r.2 s)
    (t := { s with lll := r.1, rpw := (produceAll r.2 s).rpw }) (s.fal.enterSeek why).2 rfl (by simp)
  rw [falSeek_eq, withLoop_eq, produceAll_append, ← hrpw]

theorem countHoldover_eq (entered : Bool) (s : State) : countHoldover entered s = { s with
    lll := if s.expiresNow entered then (s.lll.expire s.rfe.working).1
      else if !entered && s.lll.inHoldover then { s.lll with holdover := satSucc 255 s.lll.holdover } else s.lll
    fal := s.openedFal entered, rpw := (produceAll (s.expiryReports entered) s).rpw } := by
  unfold countHoldover State.openedFal State.expiryReports State.expiresNow
  cases entered with
  | true => rfl
  | false =>
    cases hover : s.holdoverOver with
    | true =>
      have hin : s.lll.inHoldover = true := by
        unfold State.holdoverOver at hover
        exact (Bool.and_eq_true_iff.1 hover).1
      simp only [hin, Bool.not_true, Bool.or_self, Bool.false_eq_true, if_false, Bool.not_false, Bool.and_self, if_true]
      exact falSeek_withLoop_eq .free (s.lll.expire s.rfe.working) s
    | false =>
      cases hin : s.lll.inHoldover <;> rfl

/-- The opening of a boundary, block by block. -/
theorem boundaryStart_eq (entered : Bool) (s : State) : boundaryStart entered s = { s with
    tgn := (nextField s).tgn, lll := s.openedLoop entered, fal := s.openedFal entered
    rpw := (produceAll (s.testReports ++ s.expiryReports entered) s.opening).rpw
    tst := { s.tst with count := s.openedCount }
    wsk := { s.wsk with prev := if s.tgn.drives.isEmpty then none else some s.wsk.stack }
    kbl := { s.kbl with replaced := none } } := by
  unfold boundaryStart
  let h : State := { s with
    tgn := (nextField s).tgn, lll := { s.lll with stats := {} }
    rpw := (produceAll s.testReports s.opening).rpw, tst := { s.tst with count := s.openedCount } }
  have hrpw : (produceAll (s.expiryReports entered) h).rpw =
      (produceAll (s.testReports ++ s.expiryReports entered) s.opening).rpw := by
    rw [produceAll_append]
    exact produceAll_rpw_congr _ rfl (by simp [h, State.opening])
  have hfal : h.openedFal entered = s.openedFal entered := rfl
  have hrep : h.expiryReports entered = s.expiryReports entered := rfl
  have hlll : (if h.expiresNow entered then (h.lll.expire h.rfe.working).1
      else if !entered && h.lll.inHoldover then { h.lll with holdover := satSucc 255 h.lll.holdover } else h.lll) =
      s.openedLoop entered := rfl
  rw [show handStatistics s.tgn.stamp (nextField s) = h from handStatistics_eq s, countHoldover_eq _ h, hfal, hrep,
    hrpw, hlll]
  rfl

/-! ### What the works behind the opening carry on -/

namespace State.Carried

theorem falBoundary (s : State) : s.Carried (falBoundary s) :=
  ⟨rfl, rfl, rfl, rfl, rfl, List.prefix_rfl, id,
    fun h => ⟨h.1, by simp [Machine.falBoundary, Fal.nextLength, h.1], h.2.2⟩, id, .same rfl rfl rfl⟩

theorem stepFades (s : State) : s.Carried (stepFades s) := of_eq rfl rfl rfl rfl rfl rfl (.same rfl rfl rfl)

theorem nolockTest (s : State) : s.Carried (nolockTest s) := by
  unfold Machine.nolockTest
  split
  · exact shared.produce _ _ (of_eq rfl rfl rfl rfl rfl rfl (.same rfl rfl rfl))
  · exact refl s

theorem fieldstat (s : State) : s.Carried (fieldstat s) := by
  unfold Machine.fieldstat
  split
  · exact produce _ s
  · exact refl s

theorem swapTest (s : State) : s.Carried (swapTest s) := by
  have hkbl (k : Kbl) : s.Carried { s with kbl := k } := of_eq rfl rfl rfl rfl rfl rfl (.same rfl rfl rfl)
  by_cases h : s.kbl.loader ≠ .ready ∨ s.kbl.load = none
  · rw [swapTest_of_not_ready h]
    exact refl s
  push Not at h
  obtain ⟨r, hload⟩ := Option.ne_none_iff_exists'.1 h.2
  cases hheld : s.swapProtected r || (s.swapGuard r).isSome with
  | true =>
    rw [swapTest_held h.1 hload hheld]
    split
    · exact hkbl _
    · exact shared.produce _ _ (hkbl _)
  | false =>
    rw [swapTest_swaps h.1 hload hheld]
    exact shared.produce _ _ (hkbl _)

theorem boundaryGet (s : State) : s.Carried (boundaryGet s) := by
  unfold Machine.boundaryGet
  split
  · exact refl s
  · exact .trans (of_eq rfl rfl rfl rfl rfl rfl (.same rfl rfl rfl) : s.Carried { s with rpw := { s.rpw with getDue := true } }) (rpwNext _)

theorem postStatus (s : State) : s.Carried (postStatus s) := by
  unfold Machine.postStatus
  (repeat' split) <;> exact of_eq rfl rfl rfl rfl rfl rfl (.same rfl rfl rfl)

theorem statusCopy (n : Nat) (s : State) : s.Carried (statusCopy n s) := by
  unfold Machine.statusCopy
  split
  · have hcopy (l : List (Nat × Word)) : s.Carried
        { s with rpw := { s.rpw with status := l }, mpt := { s.mpt with sta := none } } :=
      of_eq rfl rfl rfl rfl rfl rfl (.same rfl rfl rfl)
    exact (hcopy _).trans (postStatus _)
  · exact refl s

theorem atPlace {α : Type} [DecidableEq α] (p here : α) {f : State → State} (hf : ∀ u : State, u.Carried (f u)) (s : State) :
    s.Carried (atPlace p here f s) := by
  unfold Machine.atPlace
  split
  · exact hf s
  · exact refl s

theorem boundaryHead (o : WorkOrder) (e : Bool) (s : State) : (boundaryStart e s).Carried (boundaryHead o e s) := by
  have hfal : (boundaryStart e s).Carried
      (if o.falLate then boundaryStart e s else Machine.falBoundary (boundaryStart e s)) := by
    split
    · exact refl _
    · exact falBoundary _
  exact (hfal.trans (atPlace _ _ stepFades _)).trans (atPlace _ _ nolockTest _)

theorem boundaryCues (o : WorkOrder) (s : State) : s.Carried (boundaryCues o s).1 := by
  have hfal : s.Carried (if o.falLate then Machine.falBoundary (Machine.engineBoundary s).1
      else (Machine.engineBoundary s).1) := by
    split
    · exact (engineBoundary s).trans (falBoundary _)
    · exact engineBoundary s
  exact (hfal.trans (atPlace _ _ stepFades _)).trans (atPlace _ _ nolockTest _)

theorem swapAndStat (o : WorkOrder) (s : State) : s.Carried (swapAndStat o s) := by
  have swap (u : State) := (swapTest u).trans (atPlace o.wsk .last stepFades _)
  have tst (u : State) := atPlace o.tst .between nolockTest u
  unfold Machine.swapAndStat
  split
  · exact ((fieldstat s).trans (tst _)).trans (swap _)
  · exact ((swap s).trans (tst _)).trans (atPlace _ _ fieldstat _)

theorem boundaryTail (o : WorkOrder) (n : Nat) (s : State) : s.Carried (boundaryTail o n s) := by
  have tst (here : TstPlace) (u : State) := atPlace o.tst here nolockTest u
  have hcopy := (((swapAndStat o s).trans (tst .beforeCopy _)).trans (boundaryGet _)).trans (statusCopy n _)
  have hlast := ((hcopy.trans (tst .afterCopy _)).trans (atPlace o.stat .last fieldstat _)).trans (tst .last _)
  exact hlast.trans (of_eq rfl rfl rfl rfl rfl rfl (.same rfl rfl rfl))

/-- Whatever cues a boundary runs, what its opening leaves is carried on. -/
theorem fieldBoundary (o : WorkOrder) (e : Bool) (s : State) : (boundaryStart e s).Carried (fieldBoundary o e s) :=
  ((boundaryHead o e s).trans (boundaryCues o _)).trans (boundaryTail o _ _)

end State.Carried

end Sys2Proof.Machine
end

section
/-!
PROOFS. What every line end does to the grid, with O21.
-/

namespace Sys2Proof.Machine

/-! ### The grid at a line end (R23) -/

/-- The opening of a boundary moves neither the grid nor the instant. -/
theorem openedLoop_grid (e : Bool) (s : State) :
    (s.openedLoop e).ideal = s.lll.ideal ∧ (s.openedLoop e).nextIdeal = s.lll.nextIdeal := by
  unfold State.openedLoop
  split
  · exact ⟨rfl, rfl⟩
  split <;> exact ⟨rfl, rfl⟩

/-- The state in which a line begins: the boundary behind it, or the next line of the field. -/
def lineEnded (x : LineInputs) (s : State) : State :=
  let r := gridStep x s
  if r.s.endsField then fieldBoundary x.order r.entered r.s else nextLine (scanPoint r.s)

theorem lineEndWork_eq (x : LineInputs) (s : State) : lineEndWork x s = beginLine (lineEnded x s) := rfl

theorem gridStep_grid (x : LineInputs) (s : State) :
    (gridStep x s).s.lll.ideal = s.lll.nextIdeal ∧
    (gridStep x s).s.lll.nextIdeal = s.lll.nextIdeal + BitVec.ofNat 40 s.evaluation.len := by
  obtain ⟨hi, hn, -⟩ := evaluate_keeps s.lll s.cue.settings s.rfe.working s.tgn.line
  rw [gridStep_eq]
  exact ⟨hn, congrArg (· + _) hn⟩

/-- The grid, the instant and the pins as the line that begins finds them. -/
theorem lineEnded_grid (x : LineInputs) (s : State) :
    let t := lineEnded x s
    t.lll.ideal = s.lll.nextIdeal ∧ t.lll.nextIdeal = s.lll.nextIdeal + BitVec.ofNat 40 s.evaluation.len ∧
    t.rfe.tick = s.lineEndTick ∧ t.pins = { hold := x.hold, tally := x.tally } ∧
    t.tgn.keyUntil = s.tgn.keyUntil ∧ t.tgn.key = s.tgn.key ∧ t.mem = s.mem := by
  obtain ⟨hideal, hnext⟩ := gridStep_grid x s
  have htick : (gridStep x s).s.rfe.tick = s.lineEndTick := by rw [gridStep_eq]
  unfold lineEnded
  dsimp only
  split
  · obtain ⟨n, a, b, htgn⟩ := fieldBoundary_tgn x.order (gridStep x s).entered (gridStep x s).s
    have hc := State.Carried.fieldBoundary x.order (gridStep x s).entered (gridStep x s).s
    obtain ⟨hi, hn⟩ := openedLoop_grid (gridStep x s).entered (gridStep x s).s
    have hstart := boundaryStart_eq (gridStep x s).entered (gridStep x s).s
    refine ⟨hc.ideal.trans ?_, hc.nextIdeal.trans ?_, hc.tick.trans ?_, ?_, ?_, ?_, by simp⟩
    · rw [hstart]
      exact hi.trans hideal
    · rw [hstart]
      exact hn.trans hnext
    · rw [hstart]
      exact htick
    · simp [gridStep_pins]
    · rw [htgn]
      simp
    · rw [htgn]
      simp
  · refine ⟨?_, ?_, ?_, ?_, ?_, ?_, by simp⟩
    · simpa using hideal
    · simpa using hnext
    · simpa using htick
    · simp [gridStep_pins]
    · simp [nextLine, scanPoint_tgn]
    · simp [nextLine, scanPoint_tgn]

/-! ### The length of the new line (R24) -/

theorem Standard.lengths (d : Standard) :
    d.lenMin ≤ d.nominal ∧ d.nominal ≤ d.lenMax ∧ d.lenMin ≤ d.pMin ∧ d.pMax ≤ d.lenMax := by
  cases d <;> decide

/-- Within the pull range the new line's length lies within its range, but for the line of a SNAP step. -/
theorem evaluate_len {l : Lll} {st : Settings} {d : Standard} {line : Nat} (hlo : d.pMin ≤ l.p) (hhi : l.p ≤ d.pMax)
    (hsnap : ¬(st.stepMode = .snap ∧ (l.loop = .track ∨ l.loop = .coast) ∧ l.settling = false ∧
      st.inCoast line = false ∧ l.accepted = none ∧
      ∃ o r, l.lineStray = some o ∧ l.stray = some r ∧ r.count = 2 ∧ (o - r.last).natAbs ≤ st.captureTol)) :
    d.lenMin ≤ (l.evaluate st d line).len ∧ (l.evaluate st d line).len ≤ d.lenMax := by
  obtain ⟨hn1, hn2, hp1, hp2⟩ := d.lengths
  have hp : d.lenMin ≤ l.p ∧ l.p ≤ d.lenMax := ⟨by omega, by omega⟩
  by_cases hl : l.loop = .track ∨ l.loop = .coast
  case neg =>
    unfold Lll.evaluate
    split
    · exact ⟨hn1, hn2⟩
    · exact hp
    · exact hp
    · next h1 h2 h3 =>
      cases hloop : l.loop with
      | free => exact absurd hloop h1
      | capture => exact absurd hloop h2
      | holdover => exact absurd hloop h3
      | track => exact absurd (.inl hloop) hl
      | coast => exact absurd (.inr hloop) hl
  cases hs : l.settling with
  | true => rw [evaluate_settling hl hs]; exact hp
  | false =>
    cases hc : st.inCoast line with
    | true => rw [evaluate_inCoast hl hs hc]; exact hp
    | false =>
      rw [evaluate_measured hl hs hc]
      cases ha : l.accepted with
      | some e =>
        have hb := clampI_bounds (x := (clampI (l.p + roundDiv (16 * e) st.ki) d.pMin d.pMax).toNat + roundDiv (16 * e) st.kp)
          (lo := d.lenMin) (hi := d.lenMax) (by exact_mod_cast lenMin_le_lenMax d)
        show d.lenMin ≤ (clampI _ _ _).toNat ∧ (clampI _ _ _).toNat ≤ d.lenMax
        omega
      | none =>
        dsimp only
        cases ho : (applyStray st.captureTol l.stray l.lineStray).2 with
        | none =>
          show d.lenMin ≤ (l.evalCoast st _).len ∧ (l.evalCoast st _).len ≤ d.lenMax
          unfold Lll.evalCoast
          split <;> exact hp
        | some o =>
          show d.lenMin ≤ (l.evalStep st d o).len ∧ (l.evalStep st d o).len ≤ d.lenMax
          unfold Lll.evalStep
          cases hm : st.stepMode with
          | slew => exact hp
          | snap =>
            refine absurd ⟨hm, hl, hs, hc, ha, ?_⟩ hsnap
            cases hline : l.lineStray with
            | none => rw [hline, applyStray_none] at ho; cases ho
            | some o' =>
              cases hstray : l.stray with
              | none => rw [hline, hstray, applyStray_first] at ho; cases ho
              | some r =>
                by_cases htol : (o' - r.last).natAbs ≤ st.captureTol
                · rw [hline, hstray, applyStray_agrees htol] at ho
                  by_cases hcount : r.count = 2
                  · exact ⟨o', r, rfl, rfl, hcount, htol⟩
                  · rw [if_neg hcount] at ho; cases ho
                · rw [hline, hstray, applyStray_disagrees (Nat.lt_of_not_le htol)] at ho; cases ho

/-- Settles O21: each name of a line end is the one work or nothing, and the grid moves by the evaluation alone. -/
theorem lineEndMovesTheGrid : Obligations.LineEndMovesTheGrid := by
  intro x s
  obtain ⟨hideal, hnext, htick, hpins, huntil, hkey, hmem⟩ := lineEnded_grid x s
  have htgn := beginLine_tgn (lineEnded x s)
  rw [← lineEndWork_eq] at htgn
  have hite (b : Bool) : (Host.Outcome.next (if b then lineEndWork x s else s) : Result) = .next (lineEndWork x s) ∨
      (Host.Outcome.next (if b then lineEndWork x s else s) : Result) = .next s := by
    cases b
    · exact .inr rfl
    · exact .inl rfl
  have hreached : (lineEndWork x s).tgn.key =
      if 0 ≤ ((lineEndWork x s).tgn.lineStart - s.tgn.keyUntil).toInt then 0 else s.tgn.key := by
    rw [htgn]
    dsimp only
    rw [hideal, huntil, hkey]
    simp only [Tick.reached, decide_eq_true_eq]
  have hstart : (lineEndWork x s).tgn.lineStart = s.lineEndTick := by
    rw [htgn]
    exact congrArg Qu.tick hideal
  refine ⟨lineEndWork x s, exec_lineEnd x s, ?_, ?_, hstart, ?_, ?_, ?_, ?_, fun h => ?_, fun h => ?_, ?_, ?_, ?_,
    fun hlo hhi hsnap => ⟨s.evaluation.len, ?_, evaluate_len hlo hhi hsnap⟩⟩
  · rintro c (rfl | rfl | rfl | rfl | rfl | rfl | rfl) <;> exact hite _
  · rw [lineEndWork_eq, (beginLine_frame _).2.1]
    exact hideal
  · rw [hstart, lineEndWork_eq, (beginLine_frame _).1]
    exact htick
  · rw [lineEndWork_eq]
    simpa using hpins
  · rw [htgn]
  · rw [htgn]
    exact huntil
  · rw [hreached, if_pos h]
  · rw [hreached, if_neg (by omega)]
  · rw [htgn, lineEndWork_eq]
    simp
  · rw [htgn, lineEndWork_eq]
    simp
  · rw [lineEndWork_eq]
    simpa using hmem
  · rw [lineEndWork_eq, (beginLine_frame _).2.1]
    exact hnext

end Sys2Proof.Machine
end

section
/-!
PROOFS. A boundary at which no cue runs, block by block, and the field that begins, with O32.
-/

namespace Sys2Proof.Machine

/-! ### A boundary without cues (R50, R66) -/

/-- No copy is executed at the boundary of this line end. -/
def State.NoCueAt (x : LineInputs) (s : State) : Prop :=
  s.cue.engine ≠ .running ∨ s.cue.startup = true ∨ x.hold = true ∨ (s.cue.due = [] ∧ s.cue.idle = none)

theorem falBoundary_congr {s t : State} (hfal : t.fal = s.fal) (hrfe : t.rfe.working = s.rfe.working)
    (hlll : t.lll.inHoldover = s.lll.inHoldover) (htgn : t.tgn = s.tgn) :
    (falBoundary t).fal = (falBoundary s).fal ∧ (falBoundary t).tgn = (falBoundary s).tgn := by
  simp only [falBoundary, hfal, hrfe, hlll, htgn]
  exact ⟨trivial, trivial⟩

/-- The boundary up to the cues, with the aligner's work where it comes first. -/
theorem boundaryHead_front (o : WorkOrder) (e : Bool) (s : State) :
    let u := boundaryHead o e s
    let b := boundaryStart e s
    u.rfe = b.rfe ∧ u.lll = b.lll ∧ u.fal = (if o.falLate then b else falBoundary b).fal ∧
    u.tgn = (if o.falLate then b else falBoundary b).tgn := by
  intro u b
  have hu : u = atPlace o.tst .first nolockTest (atPlace o.wsk .first stepFades
      (if o.falLate then b else falBoundary b)) := rfl
  rw [hu]
  simp only [atPlace_nolockTest_frame, atPlace_stepFades_frame]
  cases o.falLate <;> exact ⟨rfl, rfl, trivial, trivial⟩

/-- The cues, with the aligner's work where it comes behind them. -/
theorem boundaryCues_front (o : WorkOrder) (u : State) :
    let r := (engineBoundary u).1
    let t := (boundaryCues o u).1
    t.rfe = r.rfe ∧ t.lll = r.lll ∧ t.fal = (if o.falLate then falBoundary r else r).fal ∧
    t.tgn = (if o.falLate then falBoundary r else r).tgn ∧ t.cue = r.cue := by
  intro r t
  have ht : t = atPlace o.tst .middle nolockTest (atPlace o.wsk .middle stepFades
      (if o.falLate then falBoundary r else r)) := rfl
  rw [ht]
  simp only [atPlace_nolockTest_frame, atPlace_stepFades_frame]
  cases o.falLate <;> exact ⟨rfl, rfl, trivial, trivial, rfl⟩

/-- With no cue to run, the aligner's work has the same effect before the engine's and after it (log 6). -/
theorem fieldBoundary_front_noCue {o : WorkOrder} {e : Bool} {s : State} (h : (boundaryHead o e s).NoCue) :
    let b := boundaryStart e s
    let t := fieldBoundary o e s
    t.rfe = b.rfe ∧ t.lll = b.lll ∧ t.fal = (falBoundary b).fal ∧
    t.tgn = { (falBoundary b).tgn with delay := s.cue.settings.pipeDelay } ∧ t.cue.settings = s.cue.settings := by
  intro b t
  obtain ⟨hrfe, hlll, hfal, htgn, -, -, -, hset⟩ := engineBoundary_noCue h
  obtain ⟨hrfeH, hlllH, hfalH, htgnH⟩ := boundaryHead_front o e s
  obtain ⟨hrfeC, hlllC, hfalC, htgnC, hcueC⟩ := boundaryCues_front o (boundaryHead o e s)
  have hset' : t.cue.settings = s.cue.settings := by
    simp only [t, fieldBoundary, boundaryTail_frame, hcueC, hset, boundaryHead_frame]
  have hfront : (boundaryCues o (boundaryHead o e s)).1.fal = (falBoundary b).fal ∧
      (boundaryCues o (boundaryHead o e s)).1.tgn = (falBoundary b).tgn := by
    rw [hfalC, htgnC]
    cases hl : o.falLate with
    | false =>
      rw [hl] at hfalH htgnH
      exact ⟨hfal.trans hfalH, htgn.trans htgnH⟩
    | true =>
      rw [hl] at hfalH htgnH
      exact falBoundary_congr (hfal.trans hfalH) (congrArg Rfe.working (hrfe.trans hrfeH))
        (congrArg Lll.inHoldover (hlll.trans hlllH)) (htgn.trans htgnH)
  refine ⟨?_, ?_, ?_, ?_, hset'⟩
  · simp only [t, fieldBoundary, boundaryTail_frame]
    exact hrfeC.trans (hrfe.trans hrfeH)
  · simp only [t, fieldBoundary, boundaryTail_frame]
    exact hlllC.trans (hlll.trans hlllH)
  · simp only [t, fieldBoundary, boundaryTail_frame]
    exact hfront.1
  · have hcue : (boundaryCues o (boundaryHead o e s)).1.cue.settings = s.cue.settings := by
      rw [hcueC, hset, (boundaryHead_frame _ _ _).2.2.1]
    show (boundaryTail o _ (boundaryCues o (boundaryHead o e s)).1).tgn = _
    rw [boundaryTail_tgn, hcue, hfront.2]

/-! ### The field that begins (R50, R60, R65) -/

/-- A pending shift is as it was, or the aligner has been lost and has none. -/
def Fal.ShiftOf (f f' : Fal) : Prop := f'.field = .seek ∧ f'.shift = 0 ∨
  f'.shift = f.shift ∧ f'.kind = f.kind ∧ (f'.field = .seek ↔ f.field = .seek)

theorem enterSeek_lost (f : Fal) (why : LostReason) : (f.enterSeek why).1.Lost := by
  unfold Fal.enterSeek
  dsimp only
  split <;> exact ⟨rfl, rfl, rfl, rfl⟩

theorem missChecked_shiftOf (f : Fal) (h : Bool) : f.ShiftOf (f.missChecked h) := by
  have hsame {f' : Fal} (hs : f'.shift = f.shift) (hk : f'.kind = f.kind) (hf : f'.field = f.field) : f.ShiftOf f' :=
    .inr ⟨hs, hk, by rw [hf]⟩
  unfold Fal.missChecked
  (repeat' split)
  · exact hsame rfl rfl rfl
  · exact hsame rfl rfl rfl
  · exact hsame rfl rfl rfl
  · exact .inl ⟨(enterSeek_lost _ _).1, (enterSeek_lost _ _).2.1⟩
  · exact hsame rfl rfl rfl

theorem lineFal_shiftOf (b : Bool) (s : State) : s.fal.ShiftOf (s.lineFal b) := by
  unfold State.lineFal
  split
  · exact missChecked_shiftOf _ _
  · exact .inr ⟨rfl, rfl, Iff.rfl⟩

/-- The pending shift that the aligner's boundary work finds. -/
theorem boundaryStart_shiftOf (x : LineInputs) (s : State) :
    s.fal.ShiftOf (boundaryStart (gridStep x s).entered (gridStep x s).s).fal := by
  rw [boundaryStart_eq, gridStep_eq]
  show s.fal.ShiftOf (State.openedFal _ _)
  unfold State.openedFal
  split
  · exact .inl ⟨(enterSeek_lost _ _).1, (enterSeek_lost _ _).2.1⟩
  · exact lineFal_shiftOf _ _

theorem Lll.inHoldover_iff (l : Lll) : l.inHoldover = true ↔
    l.loop = .holdover ∨ (l.loop = .capture ∧ ∃ r, l.capture = some r ∧ r.origin = .holdover) := by
  simp only [Lll.inHoldover, Bool.or_eq_true, Bool.and_eq_true, decide_eq_true_eq, Option.any_eq_true]

/-- A RUNNING engine carries on from the state in which its copies have been taken out (R110). -/
theorem State.Carried.runningBoundary (u : State) : (clearDue (endScan u)).Carried (runningBoundary u).1 := by
  have hdue := State.Carried.engine.execDue u.cue.due (State.Carried.refl (clearDue (endScan u)))
  unfold Machine.runningBoundary
  dsimp only
  split
  · exact State.Carried.of_eq rfl rfl rfl rfl rfl rfl (.same rfl rfl rfl)
  split
  · exact State.Carried.engine.execIdle _ hdue
  · exact hdue

theorem engineBoundary_running {u : State} (hrun : u.cue.engine = .running) (hstart : u.cue.startup = false) :
    engineBoundary u = runningBoundary u := by
  simp only [engineBoundary, hrun, hstart, Bool.false_eq_true, if_false]

/-- A RUNNING engine has no copy in hand behind a boundary (R110). -/
theorem engineBoundary_drops_copies {u : State} (hrun : u.cue.engine = .running) (hstart : u.cue.startup = false) :
    (engineBoundary u).1.cue.due = [] ∧ (engineBoundary u).1.cue.idle = none := by
  rw [engineBoundary_running hrun hstart]
  rcases (State.Carried.runningBoundary u).cue.copies with ⟨hd, hi⟩ | hnone
  · exact ⟨hd, hi⟩
  · exact hnone

theorem fieldBoundary_cue (o : WorkOrder) (e : Bool) (s : State) :
    (fieldBoundary o e s).cue = (engineBoundary (boundaryHead o e s)).1.cue := by
  simp only [fieldBoundary, boundaryTail_frame]
  exact (boundaryCues_front o (boundaryHead o e s)).2.2.2.2

/-- Settles O32. -/
theorem fieldBoundaryBeginsAField : Obligations.FieldBoundaryBeginsAField := by
  intro x s
  refine ⟨fun hend => ?_, fun hline => ?_⟩
  case refine_2 =>
    rw [exec_fieldBoundary, gridStep_endsField, (State.endsField_eq_false_iff s).2 hline]
    rfl
  have hends : (gridStep x s).s.endsField = true := by
    rw [gridStep_endsField]
    exact (State.endsField_iff s).2 hend
  let b := fieldBoundary x.order (gridStep x s).entered (gridStep x s).s
  have ht : lineEndWork x s = beginLine b := lineEndWork_boundary hend
  have hc := State.Carried.fieldBoundary x.order (gridStep x s).entered (gridStep x s).s
  obtain ⟨n, o1, o2, htgn⟩ := fieldBoundary_tgn x.order (gridStep x s).entered (gridStep x s).s
  have hbegin := beginLine_tgn b
  rw [← ht] at hbegin
  have hcue : (lineEndWork x s).cue = b.cue := by
    rw [ht]
    simp
  refine ⟨lineEndWork x s, ?_, exec_lineEnd x s, ?_, ?_, ?_, ?_, ?_, ?_, ?_, ?_, ?_, ?_, fun hrun hstart => ?_, fun hno => ?_⟩
  · rw [exec_fieldBoundary, hends]
    rfl
  · rw [hbegin, htgn]
    simp
  · rw [hbegin, htgn]
    simp only [gridStep_frame]
    cases s.tgn.parity <;> rfl
  · rw [hbegin, htgn]
  · rw [hbegin, htgn]
  · rw [hbegin, htgn, hcue]
  · rw [hbegin, htgn]
    simp
  · rw [hbegin, htgn]
    simp
  · rw [hbegin, htgn]
    simp
  · rw [hbegin, htgn]
    simp
  · rw [hcue, hc.cue.link, boundaryStart_eq]
    simp
  · rw [hcue, fieldBoundary_cue]
    exact engineBoundary_drops_copies (by simpa using hrun) (by simpa using hstart)
  · intro lq shift holdover
    obtain ⟨-, hlll, hfal, htgnN, -⟩ := fieldBoundary_front_noCue (noCue_boundaryHead x.order (gridStep x s).entered hno)
    let B := boundaryStart (gridStep x s).entered (gridStep x s).s
    have hB : B.rfe.working = s.rfe.working ∧ B.tgn.parity = (lineEndWork x s).tgn.parity := by
      rw [show B = _ from boundaryStart_eq _ _, hbegin, htgn, gridStep_eq]
      exact ⟨rfl, rfl⟩
    have hfal' : (lineEndWork x s).fal = (falBoundary B).fal := by
      rw [ht, (beginLine_frame _).2.2.1]
      exact hfal
    have hlq : lq = s.rfe.working.fieldLines (lineEndWork x s).tgn.parity := rfl
    let r := B.fal.nextLength s.rfe.working (lineEndWork x s).tgn.parity B.lll.inHoldover
    have hr : (lineEndWork x s).tgn.length = r.1 ∧ (lineEndWork x s).fal.shift = r.2 ∧
        (lineEndWork x s).fal.field = B.fal.field := by
      refine ⟨?_, ?_, ?_⟩
      · rw [hbegin, htgnN]
        show (B.fal.nextLength B.rfe.working B.tgn.parity B.lll.inHoldover).1 = r.1
        rw [hB.1, hB.2]
      · rw [hfal']
        show (B.fal.nextLength B.rfe.working B.tgn.parity B.lll.inHoldover).2 = r.2
        rw [hB.1, hB.2]
      · rw [hfal']
        rfl
    have hhold : B.lll.inHoldover = true ↔ holdover := by
      rw [Lll.inHoldover_iff]
      have : (lineEndWork x s).lll = B.lll := by
        rw [ht, (beginLine_frame _).2.1]
        exact hlll
      rw [← this]
    obtain ⟨hstay, hmove⟩ : (B.fal.field = .seek ∨ B.fal.shift = 0 → r = (lq, 0)) ∧ _ :=
      nextLength_spec B.fal s.rfe.working (lineEndWork x s).tgn.parity B.lll.inHoldover
    rw [hr.1, hr.2.1, hr.2.2]
    rcases boundaryStart_shiftOf x s with ⟨hseek, -⟩ | ⟨hs, hk, -⟩
    · refine ⟨fun _ => ?_, fun hne => absurd hseek hne⟩
      rw [hstay (.inl hseek)]
      exact ⟨rfl, rfl⟩
    · refine ⟨fun h => ?_, fun hne h0 => ?_⟩
      · rw [hstay (h.imp id hs.trans)]
        exact ⟨rfl, rfl⟩
      have hs : B.fal.shift = shift := hs
      obtain ⟨hh, hw, hsl⟩ := hmove hne (by rw [hs]; exact h0)
      rw [hs] at hh hw hsl
      refine ⟨fun hho => ?_, fun hnh hkind => ?_, fun hnh hkind => ⟨fun hp => ?_, fun hneg => ?_⟩⟩
      · rw [show r = _ from hh (hhold.2 hho)]
        exact ⟨rfl, rfl⟩
      · exact hw (by rw [← Bool.not_eq_true, hhold]; exact hnh) (hk.trans hkind)
      · rw [show r = _ from (hsl (by rw [← Bool.not_eq_true, hhold]; exact hnh) (hk.trans hkind)).1 hp]
        exact ⟨rfl, rfl⟩
      · rw [show r = _ from (hsl (by rw [← Bool.not_eq_true, hhold]; exact hnh) (hk.trans hkind)).2 hneg]
        exact ⟨rfl, rfl⟩

end Sys2Proof.Machine
end

section
/-!
PROOFS. TST's arrivals: where a line end places them and how its BROAD arrivals reach the aligner, with O28.
-/

namespace Sys2Proof.Machine

/-! ### The runs placed at a line start (R191, R192) -/

theorem toInt_ofNat_nonneg {n : Nat} (h : n ≤ 2 ^ 16) : 0 ≤ (BitVec.ofNat 36 n).toInt := by
  rw [BitVec.toInt_eq_toNat_of_lt, BitVec.toNat_ofNat]
  · omega
  · rw [BitVec.toNat_ofNat]
    omega

/-- The three edges of a run, half a line apart, stand in their order. -/
theorem insertEdge_run (e : Pu) {p : Nat} (h : p ≤ 2 ^ 20) :
    insertEdge (e + BitVec.ofNat 36 (p / 16)) (insertEdge (e + BitVec.ofNat 36 (p / 32)) (insertEdge e [])) =
      [e, e + BitVec.ofNat 36 (p / 32), e + BitVec.ofNat 36 (p / 16)] := by
  have h1 : ¬((e + BitVec.ofNat 36 (p / 32)) - e).toInt < 0 := by
    rw [add_sub_cancel_left]
    exact Int.not_lt.2 (toInt_ofNat_nonneg (by omega))
  have h2 : ¬((e + BitVec.ofNat 36 (p / 16)) - e).toInt < 0 := by
    rw [add_sub_cancel_left]
    exact Int.not_lt.2 (toInt_ofNat_nonneg (by omega))
  have h3 : ¬((e + BitVec.ofNat 36 (p / 16)) - (e + BitVec.ofNat 36 (p / 32))).toInt < 0 := by
    have hsub : (e + BitVec.ofNat 36 (p / 16)) - (e + BitVec.ofNat 36 (p / 32)) =
        BitVec.ofNat 36 (p / 16 - p / 32) := by
      bv_omega
    rw [hsub]
    exact Int.not_lt.2 (toInt_ofNat_nonneg (by omega))
  simp only [insertEdge, if_neg h1, if_neg h2, if_neg h3]

/-- TST's LINE arrivals at a line start in INTERNAL_LOOP. -/
theorem tstLineStart_loop {s : State} (h : s.tst.mode = .internalLoop) :
    (tstLineStart s).tst.lines =
      s.tst.lines.filter (fun e => decide (tstLineTick e = s.tgn.lineStart)) ++ [Qu.pu s.lll.ideal] ∧
    (tstLineStart s).tst.run = match s.runPlaced with
      | some e => insertEdge (e + BitVec.ofNat 36 (s.lll.p / 16))
          (insertEdge (e + BitVec.ofNat 36 (s.lll.p / 32)) (insertEdge e s.tst.run))
      | none => s.tst.run := by
  unfold tstLineStart
  rw [if_pos h]
  exact ⟨rfl, rfl⟩

/-- The place of a run as one case split. -/
theorem runPlaced_eq (s : State) : s.runPlaced =
    if s.tgn.parity = .one then
      (if s.tgn.line + s.cue.settings.vOffset = s.tgn.length then
        some (Qu.pu s.lll.ideal + BitVec.ofNat 36 (s.lll.p / 32))
      else if s.cue.settings.vOffset = 0 ∧ s.tgn.line = 1 then some (Qu.pu s.lll.ideal) else none)
    else if 0 < s.cue.settings.vOffset ∧ s.tgn.line + s.cue.settings.vOffset = s.tgn.length + 1 then
      some (Qu.pu s.lll.ideal) else none := by
  unfold State.runPlaced
  cases s.tgn.parity <;> rfl

/-- Up to the start of the line no run is placed. -/
theorem lineEnded_run (x : LineInputs) {s : State} (h : s.tst.run = []) : (lineEnded x s).tst.run = [] := by
  have hgrid : (gridStep x s).s.tst.run = [] := by
    rw [gridStep_eq]
    show (takeOffer s.evaluation.offer s).tst.run = []
    unfold takeOffer
    (repeat' split) <;> exact h
  unfold lineEnded
  dsimp only
  split
  · refine (State.Carried.fieldBoundary _ _ _).run ?_
    rw [boundaryStart_eq]
    exact hgrid
  · simpa using hgrid

/-! ### A start that the aligner acts on (R48, R53, R54) -/

/-- What every start that is acted on leaves of the aligner. -/
theorem handleStart_marks (f : Fal) (c : FieldCtx) (r : BroadRecord) :
    let a := (f.handleStart c r).fal
    a.startSeen = true ∧ a.lastParity = some r.parity ∧ a.broad = f.broad ∧ a.lockout = f.lockout ∧
    (a.field = .align ∨ a.field = .lock) ∧ (f.field = .seek → a.lastDelta = 0 → a.field = .lock) ∧
    (a.field = .lock → f.field ≠ .lock → a.lastDelta = 0) := by
  intro a
  by_cases h0 : c.misalignment r.parity (r.aligned c) = 0
  · rw [show a = _ from (handleStart_zero (f := f) h0).1]
    exact ⟨rfl, rfl, rfl, rfl, .inr rfl, fun _ _ => rfl, fun _ _ => h0⟩
  by_cases hp : (c.misalignment r.parity (r.aligned c) - f.shift) % c.std.frame = 0
  · rw [show a = _ from (handleStart_pending (f := f) h0 hp).1]
    refine ⟨rfl, rfl, rfl, rfl, ?_, fun _ hd => absurd hd h0, fun hl hn => ?_⟩
    · dsimp only
      split
      · exact .inr rfl
      · exact .inl rfl
    · dsimp only at hl
      rw [if_neg hn] at hl
      exact absurd hl (by decide)
  · obtain ⟨f0, k, shift, ha, -, hf0, -, hfield, -⟩ := handleStart_shift rfl rfl h0 hp
    have ha : a = _ := ha.trans (applyShift_keeps f0 c shift k).1
    have hf : a.field = f0.field := by rw [ha]
    refine ⟨by rw [ha, hf0]; rfl, by rw [ha, hf0]; rfl, by rw [ha, hf0]; rfl, by rw [ha, hf0]; rfl, ?_, fun _ hd => ?_,
      fun hl hn => ?_⟩
    · rw [hf, hfield]
      split
      · exact .inr rfl
      · exact .inl rfl
    · refine absurd ?_ h0
      rw [← hd, ha, hf0]
      rfl
    · rw [hf, hfield, if_neg (fun hy => hn hy.1)] at hl
      exact absurd hl (by decide)

/-- TST's BROAD arrival is the aligner's broad pulse, with its edge gone from the run (R192). -/
theorem exec_tstBroadArrival {e : Pu} {rest : List Pu} {s : State} (h : s.tst.run = e :: rest) :
    exec .tstBroadArrival s = .next (if s.tst.mode = .internalLoop then
      broadPulse e { s.atTick (tstBroadTick e) with tst := { s.tst with run := rest } } else s) := by
  simp only [exec, execTstBroadArrival, h]

/-- Settles O28. -/
theorem testRunsReachTheAligner : Obligations.TestRunsReachTheAligner := by
  refine ⟨fun x s => ⟨lineEndWork x s, exec_lineEnd x s, fun hmode => ?_⟩, fun e rest s hrun => ?_⟩
  · intro start p v run
    let L := lineEnded x s
    let M : State := { L with tgn := { L.tgn with
      lineStart := Qu.tick L.lll.ideal, lineD := L.cue.settings.dots, lineStd := L.rfe.working, nextDot := 0
      key := if Tick.reached (Qu.tick L.lll.ideal) L.tgn.keyUntil then 0 else L.tgn.key } }
    have ht : lineEndWork x s = tstLineStart M := rfl
    have hM : M.tst.mode = .internalLoop := by
      rw [ht, tstLineStart_tst] at hmode
      exact hmode
    obtain ⟨hlines, hruns⟩ := tstLineStart_loop hM
    obtain ⟨-, hlll, -, htgn, -, hcue, -⟩ := tstLineStart_frame M
    have hstart : start = Qu.pu M.lll.ideal := by
      simp only [start, ht, hlll]
      rfl
    rw [ht, hlines, hruns]
    refine ⟨by simp [hstart], fun e he => ?_, fun hnil hp => ?_⟩
    · rcases List.mem_append.1 he with he | he
      · refine .inr ?_
        have := (List.mem_filter.1 he).2
        rw [htgn]
        exact of_decide_eq_true this
      · exact .inl (by rw [hstart]; simpa using he)
    · have hrunM : M.tst.run = [] := lineEnded_run x hnil
      have hp' : M.lll.p ≤ 2 ^ 20 := by
        simp only [p, ht, hlll] at hp
        exact hp
      have hplaced : (match M.runPlaced with
          | some e => insertEdge (e + BitVec.ofNat 36 (M.lll.p / 16))
              (insertEdge (e + BitVec.ofNat 36 (M.lll.p / 32)) (insertEdge e M.tst.run))
          | none => M.tst.run) = match M.runPlaced with
          | some e => [e, e + BitVec.ofNat 36 (M.lll.p / 32), e + BitVec.ofNat 36 (M.lll.p / 16)]
          | none => [] := by
        rw [hrunM]
        cases M.runPlaced with
        | none => rfl
        | some e => exact insertEdge_run e hp'
      refine hplaced.trans ?_
      simp only [run, p, v, hstart, ht, htgn, hcue, hlll, runPlaced_eq]
      split_ifs <;> rfl
  · rw [exec_tstBroadArrival hrun]
    refine ⟨fun hm => by rw [if_neg hm], fun hm => ?_⟩
    rw [if_pos hm, show (BitVec.ofNat 32 (e.toNat / 16) + 1000 : Tick) = tstBroadTick e from rfl]
    generalize tstBroadTick e = k
    let v : State := { s.atTick k with tst := { s.tst with run := rest } }
    have hparts := broadPulse_eq e v
    have htst : (broadPulse e v).tst.run = rest := by
      unfold broadPulse
      rw [tstWatch_tst, broadArrival_eq]
    refine ⟨broadPulse e v, rfl, htst, ?_, ?_, ?_, ?_, ?_, ?_⟩
    · rw [hparts]; rfl
    · rw [hparts]; rfl
    · rw [hparts]; rfl
    · rw [hparts]; rfl
    · rw [hparts]; rfl
    intro open_
    rw [(broadPulse_fal e v).1, (broadPulse_fal e v).2]
    refine ⟨fun hno => ?_, fun hop hb => ?_, fun r hop hb h1 hnear => ?_, fun r hop hb h2 hnear => ?_⟩
    · obtain ⟨last, hl, hlt⟩ : ∃ last, s.fal.lockout = some last ∧ (e - last).toNat < 16 * (s.lll.p / 16) := by
        simpa [open_] using hno
      rw [broadArrival_ignored (s := v) (broadStep_ignored hl hlt)]
      exact ⟨rfl, rfl⟩
    · rw [broadArrival_opened (s := v) (broadStep_opened hop (.inl hb))]
      exact ⟨rfl, rfl, _, rfl, rfl, rfl⟩
    · rw [broadArrival_counted (s := v) ((broadStep_within hop hb hnear).trans (if_neg (by omega))) hb, h1]
      exact ⟨rfl, rfl⟩
    · have hstep : v.fal.broadStep v.lll e = .detected r := (broadStep_within hop hb hnear).trans (if_pos h2)
      cases hl : s.lll.locked with
      | false =>
        rw [broadArrival_dropped (s := v) hstep hl]
        exact ⟨rfl, rfl, fun _ => ⟨rfl, rfl, rfl⟩, nofun⟩
      | true =>
        rw [broadArrival_acted (s := v) hstep hl]
        obtain ⟨hseen, hpar, hbroad, hlock, hfield, hseek, hdelta⟩ := handleStart_marks (v.fal.detect r) v.fieldCtx r
        exact ⟨hbroad, hlock, nofun, fun _ => ⟨hseen, hpar, hfield, hseek, hdelta⟩⟩

end Sys2Proof.Machine
end

section
/-!
PROOFS. The miss check at the end of line 16 and the reports of a line end, with O30.
-/

namespace Sys2Proof.Machine

/-! ### Records in their order (R165) -/

theorem getElem?_of_prefix {α : Type} {l l' : List α} {i : Nat} {a : α} (h : l <+: l') (hi : l[i]? = some a) :
    l'[i]? = some a := by
  obtain ⟨tail, rfl⟩ := h
  rw [List.getElem?_append_left (List.getElem?_eq_some_iff.1 hi).1]
  exact hi

theorem produceAll_prefix (rs : List Report) (s : State) : s.rpw.fifo <+: (produceAll rs s).rpw.fifo :=
  (State.Carried.produceAll rs s).fifo

/-- The `i`-th of some records stands `i` behind the end of a FIFO with room up to it. -/
theorem produceAll_getElem {rs : List Report} {i : Nat} {r : Report} {s : State} (hr : rs[i]? = some r)
    (h : s.rpw.fifo.length + i < 8) :
    ∃ g, (produceAll rs s).rpw.fifo[s.rpw.fifo.length + i]? = some ⟨r.stamped s.tgn.stamp, g⟩ := by
  induction rs generalizing s i with
  | nil => simp at hr
  | cons r' rs ih =>
    obtain ⟨g, hfirst⟩ := (Rpw.produce_room (r := s.rpw) (rec := r'.stamped s.tgn.stamp) (by omega)).1
    have hfifo : (produce r' s).rpw.fifo = s.rpw.fifo ++ [⟨r'.stamped s.tgn.stamp, g⟩] := hfirst
    cases i with
    | zero =>
      obtain rfl : r' = r := by simpa using hr
      refine ⟨g, getElem?_of_prefix (produceAll_prefix rs (produce r' s)) ?_⟩
      rw [hfifo]
      simp
    | succ i =>
      have hlen : (produce r' s).rpw.fifo.length = s.rpw.fifo.length + 1 := by rw [hfifo]; simp
      obtain ⟨g', hg'⟩ := ih (s := produce r' s) (i := i) (by simpa using hr) (by omega)
      rw [hlen] at hg'
      refine ⟨g', ?_⟩
      rw [← Nat.add_assoc, Nat.add_right_comm]
      exact hg'

/-! ### What a line end carries on from its grid step -/

theorem lineEndWork_fifo (x : LineInputs) (s : State) : (gridStep x s).s.rpw.fifo <+: (lineEndWork x s).rpw.fifo := by
  rw [lineEndWork_eq, (beginLine_frame _).2.2.2.2.2.2.2.1]
  unfold lineEnded
  dsimp only
  split
  · refine .trans ?_ (State.Carried.fieldBoundary _ _ _).fifo
    rw [boundaryStart_eq]
    exact produceAll_prefix _ (gridStep x s).s.opening
  · simp

/-- An aligner lost at a line end is lost behind it, whatever cues its boundary runs (R56). -/
theorem lineEndWork_lost {x : LineInputs} {s : State} (h : (gridStep x s).s.fal.Lost) : (lineEndWork x s).fal.Lost := by
  rw [lineEndWork_eq, (beginLine_frame _).2.2.1]
  unfold lineEnded
  dsimp only
  split
  · refine (State.Carried.fieldBoundary _ _ _).lost ?_
    rw [boundaryStart_eq]
    show (State.openedFal _ _).Lost
    unfold State.openedFal
    split
    · exact enterSeek_lost _ _
    · exact h
  · simpa using h

/-! ### The evaluation and HOLDOVER (R31, R40) -/

/-- An evaluation that does not enter HOLDOVER leaves it as it was. -/
theorem evaluate_inHoldover {l : Lll} {st : Settings} {d : Standard} {line : Nat}
    (h : (l.evaluate st d line).entered = false) : (l.evaluate st d line).lll.inHoldover = l.inHoldover := by
  by_cases hl : l.loop = .track ∨ l.loop = .coast
  case neg => rw [(evaluate_unlocked hl).1]
  have hin : l.inHoldover = false := by
    unfold Lll.inHoldover
    rcases hl with h | h <;> rw [h] <;> rfl
  have hout {l' : Lll} (hl' : l'.loop = .track ∨ l'.loop = .coast) : l'.inHoldover = l.inHoldover := by
    rw [hin]
    unfold Lll.inHoldover
    rcases hl' with h | h <;> rw [h] <;> rfl
  cases hs : l.settling with
  | true => rw [evaluate_settling hl hs]; exact hout hl
  | false =>
    cases hc : st.inCoast line with
    | true => rw [evaluate_inCoast hl hs hc]; exact hout (.inr rfl)
    | false =>
      rw [evaluate_measured hl hs hc] at h ⊢
      cases ha : l.accepted with
      | some e => exact hout (.inl rfl)
      | none =>
        rw [ha] at h
        dsimp only at h ⊢
        cases ho : (applyStray st.captureTol l.stray l.lineStray).2 with
        | some o =>
          dsimp only
          unfold Lll.evalStep
          cases st.stepMode <;> exact hout (.inl rfl)
        | none =>
          rw [ho] at h
          dsimp only at h ⊢
          unfold Lll.evalCoast at h ⊢
          split at h
          · exact absurd h nofun
          · next hlim =>
            rw [if_neg hlim]
            exact hout (.inr rfl)

/-- LLL gives at most one report of a line. -/
theorem evaluate_reports_le (l : Lll) (st : Settings) (d : Standard) (line : Nat) :
    (l.evaluate st d line).reports.length ≤ 1 := by
  by_cases hl : l.loop = .track ∨ l.loop = .coast
  case neg => rw [(evaluate_unlocked hl).2.1]; exact Nat.zero_le 1
  cases hs : l.settling with
  | true => rw [evaluate_settling hl hs]; exact Nat.zero_le 1
  | false =>
    cases hc : st.inCoast line with
    | true => rw [evaluate_inCoast hl hs hc]; exact Nat.zero_le 1
    | false =>
      rw [evaluate_measured hl hs hc]
      split
      · unfold Lll.evalAccepted
        dsimp only
        split
        · exact Nat.le_refl 1
        · exact Nat.zero_le 1
      · split
        · unfold Lll.evalStep
          split <;> exact Nat.le_refl 1
        · unfold Lll.evalCoast
          split
          · exact Nat.le_refl 1
          · exact Nat.zero_le 1

/-! ### The miss check (R55) -/

/-- The miss check of a line end counts the fourth miss. -/
theorem missedHere_eq (x : LineInputs) (s : State) : s.missedHere x =
    (s.missLine && s.fal.fourthMiss (if x.order.missFirst then s.lll else s.evaluation.lll).inHoldover) := by
  unfold State.missedHere
  cases x.order.missFirst with
  | true => rfl
  | false =>
    have h : (evaluateLine (lineInstant x s)).s.lll = s.evaluation.lll := by
      rw [evaluateLine_eq]
      rfl
    simp only [Bool.false_eq_true, if_false, evaluateLine_frame, lineInstant_frame, h]

theorem fourthMiss_iff (f : Fal) (h : Bool) : f.fourthMiss h = true ↔
    f.field ≠ .seek ∧ h = false ∧ f.startSeen = false ∧ 3 ≤ f.miss := by
  simp only [Fal.fourthMiss, Bool.and_eq_true, decide_eq_true_eq, Bool.not_eq_true', Nat.reduceLeDiff, and_assoc]

/-- The fourth miss puts the aligner in F_SEEK with its report (R55, R56). -/
theorem fourthMiss_effect {f : Fal} (hf : f.field ≠ .seek) (hs : f.startSeen = false) (hm : f.miss = 3) :
    (f.missChecked false).Lost ∧ f.missReports false = [repFieldLost (f.missChecked false) .missed f.field 4] ∧
    (f.missChecked false).lastParity = f.lastParity := by
  have hcheck : f.missChecked false = (({ f with miss := f.miss + 1 } : Fal).enterSeek .missed).1 := by
    unfold Fal.missChecked
    rw [if_neg hf, if_neg Bool.false_ne_true, if_neg (by rw [hs]; exact Bool.false_ne_true), if_pos (by omega)]
  have hrep : f.missReports false = (({ f with miss := f.miss + 1 } : Fal).enterSeek .missed).2 :=
    if_pos ((fourthMiss_iff _ _).2 ⟨hf, rfl, hs, by omega⟩)
  refine ⟨hcheck ▸ enterSeek_lost _ _, ?_, ?_⟩
  · rw [hrep, hcheck, Fal.enterSeek, hm]
    exact if_neg hf
  · rw [hcheck]
    rfl

/-- The holdover that the miss check finds, in either order of the line's works (log 6). -/
theorem missCheck_inHoldover {s : State} (x : LineInputs) (h : s.evaluation.entered = false) :
    (if x.order.missFirst then s.lll else s.evaluation.lll).inHoldover = s.lll.inHoldover := by
  cases x.order.missFirst with
  | true => rfl
  | false => exact evaluate_inHoldover h

/-- The report of a fourth miss stands behind at most one of LLL's (log 6). -/
theorem lineReports_missed {s : State} (x : LineInputs) (h16 : s.tgn.line = 16) (hf : s.fal.field ≠ .seek)
    (hs : s.fal.startSeen = false) (hm : s.fal.miss = 3) (hh : s.lll.inHoldover = false)
    (he : s.evaluation.entered = false) :
    ∃ k, k ≤ 1 ∧ (s.lineReports x.order.missFirst)[k]? =
      some (repFieldLost (s.fal.missChecked false) .missed s.fal.field 4) := by
  have hline : s.missLine = true := decide_eq_true h16
  have hrep := (fourthMiss_effect hf hs hm).2.1
  unfold State.lineReports
  rw [if_pos hline]
  cases x.order.missFirst with
  | true =>
    rw [if_pos rfl, hh, hrep]
    exact ⟨0, Nat.zero_le 1, rfl⟩
  | false =>
    have hev : s.evaluation.lll.inHoldover = s.lll.inHoldover := evaluate_inHoldover he
    rw [if_neg Bool.false_ne_true, hev, hh, hrep]
    exact ⟨s.evaluation.reports.length, evaluate_reports_le _ _ _ _, by simp⟩

/-- Settles O30. -/
theorem fourMissesLoseTheField : Obligations.FourMissesLoseTheField := by
  intro x s
  have hmissed := missedHere_eq x s
  refine ⟨fun h16 hseek hstart hhold hmiss hfly => ?_, fun hno => ?_, fun h16 hlen hseek hhold hfly => ?_,
    fun h16 hlen hseek hhold => ?_⟩
  · have hent : s.evaluation.entered = false := (gridStep_entered x s).symm.trans hfly
    have hline : s.missLine = true := decide_eq_true h16
    have hin := (missCheck_inHoldover x hent).trans hhold
    obtain ⟨hlost, -, hpar⟩ := fourthMiss_effect hseek hstart hmiss
    have hfal : (gridStep x s).s.fal = s.fal.missChecked false := by
      rw [gridStep_eq]
      show s.lineFal x.order.missFirst = _
      unfold State.lineFal
      rw [if_pos hline, hin]
    obtain ⟨hf, hshift, hmiss0, hseen⟩ := lineEndWork_lost (x := x) (hfal ▸ hlost)
    refine ⟨lineEndWork x s, ?_, exec_lineEnd x s, hf, hshift, hmiss0, hseen, fun hroom => ?_⟩
    · rw [exec_missedFields, hmissed, hline, hin, (fourthMiss_iff s.fal false).2 ⟨hseek, rfl, hstart, by omega⟩]
      rfl
    · obtain ⟨k, hk, hrep⟩ := lineReports_missed x h16 hseek hstart hmiss hhold hent
      obtain ⟨g, hg⟩ := produceAll_getElem (s := s) hrep (by omega)
      have hgrid : (gridStep x s).s.rpw = (produceAll (s.lineReports x.order.missFirst) s).rpw := by rw [gridStep_eq]
      refine ⟨k, g, hk, (getElem?_of_prefix (lineEndWork_fifo x s) (hgrid ▸ hg)).trans ?_⟩
      have hword : fieldWord (s.fal.missChecked false) =
          (match s.fal.lastParity with | none => 0 | some .one => 4 | some .two => 8 : Word) := by
        unfold fieldWord
        rw [hlost.1, hpar]
        cases s.fal.lastParity with
        | none => rfl
        | some p => cases p <;> rfl
      have hcode : wordOfNat s.fal.field.code = (match s.fal.field with | .seek => 0 | .align => 1 | .lock => 2 : Word) := by
        cases s.fal.field <;> rfl
      simp only [repFieldLost, hword, hcode, Report.stamped]
      rfl
  · have hfalse : s.missedHere x = false := by
      rw [hmissed, Bool.and_eq_false_iff]
      rcases hno with h | h
      · exact .inl (decide_eq_false h)
      · refine .inr ?_
        rw [← Bool.not_eq_true, fourthMiss_iff]
        rintro ⟨h1, -, h3, h4⟩
        rcases h with h | h | h
        · exact h1 h
        · rw [h] at h3
          exact absurd h3 nofun
        · omega
    rw [exec_missedFields, hfalse]
    rfl
  · have hent : s.evaluation.entered = false := (gridStep_entered x s).symm.trans hfly
    have hfal : (lineEndWork x s).fal = s.fal.missChecked false := by
      obtain ⟨-, -, hfal, -⟩ := lineEndWork_inField_blocks (x := x) (s := s) (by omega)
      rw [hfal, State.lineFal, if_pos (show s.missLine = true from decide_eq_true h16), missCheck_inHoldover x hent, hhold]
    refine ⟨lineEndWork x s, exec_lineEnd x s, fun hs => ?_, fun hs hm => ?_⟩
    · rw [hfal, Fal.missChecked, if_neg hseek, if_neg Bool.false_ne_true, if_pos hs]
    · rw [hfal, Fal.missChecked, if_neg hseek, if_neg Bool.false_ne_true, if_neg (by rw [hs]; exact Bool.false_ne_true),
        if_neg (by omega)]
  · have hloop : ¬(s.lll.loop = .track ∨ s.lll.loop = .coast) := by
      rw [Lll.inHoldover_iff] at hhold
      rcases hhold with h | ⟨h, -⟩ <;> rw [h] <;> decide
    have hin : (if x.order.missFirst then s.lll else s.evaluation.lll).inHoldover = true :=
      (missCheck_inHoldover x (evaluate_unlocked hloop).2.2.1).trans hhold
    refine ⟨?_, lineEndWork x s, exec_lineEnd x s, ?_⟩
    · have hfalse : s.missedHere x = false := by
        rw [hmissed, hin, Bool.and_eq_false_iff]
        refine .inr ?_
        rw [← Bool.not_eq_true, fourthMiss_iff]
        exact fun h => absurd h.2.1 nofun
      rw [exec_missedFields, hfalse]
      rfl
    · obtain ⟨-, -, hfal, -⟩ := lineEndWork_inField_blocks (x := x) (s := s) (by omega)
      rw [hfal, State.lineFal, if_pos (show s.missLine = true from decide_eq_true h16), hin, Fal.missChecked, if_neg hseek, if_pos rfl]

end Sys2Proof.Machine
end

section
/-!
PROOFS. The flywheel, HOLDOVER and its limit, with O23.
-/

namespace Sys2Proof.Machine

/-! ### The flywheel (R28, R31, R33) -/

theorem flywheelHere_eq (x : LineInputs) (s : State) : s.flywheelHere x = s.evaluation.entered := gridStep_entered x s

/-- The line's stray is the third in a row that agrees (R33). -/
def strayIsStep (tol : Nat) (rec : Option StrayRecord) (line : Option Int) : Bool :=
  match line, rec with
  | some o, some r => decide (r.count = 2 ∧ decide ((o - r.last).natAbs ≤ tol) = true)
  | _, _ => false

/-- The stray record with the line's stray, or without one (R33). -/
def strayCounted (tol : Nat) (rec : Option StrayRecord) (line : Option Int) : Option StrayRecord :=
  match line, rec with
  | none, _ => none
  | some o, none => some ⟨1, o⟩
  | some o, some r => if decide ((o - r.last).natAbs ≤ tol) = true then some ⟨r.count + 1, o⟩ else some ⟨1, o⟩

/-- The stray record behind a line without an accepted pulse that completes no step (R33). -/
theorem applyStray_of_not_step {tol : Nat} {rec : Option StrayRecord} {line : Option Int}
    (h : strayIsStep tol rec line = false) : applyStray tol rec line = (strayCounted tol rec line, none) := by
  cases line with
  | none => exact applyStray_none rec tol
  | some o =>
    cases rec with
    | none => exact applyStray_first o tol
    | some r =>
      by_cases htol : (o - r.last).natAbs ≤ tol
      · rw [applyStray_agrees htol]
        have hcount : r.count ≠ 2 := fun hc => by simp [strayIsStep, hc, htol] at h
        simp only [strayCounted, if_neg hcount, decide_eq_true htol, if_true]
      · rw [applyStray_disagrees (Nat.lt_of_not_le htol)]
        simp only [strayCounted, htol, decide_false, Bool.false_eq_true, if_false]

/-- The line end in a field of a line evaluated at length P. -/
theorem lineEnd_moved {x : LineInputs} {s : State} {l : Lll} (hline : s.tgn.line < s.tgn.length)
    (hl : s.evaluation.lll = l) (hlen : s.evaluation.len = s.lll.p) :
    (lineEndWork x s).lll = { l with
      ideal := s.lll.nextIdeal, nextIdeal := s.lll.nextIdeal + BitVec.ofNat 40 s.lll.p
      hEff := (lineEndWork x s).lll.hEff, c := (lineEndWork x s).lll.c, accepted := none, lineStray := none } := by
  obtain ⟨-, hlll, -⟩ := lineEndWork_inField_blocks (x := x) hline
  obtain ⟨hi, hn, -⟩ := evaluate_keeps s.lll s.cue.settings s.rfe.working s.tgn.line
  have hn : l.nextIdeal = s.lll.nextIdeal := hl ▸ hn
  rw [hlll, hl, hlen, advance_eq, hn]

/-! ### The holdover limit (R40, R41) -/

/-- In HOLDOVER neither LLL nor the miss check reports at a line end. -/
theorem lineReports_inHoldover {s : State} (h : s.lll.inHoldover = true) (b : Bool) : s.lineReports b = [] := by
  have hloop : ¬(s.lll.loop = .track ∨ s.lll.loop = .coast) := by
    rw [Lll.inHoldover_iff] at h
    rcases h with h | ⟨h, -⟩ <;> rw [h] <;> decide
  obtain ⟨hlll, hrep, -⟩ := evaluate_unlocked (st := s.cue.settings) (d := s.rfe.working) (line := s.tgn.line) hloop
  have hlll : s.evaluation.lll = s.lll := hlll
  have hrep : s.evaluation.reports = [] := hrep
  have hmiss : s.fal.missReports true = [] := if_neg (by rw [fourthMiss_iff]; exact fun hf => absurd hf.2.1 nofun)
  unfold State.lineReports
  rw [hlll, hrep, h, hmiss]
  split
  · split <;> rfl
  · rfl

/-- In HOLDOVER a line end writes no report of its own and leaves the aligner in its state. -/
theorem gridStep_inHoldover {x : LineInputs} {s : State} (h : s.lll.inHoldover = true) :
    let g := (gridStep x s).s
    g.rpw = s.rpw ∧ g.tst = s.tst ∧ g.fal.field = s.fal.field ∧ g.lll = s.lll.advance s.cue.settings s.evaluation.len ∧
    (gridStep x s).entered = false := by
  have hloop : ¬(s.lll.loop = .track ∨ s.lll.loop = .coast) := by
    rw [Lll.inHoldover_iff] at h
    rcases h with h | ⟨h, -⟩ <;> rw [h] <;> decide
  obtain ⟨hlll, -, hent, hoff⟩ := evaluate_unlocked (st := s.cue.settings) (d := s.rfe.working) (line := s.tgn.line) hloop
  have hlll : s.evaluation.lll = s.lll := hlll
  have hin : (if x.order.missFirst then s.lll else s.evaluation.lll).inHoldover = true := by
    rw [hlll, ite_self]
    exact h
  have hreports := lineReports_inHoldover h x.order.missFirst
  have hfield : (s.lineFal x.order.missFirst).field = s.fal.field := by
    unfold State.lineFal
    split
    · rw [hin]
      unfold Fal.missChecked
      split
      · rfl
      · rfl
    · rfl
  refine ⟨?_, ?_, ?_, ?_, (gridStep_entered x s).trans hent⟩
  · rw [gridStep_eq]
    show (produceAll (s.lineReports x.order.missFirst) s).rpw = s.rpw
    rw [hreports]
    rfl
  · rw [gridStep_eq]
    show (takeOffer s.evaluation.offer s).tst = s.tst
    rw [show s.evaluation.offer = none from hoff]
    rfl
  · rw [gridStep_eq]
    exact hfield
  · rw [gridStep_eq]
    show s.evaluation.lll.advance _ _ = _
    rw [hlll]

theorem expiresHere_eq (x : LineInputs) (s : State) : s.expiresHere x =
    (s.endsField && (gridStep x s).s.expiresNow (gridStep x s).entered) := by
  unfold State.expiresHere State.expiresNow
  dsimp only
  rw [gridStep_endsField, Bool.and_assoc]

/-- The boundary of a line end in HOLDOVER at its limit opens with the expiry. -/
theorem expires_at_limit {x : LineInputs} {s : State} (h : s.lll.inHoldover = true)
    (hlimit : s.cue.settings.holdLimit ≤ s.lll.holdover + 1) :
    (gridStep x s).s.expiresNow (gridStep x s).entered = true := by
  obtain ⟨-, -, -, hlll, hent⟩ := gridStep_inHoldover (x := x) h
  unfold State.expiresNow State.holdoverOver
  rw [hent, hlll, (gridStep_frame x s).2.2.1]
  have hin : (s.lll.advance s.cue.settings s.evaluation.len).inHoldover = true := h
  rw [hin]
  exact decide_eq_true hlimit

theorem not_expires {x : LineInputs} {s : State}
    (h : s.tgn.line < s.tgn.length ∨ s.lll.holdover + 1 < s.cue.settings.holdLimit ∨ s.lll.loop = .free) :
    s.expiresHere x = false := by
  rw [expiresHere_eq]
  cases hends : s.endsField with
  | false => rfl
  | true =>
    cases hent : (gridStep x s).entered with
    | true => rfl
    | false =>
      have hev : s.evaluation.entered = false := (gridStep_entered x s).symm.trans hent
      have hin : (gridStep x s).s.lll.inHoldover = s.lll.inHoldover := by
        rw [gridStep_eq]
        exact (evaluate_inHoldover hev : s.evaluation.lll.inHoldover = _)
      unfold State.expiresNow State.holdoverOver
      rw [hin]
      cases hhold : s.lll.inHoldover with
      | false => rfl
      | true =>
        obtain ⟨-, -, -, hlll, -⟩ := gridStep_inHoldover (x := x) hhold
        rw [hlll, (gridStep_frame x s).2.2.1]
        rcases h with h | h | h
        · exact absurd ((State.endsField_iff s).1 hends) (Nat.not_le.2 h)
        · have : ¬s.cue.settings.holdLimit ≤ s.lll.holdover + 1 := Nat.not_le.2 h
          exact decide_eq_false this
        · rw [Lll.inHoldover_iff, h] at hhold
          rcases hhold with hh | ⟨hh, -⟩ <;> exact absurd hh nofun

/-- The reports of an expiry, behind TEST/FIELD where TST gives one (R41, R56, R193). -/
theorem expiry_reported {x : LineInputs} {s : State} (h : s.lll.inHoldover = true) (hend : s.tgn.length ≤ s.tgn.line)
    (hlimit : s.cue.settings.holdLimit ≤ s.lll.holdover + 1) (hroom : s.rpw.fifo.length ≤ 5) :
    ∃ k : Nat, k ≤ 1 ∧ (k = 1 → ∃ r, s.tst.count = some r ∧ r.stamp = s.tgn.stamp) ∧
      (∃ g, (lineEndWork x s).rpw.fifo[s.rpw.fifo.length + k]? = some
        ⟨(repFree s.rfe.working.nominal false).stamped (s.tgn.stamp + 1), g⟩) ∧
      (s.fal.field ≠ .seek → ∃ y, (lineEndWork x s).rpw.fifo[s.rpw.fifo.length + k + 1]? = some y ∧
        y.report.w0 = 0x0304#16 ∧ y.report.w5 = 1) := by
  obtain ⟨hrpw, htst, hfield, hlll, hent⟩ := gridStep_inHoldover (x := x) h
  have hexp := expires_at_limit (x := x) h hlimit
  let g := (gridStep x s).s
  have hwork : g.rfe.working = s.rfe.working := by simp only [g, gridStep_eq]
  have hstamp : g.opening.tgn.stamp = s.tgn.stamp + 1 := by
    simp only [g, State.opening, nextField, gridStep_frame]
  have hfifo : g.opening.rpw.fifo = s.rpw.fifo := (congrArg Rpw.fifo hrpw : g.rpw.fifo = s.rpw.fifo)
  have hpre : (produceAll (g.testReports ++ g.expiryReports (gridStep x s).entered) g.opening).rpw.fifo <+:
      (lineEndWork x s).rpw.fifo := by
    rw [lineEndWork_boundary hend, (beginLine_frame _).2.2.2.2.2.2.2.1]
    have hc := (State.Carried.fieldBoundary x.order (gridStep x s).entered g).fifo
    rw [boundaryStart_eq] at hc
    exact hc
  have hrep : g.expiryReports (gridStep x s).entered =
      repFree s.rfe.working.nominal false :: (g.fal.enterSeek .free).2 := by
    rw [State.expiryReports, if_pos hexp, hwork]
  have hcount : g.testReports = [] ∨ ∃ r, s.tst.count = some r ∧ r.stamp = s.tgn.stamp ∧ g.testReports.length = 1 := by
    unfold State.testReports
    rw [show g.tst = s.tst from htst, show g.tgn = s.tgn from (gridStep_frame x s).1]
    cases hc : s.tst.count with
    | none => exact .inl rfl
    | some r =>
      dsimp only
      split
      · next hst => exact .inr ⟨r, rfl, hst, rfl⟩
      · exact .inl rfl
  have hk : g.testReports.length ≤ 1 := by
    rcases hcount with h | ⟨-, -, -, h⟩
    · rw [h]; exact Nat.zero_le 1
    · omega
  have hat {i : Nat} {rec : Report} (hi : (g.expiryReports (gridStep x s).entered)[i]? = some rec) (hi1 : i ≤ 1) :
      ∃ gap, (lineEndWork x s).rpw.fifo[s.rpw.fifo.length + (g.testReports.length + i)]? =
        some ⟨rec.stamped (s.tgn.stamp + 1), gap⟩ := by
    obtain ⟨gap, hgap⟩ := produceAll_getElem (s := g.opening) (i := g.testReports.length + i)
      (rs := g.testReports ++ g.expiryReports (gridStep x s).entered) (r := rec)
      (by rw [List.getElem?_append_right (Nat.le_add_right _ _), Nat.add_sub_cancel_left]; exact hi)
      (by rw [hfifo]; omega)
    rw [hfifo, hstamp] at hgap
    exact ⟨gap, getElem?_of_prefix hpre hgap⟩
  refine ⟨g.testReports.length, hk, fun h1 => ?_, hat (i := 0) (by rw [hrep]; rfl) (by omega), fun hne => ?_⟩
  · rcases hcount with h0 | ⟨r, hr, hst, -⟩
    · rw [h0] at h1
      exact absurd h1 (by decide)
    · exact ⟨r, hr, hst⟩
  · have hlost : (g.fal.enterSeek .free).2 = [repFieldLost (g.fal.enterSeek .free).1 .free g.fal.field g.fal.miss] :=
      if_neg (by rw [show g.fal.field = s.fal.field from hfield]; exact hne)
    obtain ⟨gap, hgap⟩ := hat (i := 1) (by rw [hrep, hlost]; rfl) (by omega)
    exact ⟨_, by rw [Nat.add_assoc]; exact hgap, rfl, rfl⟩

/-- At the limit the aligner is lost and the loop has expired, whatever cues the boundary runs. -/
theorem expiry_opens {x : LineInputs} {s : State} (h : s.lll.inHoldover = true)
    (hlimit : s.cue.settings.holdLimit ≤ s.lll.holdover + 1) :
    let b := boundaryStart (gridStep x s).entered (gridStep x s).s
    b.fal.Lost ∧ b.rfe.working = s.rfe.working ∧ b.lll.p = s.rfe.working.nominal ∧ b.lll.holdover = 0 ∧
    b.lll.loop = (if s.lll.loop = .holdover then .free else s.lll.loop) ∧
    b.lll.capture = s.lll.capture.map (fun c => { c with origin := .free }) := by
  intro b
  obtain ⟨-, -, -, hlll, -⟩ := gridStep_inHoldover (x := x) h
  have hexp := expires_at_limit (x := x) h hlimit
  have hwork : (gridStep x s).s.rfe.working = s.rfe.working := by rw [gridStep_eq]
  have hb := boundaryStart_eq (gridStep x s).entered (gridStep x s).s
  have hfal : b.fal = ((gridStep x s).s.fal.enterSeek .free).1 := by
    rw [show b = _ from hb]
    exact if_pos hexp
  have hloop : b.lll = (({ (gridStep x s).s.lll with stats := {} } : Lll).expire s.rfe.working).1 := by
    rw [show b = _ from hb, ← hwork]
    exact if_pos hexp
  refine ⟨hfal ▸ enterSeek_lost _ _, ?_, by rw [hloop]; rfl, by rw [hloop]; rfl, ?_, ?_⟩
  · rw [show b = _ from hb]
    exact hwork
  · rw [hloop, hlll]
    rfl
  · rw [hloop, hlll]
    rfl

/-- Out of holdover the miss check changes the aligner's state at the fourth miss alone (R55). -/
theorem missChecked_field (f : Fal) : (f.missChecked false).field = if f.fourthMiss false = true then .seek else f.field := by
  simp only [fourthMiss_iff]
  unfold Fal.missChecked
  by_cases hf : f.field = .seek
  · simp [hf]
  rw [if_neg hf, if_neg Bool.false_ne_true]
  cases hs : f.startSeen with
  | true => simp
  | false =>
    by_cases hm : 3 ≤ f.miss
    · rw [if_neg Bool.false_ne_true, if_pos (by omega), if_pos ⟨hf, by trivial, by trivial, hm⟩]
      exact (enterSeek_lost _ _).1
    · rw [if_neg Bool.false_ne_true, if_neg (by omega), if_neg (fun h => hm h.2.2.2)]

/-- Settles O23. -/
theorem flywheelAndHoldoverRunOut : Obligations.FlywheelAndHoldoverRunOut := by
  refine ⟨fun x s => ⟨fun hloop => ?_, fun hloop => ?_⟩, fun x s => ?_⟩
  · intro moved coasted agrees isStep stray
    have hnot (h : s.evaluation.entered = false) : exec (.flywheelLimit x) s = .next s := by
      rw [exec_flywheelLimit, flywheelHere_eq, h]
      rfl
    refine ⟨fun hset => ?_, fun hset hc => ?_, fun hset hc ha hstep => ?_⟩
    · have hev : s.evaluation = _ := evaluate_settling hloop hset
      exact ⟨hnot (by rw [hev]), fun hline =>
        ⟨lineEndWork x s, exec_lineEnd x s, lineEnd_moved hline (by rw [hev]) (by rw [hev])⟩⟩
    · have hev : s.evaluation = _ := evaluate_inCoast hloop hset hc
      exact ⟨hnot (by rw [hev]), fun hline =>
        ⟨lineEndWork x s, exec_lineEnd x s, lineEnd_moved hline (by rw [hev]; rfl) (by rw [hev])⟩⟩
    have hev : s.evaluation = s.lll.evalCoast s.cue.settings stray := by
      rw [evaluation_stray hloop hset hc ha, applyStray_of_not_step (show strayIsStep _ _ _ = false from hstep)]
      rfl
    refine ⟨fun hfly => ?_, fun hfly => ?_⟩
    · rw [evalCoast_below hfly] at hev
      exact ⟨hnot (by rw [hev]), fun hline =>
        ⟨lineEndWork x s, exec_lineEnd x s, lineEnd_moved hline (by rw [hev]; rfl) (by rw [hev])⟩⟩
    rw [evalCoast_limit hfly] at hev
    have hexec : exec (.flywheelLimit x) s = .next (lineEndWork x s) := by
      rw [exec_flywheelLimit, flywheelHere_eq, hev]
      rfl
    refine ⟨hexec, fun h16 hroom => ⟨lineEndWork x s, hexec, ?_⟩, fun hline => ⟨lineEndWork x s, hexec, ?_, ?_, ?_⟩⟩
    · have hrep : (s.lineReports x.order.missFirst)[0]? = some (repHoldover s.lll.p false s.lll.lastE) := by
        rw [lineReports_other h16, hev]
        rfl
      obtain ⟨g, hg⟩ := produceAll_getElem (s := s) hrep (by omega)
      have hgrid : (gridStep x s).s.rpw = (produceAll (s.lineReports x.order.missFirst) s).rpw := by rw [gridStep_eq]
      exact ⟨g, getElem?_of_prefix (lineEndWork_fifo x s) (hgrid ▸ hg)⟩
    · exact lineEnd_moved hline (by rw [hev]; rfl) (by rw [hev])
    · obtain ⟨-, -, -, -, -, -, -, -, htgn⟩ := lineEndWork_inField_blocks (x := x) hline
      rw [htgn]
    · obtain ⟨-, -, hfal, -⟩ := lineEndWork_inField_blocks (x := x) hline
      have hin : s.lll.inHoldover = false := by
        rw [← Bool.not_eq_true, Lll.inHoldover_iff]
        rcases hloop with h | h <;> rw [h] <;> simp
      have hin' : s.evaluation.lll.inHoldover = true := by
        rw [hev]
        rfl
      rw [hfal, missedHere_eq, State.lineFal]
      cases hm : s.missLine with
      | false => simp
      | true =>
        cases hf : x.order.missFirst with
        | false =>
          simp only [if_true, Bool.false_eq_true, if_false, false_and, hin', Fal.missChecked]
          split <;> rfl
        | true =>
          simp only [if_true, Bool.true_and, true_and, hin]
          exact missChecked_field s.fal
  · have hnot : ¬(s.lll.loop = .track ∨ s.lll.loop = .coast) := by
      rcases hloop with h | h | h <;> rw [h] <;> decide
    rw [exec_flywheelLimit, flywheelHere_eq, show s.evaluation.entered = false from (evaluate_unlocked hnot).2.2.1]
    rfl
  · intro reported
    have hexec (h : s.lll.inHoldover = true) (hend : s.tgn.length ≤ s.tgn.line)
        (hlimit : s.cue.settings.holdLimit ≤ s.lll.holdover + 1) : exec (.holdoverExpiry x) s = .next (lineEndWork x s) := by
      rw [exec_holdoverExpiry, expiresHere_eq, expires_at_limit h hlimit, (State.endsField_iff s).2 hend]
      rfl
    refine ⟨fun hl hend hlimit => ?_, fun r hl hr ho hend hlimit hstop => ?_, fun h => ?_⟩
    · have hin : s.lll.inHoldover = true := (Lll.inHoldover_iff _).2 (.inl hl)
      obtain ⟨hlost, hwork, hp, hhold, hloop, -⟩ := expiry_opens (x := x) hin hlimit
      rw [if_pos hl] at hloop
      have hc := State.Carried.fieldBoundary x.order (gridStep x s).entered (gridStep x s).s
      obtain ⟨hf, hshift, -⟩ := hc.lost hlost
      obtain ⟨hfl, hfp, hfh⟩ := hc.free ⟨hloop, by rw [hp, hwork], hhold⟩
      refine ⟨lineEndWork x s, hexec hin hend hlimit, exec_lineEnd x s, expiry_reported hin hend hlimit, ?_⟩
      rw [lineEndWork_boundary hend]
      simp only [beginLine_frame]
      exact ⟨hfl, hfp, hfh, hf, hshift⟩
    · have hin : s.lll.inHoldover = true := (Lll.inHoldover_iff _).2 (.inr ⟨hl, r, hr, ho⟩)
      obtain ⟨hlost, -, hp, hhold, hloop, hcap⟩ := expiry_opens (x := x) hin hlimit
      rw [if_neg (by rw [hl]; decide)] at hloop
      have hc := State.Carried.fieldBoundary x.order (gridStep x s).entered (gridStep x s).s
      obtain ⟨-, hlll, -⟩ := fieldBoundary_front_noCue (noCue_boundaryHead (x := x) (s := s) x.order
        (gridStep x s).entered (.inl (by rw [hstop]; decide)))
      refine ⟨lineEndWork x s, hexec hin hend hlimit, exec_lineEnd x s, expiry_reported hin hend hlimit, ?_⟩
      rw [lineEndWork_boundary hend]
      simp only [beginLine_frame, hlll]
      exact ⟨hloop.trans hl, by rw [hcap, hr]; rfl, hp, hhold, (hc.lost hlost).1⟩
    · rw [exec_holdoverExpiry, not_expires h]
      rfl

end Sys2Proof.Machine
end

section
/-!
PROOFS. The records of a boundary at which no cue runs: which they are, in whatever order its works stand
(R66, R117, R157, R174, R194; assumption log 6).
-/

namespace Sys2Proof.Machine

/-! ### The reports in the FIFO, in any order -/

/-- The reports that the FIFO holds. -/
def Rpw.reports (r : Rpw) : Multiset Report := (r.fifo.map (·.report) : List Report)

/-- With room for them all, just these reports join the FIFO. -/
def Rpw.Gains (r r' : Rpw) (m : Multiset Report) : Prop :=
  r.fifo.length + m.card ≤ 8 → r'.reports = r.reports + m

theorem Rpw.card_reports (r : Rpw) : r.reports.card = r.fifo.length := by simp [Rpw.reports]

theorem Rpw.mem_reports {r : Rpw} {rec : Report} : rec ∈ r.reports ↔ ∃ y ∈ r.fifo, y.report = rec := by
  simp [Rpw.reports]

namespace Rpw.Gains

variable {r r' r'' : Rpw} {m m' : Multiset Report}

theorem of_fifo (h : r'.fifo = r.fifo) : r.Gains r' 0 := fun _ => by simp [Rpw.reports, h]

theorem trans (h : r.Gains r' m) (h' : r'.Gains r'' m') : r.Gains r'' (m + m') := by
  intro hroom
  rw [Multiset.card_add] at hroom
  have h1 := h (by omega)
  have hcard : r'.fifo.length = r.fifo.length + m.card := by
    rw [← Rpw.card_reports, ← Rpw.card_reports r, h1, Multiset.card_add]
  rw [h' (by omega), h1, add_assoc]

theorem produce (r : Rpw) (rec : Report) : r.Gains (r.produce rec) {rec} := by
  intro hroom
  obtain ⟨g, hg⟩ := (Rpw.produce_room (r := r) (rec := rec) (by simpa using hroom)).1
  simp only [Rpw.reports, hg, List.map_append, List.map_cons, List.map_nil, ← Multiset.coe_add]
  rfl

end Rpw.Gains

/-- The reports as a state's report writer stamps them. -/
def State.stampAll (s : State) (rs : List Report) : Multiset Report := (rs.map (·.stamped s.tgn.stamp) : List Report)

theorem produceAll_gains (rs : List Report) (s : State) : s.rpw.Gains (produceAll rs s).rpw (s.stampAll rs) := by
  induction rs generalizing s with
  | nil => exact .of_fifo rfl
  | cons r rs ih => exact (Rpw.Gains.produce s.rpw (r.stamped s.tgn.stamp)).trans (ih (produce r s))

/-! ### The reports of the works behind the boundary's opening -/

/-- TEST/NOLOCK, where TST's comparison gives it (R194). -/
def State.nolockReports (s : State) : List Report :=
  if s.nolockHere then [repTestNolock s.lll.loop s.fal.field] else []

/-- FIELDSTAT, where it is enabled and the engine not STOPPED (R174). -/
def State.statReports (s : State) : List Report :=
  if decide (s.cue.engine ≠ .stopped) && s.cue.settings.fieldstat then [repFieldstat s.rpw.ended] else []

/-- The report of the swap test (R162). -/
def State.swapReports (s : State) : List Report :=
  match s.kbl.loader, s.kbl.load with
  | .ready, some r =>
    if s.swapProtected r || (s.swapGuard r).isSome then
      (if r.heldRep then [] else [repSwapHeld r (s.swapProtected r) (s.swapGuard r) s.cue.settings.protect])
    else [repSwapDone r]
  | _, _ => []

theorem swapReports_ready {s : State} {r : LoadRecord} (hready : s.kbl.loader = .ready) (hload : s.kbl.load = some r) :
    s.swapReports = if s.swapProtected r || (s.swapGuard r).isSome then
      (if r.heldRep then [] else [repSwapHeld r (s.swapProtected r) (s.swapGuard r) s.cue.settings.protect])
    else [repSwapDone r] := by
  simp only [State.swapReports, hready, hload]

theorem swapTest_gains (s : State) : s.rpw.Gains (swapTest s).rpw (s.stampAll s.swapReports) := by
  by_cases h : s.kbl.loader ≠ .ready ∨ s.kbl.load = none
  · have hnone : s.swapReports = [] := by
      unfold State.swapReports
      split
      · next hready hload => simp [hready, hload] at h
      · rfl
    rw [swapTest_of_not_ready h, hnone]
    exact .of_fifo rfl
  push Not at h
  obtain ⟨r, hload⟩ := Option.ne_none_iff_exists'.1 h.2
  rw [swapReports_ready h.1 hload]
  cases hheld : s.swapProtected r || (s.swapGuard r).isSome with
  | true =>
    rw [swapTest_held h.1 hload hheld]
    cases hr : r.heldRep with
    | true => exact .of_fifo rfl
    | false => exact Rpw.Gains.produce _ _
  | false =>
    rw [swapTest_swaps h.1 hload hheld]
    exact Rpw.Gains.produce _ _

theorem postStatus_fifo (s : State) : (postStatus s).rpw.fifo = s.rpw.fifo := by
  unfold postStatus
  (repeat' split) <;> rfl

theorem statusCopy_fifo (n : Nat) (s : State) : (statusCopy n s).rpw.fifo = s.rpw.fifo := by
  unfold statusCopy
  split
  · exact postStatus_fifo _
  · rfl

/-! ### The passage through the works -/

/-- The works done so far, of which TST's comparison has had its places `passed`, leave what the others read as `b`
has it, and have given the reports `m`. -/
structure Passage (p : TstPlace) (passed : List TstPlace) (b u : State) (m : Multiset Report) : Prop where
  lll      : u.lll = b.lll
  field    : u.fal.field = b.fal.field
  stamp    : u.tgn.stamp = b.tgn.stamp
  settings : u.cue.settings = b.cue.settings
  stopped  : u.cue.engine = .stopped ↔ b.cue.engine = .stopped
  ended    : u.rpw.ended = b.rpw.ended
  tst      : p ∉ passed → u.tst = b.tst
  done     : p ∈ passed → u.tst = (nolockTest b).tst
  gains    : b.rpw.Gains u.rpw m

namespace Passage

variable {p : TstPlace} {passed : List TstPlace} {b u v : State} {m : Multiset Report}

theorem start (p : TstPlace) (b : State) : Passage p [] b b 0 :=
  ⟨rfl, rfl, rfl, rfl, Iff.rfl, rfl, fun _ => rfl, fun h => absurd h List.not_mem_nil, .of_fifo rfl⟩

/-- A work of the other blocks. -/
theorem work (h : Passage p passed b u m) {m' : Multiset Report} (hlll : v.lll = u.lll) (hfield : v.fal.field = u.fal.field)
    (hstamp : v.tgn.stamp = u.tgn.stamp) (hset : v.cue.settings = u.cue.settings)
    (hstop : v.cue.engine = .stopped ↔ u.cue.engine = .stopped) (hended : v.rpw.ended = u.rpw.ended)
    (htst : v.tst = u.tst) (hgains : u.rpw.Gains v.rpw m') : Passage p passed b v (m + m') where
  lll := hlll.trans h.lll
  field := hfield.trans h.field
  stamp := hstamp.trans h.stamp
  settings := hset.trans h.settings
  stopped := hstop.trans h.stopped
  ended := hended.trans h.ended
  tst hp := htst.trans (h.tst hp)
  done hp := htst.trans (h.done hp)
  gains := h.gains.trans hgains

/-- A work of the other blocks that gives no report. -/
theorem quiet (h : Passage p passed b u m) (hlll : v.lll = u.lll) (hfield : v.fal.field = u.fal.field)
    (hstamp : v.tgn.stamp = u.tgn.stamp) (hset : v.cue.settings = u.cue.settings)
    (hstop : v.cue.engine = u.cue.engine) (hended : v.rpw.ended = u.rpw.ended) (htst : v.tst = u.tst)
    (hfifo : v.rpw.fifo = u.rpw.fifo) : Passage p passed b v m := by
  simpa using h.work hlll hfield hstamp hset (by rw [hstop]) hended htst (.of_fifo hfifo)

theorem falBoundary (h : Passage p passed b u m) : Passage p passed b (falBoundary u) m :=
  h.quiet rfl rfl rfl rfl rfl rfl rfl rfl

theorem stepFades (h : Passage p passed b u m) : Passage p passed b (stepFades u) m :=
  h.quiet rfl rfl rfl rfl rfl rfl rfl rfl

theorem boundaryGet (h : Passage p passed b u m) : Passage p passed b (boundaryGet u) m :=
  h.quiet (by simp) (by simp) (by simp) (by simp) (by simp) (State.Carried.boundaryGet u).ended (by simp) (by
    unfold Machine.boundaryGet
    split <;> simp)

theorem statusCopy (h : Passage p passed b u m) (n : Nat) : Passage p passed b (statusCopy n u) m :=
  h.quiet (by simp) (by simp) (by simp) (by simp) (by simp) (State.Carried.statusCopy n u).ended (by simp)
    (statusCopy_fifo n u)

theorem swapTest (h : Passage p passed b u m) : Passage p passed b (swapTest u) (m + u.stampAll u.swapReports) :=
  h.work (by simp) (by simp) (by simp) (by simp) (by simp) (State.Carried.swapTest u).ended (by simp) (swapTest_gains u)

theorem fieldstat (h : Passage p passed b u m) : Passage p passed b (fieldstat u) (m + b.stampAll b.statReports) := by
  have hrep : b.stampAll b.statReports = u.stampAll u.statReports := by
    have hstop : decide (u.cue.engine ≠ .stopped) = decide (b.cue.engine ≠ .stopped) := by
      simp only [ne_eq, h.stopped]
    simp only [State.stampAll, State.statReports, h.stamp, h.settings, h.ended, hstop]
  refine h.work (by simp) (by simp) (by simp) (by simp) (by simp) (State.Carried.fieldstat u).ended (by simp) ?_
  rw [hrep]
  unfold Machine.fieldstat State.statReports
  split
  · exact Rpw.Gains.produce _ _
  · exact .of_fifo rfl

theorem at_fieldstat (h : Passage p passed b u m) (q here : Place) :
    Passage p passed b (atPlace q here Machine.fieldstat u) (m + if q = here then b.stampAll b.statReports else 0) := by
  unfold atPlace
  split
  · exact h.fieldstat
  · simpa using h

/-- TST's comparison at its place finds what the opening left. -/
theorem at_nolock (h : Passage p passed b u m) {here : TstPlace} (hnew : here ∉ passed) :
    Passage p (here :: passed) b (atPlace p here nolockTest u)
      (m + if p = here then b.stampAll b.nolockReports else 0) := by
  unfold atPlace
  split
  · next hp =>
    subst hp
    have htst := h.tst hnew
    have hhere : u.nolockHere = b.nolockHere := by
      unfold State.nolockHere State.strictLock
      rw [htst, h.stamp, h.lll, h.field]
    have hgains : u.rpw.Gains (nolockTest u).rpw (b.stampAll b.nolockReports) := by
      unfold nolockTest State.nolockReports
      rw [hhere, h.lll, h.field]
      split
      · have hg := Rpw.Gains.produce u.rpw ((repTestNolock b.lll.loop b.fal.field).stamped b.tgn.stamp)
        rw [← h.stamp] at hg
        rw [State.stampAll, ← h.stamp]
        exact hg
      · exact .of_fifo rfl
    have hdone : (nolockTest u).tst = (nolockTest b).tst := by
      unfold nolockTest
      rw [hhere]
      split
      · simp [htst]
      · exact htst
    refine ⟨?_, ?_, ?_, ?_, ?_, ?_, fun hp => absurd (List.mem_cons_self) hp, fun _ => hdone, h.gains.trans hgains⟩
    · simpa using h.lll
    · simpa using h.field
    · simpa using h.stamp
    · simpa using h.settings
    · simpa using h.stopped
    · exact (State.Carried.nolockTest u).ended.trans h.ended
  · next hne =>
    refine ⟨h.lll, h.field, h.stamp, h.settings, h.stopped, h.ended, fun hp => h.tst fun hin => hp ?_,
      fun hp => h.done ?_, ?_⟩
    · exact List.mem_cons_of_mem _ hin
    · exact (List.mem_cons.1 hp).resolve_left hne
    · simpa using h.gains

end Passage

theorem swapReports_congr {s t : State} (hkbl : t.kbl = s.kbl) (hwsk : t.wsk = s.wsk) (hstamp : t.tgn.stamp = s.tgn.stamp)
    (hset : t.cue.settings = s.cue.settings) : t.swapReports = s.swapReports := by
  simp only [State.swapReports, State.swapProtected, State.swapGuard, hkbl, hwsk, hstamp, hset] <;> rfl

theorem waitTest_not_stopped (w : WaitRecord) (u : State) : (waitTest w u).1.cue.engine ≠ .stopped := by
  have hend (met : Bool) : (endWait met w u).cue.engine = .running := by
    unfold endWait retire writeTake advanceTake
    split <;> simp
  unfold waitTest
  split
  · rw [hend]; decide
  split
  · rw [hend]; decide
  · exact nofun

/-- An engine that executes no copy stops or starts no run from STOPPED. -/
theorem engineBoundary_stopped {u : State} (h : u.NoCue) :
    (engineBoundary u).1.cue.engine = .stopped ↔ u.cue.engine = .stopped := by
  unfold engineBoundary
  split
  case isTrue => rfl
  case isFalse hstart =>
    split
    case h_1 | h_2 => rfl
    case h_3 hrun =>
      unfold runningBoundary
      rcases h with h | h | h | ⟨hdue, hidle⟩
      · exact absurd hrun h
      · exact absurd h hstart
      · rw [if_pos (by simpa using h), hrun]
        simp
      · split
        · rw [hrun]
          simp
        · rw [hdue, hidle]
          rfl
    case h_4 hwait =>
      split
      · rfl
      · split
        · rw [hwait]
          simp
        · exact iff_of_false (waitTest_not_stopped _ _) (by rw [hwait]; decide)
    case h_5 hheld =>
      split
      · rfl
      · split
        · exact iff_of_false (waitTest_not_stopped _ _) (by rw [hheld]; decide)
        · rw [hheld]
          simp

section
variable {o : WorkOrder} {e : Bool} {s : State} {E : Multiset Report}

/-- The works up to the swap test. -/
theorem passage_cues (h : (boundaryHead (wskLast o) e s).NoCue)
    (hE : (boundaryHead (wskLast o) e s).rpw.Gains (engineBoundary (boundaryHead (wskLast o) e s)).1.rpw E) :
    let b := boundaryStart e s
    let u := (boundaryCues (wskLast o) (boundaryHead (wskLast o) e s)).1
    let n := fun here => if o.tst = here then b.stampAll b.nolockReports else 0
    Passage o.tst [.middle, .first] b u (n .first + E + n .middle) ∧ u.kbl = b.kbl ∧ u.wsk = b.wsk := by
  intro b u n
  have hhead : boundaryHead (wskLast o) e s =
      atPlace o.tst .first nolockTest (if o.falLate then b else falBoundary b) := by
    simp only [boundaryHead, atPlace_wskLast]
    rfl
  have hcues : u = atPlace o.tst .middle nolockTest (if o.falLate then falBoundary (engineBoundary
      (boundaryHead (wskLast o) e s)).1 else (engineBoundary (boundaryHead (wskLast o) e s)).1) := by
    simp only [u, boundaryCues, atPlace_wskLast]
    rfl
  have h1 : Passage o.tst [] b (if o.falLate then b else falBoundary b) 0 := by
    split
    · exact .start _ b
    · exact (Passage.start _ b).falBoundary
  have h2 := h1.at_nolock (here := .first) (by decide)
  rw [← hhead, zero_add] at h2
  obtain ⟨hrfe, hlll, hfal, htgn, hwsk, hkbl, htst, hset⟩ := engineBoundary_noCue h
  have h3 := h2.work hlll (by rw [hfal]) (by rw [htgn]) hset (engineBoundary_stopped h)
    (State.Carried.engineBoundary _).ended htst hE
  have h4 : Passage o.tst [.first] b (if o.falLate then falBoundary (engineBoundary
      (boundaryHead (wskLast o) e s)).1 else (engineBoundary (boundaryHead (wskLast o) e s)).1) (n .first + E) := by
    split
    · exact h3.falBoundary
    · exact h3
  refine ⟨hcues ▸ h4.at_nolock (by decide), ?_, ?_⟩
  · rw [hcues]
    simp only [atPlace_nolockTest_frame]
    have : (if o.falLate then falBoundary (engineBoundary (boundaryHead (wskLast o) e s)).1
        else (engineBoundary (boundaryHead (wskLast o) e s)).1).kbl = (boundaryHead (wskLast o) e s).kbl := by
      split
      · exact hkbl
      · exact hkbl
    rw [this, hhead]
    simp only [atPlace_nolockTest_frame]
    split <;> rfl
  · rw [hcues]
    simp only [atPlace_nolockTest_frame]
    have : (if o.falLate then falBoundary (engineBoundary (boundaryHead (wskLast o) e s)).1
        else (engineBoundary (boundaryHead (wskLast o) e s)).1).wsk = (boundaryHead (wskLast o) e s).wsk := by
      split
      · exact hwsk
      · exact hwsk
    rw [this, hhead]
    simp only [atPlace_nolockTest_frame]
    split <;> rfl

/-- A boundary at which no cue runs, with its records behind those of its opening: the engine's, and TST's, the swap
test's and FIELDSTAT at whatever places they stand. -/
theorem fieldBoundary_passage (h : (boundaryHead (wskLast o) e s).NoCue)
    (hE : (boundaryHead (wskLast o) e s).rpw.Gains (engineBoundary (boundaryHead (wskLast o) e s)).1.rpw E) :
    let b := boundaryStart e s
    Passage o.tst [.last, .afterCopy, .beforeCopy, .between, .middle, .first] b (fieldBoundary o e s)
      (E + b.stampAll b.nolockReports + b.stampAll b.swapReports + b.stampAll b.statReports) := by
  intro b
  let N := b.stampAll b.nolockReports
  let S := b.stampAll b.swapReports
  let F := b.stampAll b.statReports
  let n := fun here : TstPlace => if o.tst = here then N else 0
  let f := fun here : Place => if o.stat = here then F else 0
  obtain ⟨hcues, hkbl, hwsk⟩ := passage_cues h hE
  rw [fieldBoundary_late]
  show Passage _ _ b (boundaryTail (wskLast o) _ _) _
  generalize (boundaryCues (wskLast o) (boundaryHead (wskLast o) e s)).2 = due
  generalize (boundaryCues (wskLast o) (boundaryHead (wskLast o) e s)).1 = u at hcues hkbl hwsk
  have hcues : Passage o.tst [.middle, .first] b u (n .first + E + n .middle) := hcues
  have hswap {v : State} {m : Multiset Report} {l : List TstPlace} (hv : Passage o.tst l b v m)
      (hk : v.kbl = u.kbl) (hw : v.wsk = u.wsk) : Passage o.tst l b (stepFades (swapTest v)) (m + S) := by
    have hrep := hv.swapTest.stepFades
    rw [swapReports_congr (hk.trans hkbl) (hw.trans hwsk) hv.stamp hv.settings, State.stampAll, hv.stamp] at hrep
    exact hrep
  have hstat : Passage o.tst [.between, .middle, .first] b (swapAndStat (wskLast o) u)
      (n .first + E + n .middle + n .between + S + f .first + f .middle) := by
    by_cases hst : o.stat = .first
    · rw [swapAndStat_stat_first (o := wskLast o) hst, (atPlace_wskLast o stepFades _).2.2]
      have hp : Passage o.tst [.between, .middle, .first] b
          (stepFades (swapTest (atPlace o.tst .between nolockTest (fieldstat u))))
          (n .first + E + n .middle + F + n .between + S) :=
        hswap ((hcues.fieldstat).at_nolock (here := .between) (by decide)) (by simp) (by simp)
      have hf : f .first = F ∧ f .middle = 0 := ⟨if_pos hst, if_neg (by rw [hst]; decide)⟩
      have hm : n .first + E + n .middle + n .between + S + F = n .first + E + n .middle + F + n .between + S := by
        ac_rfl
      rw [hf.1, hf.2, add_zero, hm]
      exact hp
    · rw [swapAndStat_stat_later (o := wskLast o) hst, (atPlace_wskLast o stepFades _).2.2]
      have hp : Passage o.tst [.between, .middle, .first] b
          (atPlace o.stat .middle fieldstat (atPlace o.tst .between nolockTest (stepFades (swapTest u))))
          (n .first + E + n .middle + S + n .between + f .middle) :=
        ((hswap hcues rfl rfl).at_nolock (here := .between) (by decide)).at_fieldstat o.stat .middle
      have hf : f .first = 0 := if_neg hst
      have hm : n .first + E + n .middle + n .between + S + f .middle =
          n .first + E + n .middle + S + n .between + f .middle := by ac_rfl
      rw [hf, add_zero, hm]
      exact hp
  have htail : Passage o.tst [.last, .afterCopy, .beforeCopy, .between, .middle, .first] b (boundaryTail (wskLast o) due u)
      (n .first + E + n .middle + n .between + S + f .first + f .middle + n .beforeCopy + n .afterCopy + f .last + n .last) :=
    (((((hstat.at_nolock (here := .beforeCopy) (by decide)).boundaryGet.statusCopy due).at_nolock
      (here := .afterCopy) (by decide)).at_fieldstat o.stat .last).at_nolock (here := .last) (by decide)).quiet
      rfl rfl rfl rfl rfl rfl rfl rfl
  have hn : n .first + n .middle + n .between + n .beforeCopy + n .afterCopy + n .last = N := by
    simp only [n]
    cases o.tst <;> simp
  have hf : f .first + f .middle + f .last = F := by
    simp only [f]
    cases o.stat <;> simp
  have hm : n .first + E + n .middle + n .between + S + f .first + f .middle + n .beforeCopy + n .afterCopy + f .last +
      n .last = E + (n .first + n .middle + n .between + n .beforeCopy + n .afterCopy + n .last) + S +
      (f .first + f .middle + f .last) := by ac_rfl
  rw [hm, hn, hf] at htail
  exact htail

end

end Sys2Proof.Machine
end

section
/-!
PROOFS. A field's end at which no cue runs: every record of it, and O56.
-/

namespace Sys2Proof.Machine

/-! ### The engine's records without a cue (R114, R117) -/

/-- WAITEND, and CUE/DONE where the cue asks for it. -/
def endReports (met : Bool) (w : WaitRecord) : List Report :=
  repWaitend met w :: if w.copy.words.reportDone then [repDone w.copy.words] else []

/-- What the test of a wait reports. -/
def State.waitReports (w : WaitRecord) (u : State) : List Report :=
  if u.condMet w.cond then endReports true w else if w.expired then endReports false w else []

/-- What the engine reports at a boundary at which it executes no copy. -/
def State.engineReports (u : State) : List Report :=
  if u.cue.startup || u.pins.hold then []
  else
    match u.cue.engine, u.cue.wait with
    | .waiting, some w => u.waitReports { w with count := w.count + 1 }
    | .held, some w => if u.cue.heldFrom = some .waiting then u.waitReports w else []
    | _, _ => []

/-! ### The engine's boundary work, case by case (R97, R110, R117, R118) -/

section
variable {u : State} {w : WaitRecord}

theorem engineBoundary_off (h : u.cue.startup = true ∨ u.cue.engine = .stopped ∨ u.cue.engine = .halted) :
    engineBoundary u = (u, 0) := by
  unfold engineBoundary
  rcases h with h | h | h
  · rw [if_pos h]
  · rw [h, ite_self]
  · rw [h, ite_self]

theorem engineBoundary_waiting (hs : u.cue.startup = false) (he : u.cue.engine = .waiting) : engineBoundary u =
    match u.cue.wait with
    | none => (u, 0)
    | some w =>
      if u.pins.hold then
        ({ u with cue := { u.cue with
          engine := .held, heldFrom := some .waiting, wait := some { w with count := w.count + 1 } } }, 0)
      else waitTest { w with count := w.count + 1 } u := by
  unfold engineBoundary
  rw [hs, if_neg Bool.false_ne_true, he] <;> cases u.cue.wait <;> rfl

theorem engineBoundary_held (hs : u.cue.startup = false) (he : u.cue.engine = .held) (hh : u.pins.hold = true) :
    engineBoundary u = (u, 0) := by
  unfold engineBoundary
  rw [hs, if_neg Bool.false_ne_true, he]
  exact if_pos hh

theorem engineBoundary_retakes (hs : u.cue.startup = false) (he : u.cue.engine = .held) (hh : u.pins.hold = false)
    (hf : u.cue.heldFrom = some .waiting) (hw : u.cue.wait = some w) :
    engineBoundary u = waitTest w { u with cue := { u.cue with heldFrom := none } } := by
  unfold engineBoundary
  rw [hs, if_neg Bool.false_ne_true, he, hh]
  simp only [Bool.false_eq_true, if_false, hf, hw]

theorem engineBoundary_resumes (hs : u.cue.startup = false) (he : u.cue.engine = .held) (hh : u.pins.hold = false)
    (hf : u.cue.heldFrom ≠ some .waiting ∨ u.cue.wait = none) :
    engineBoundary u = ({ u with cue := { u.cue with heldFrom := none, engine := .running } }, 0) := by
  unfold engineBoundary
  rw [hs, if_neg Bool.false_ne_true, he, hh]
  simp only [Bool.false_eq_true, if_false]
  split
  · next hf' hw' =>
    rcases hf with hf | hf
    · exact absurd hf' hf
    · rw [hw'] at hf
      exact absurd hf nofun
  · rfl

/-- HOLD keeps a RUNNING engine's copies from being executed (R118). -/
theorem runningBoundary_holds (hh : u.pins.hold = true) : runningBoundary u =
    ({ clearDue (endScan u) with cue := { (clearDue (endScan u)).cue with engine := .held, heldFrom := some .running } },
      0) := if_pos hh

/-- With nothing to execute a RUNNING engine ends its scan (R107). -/
theorem runningBoundary_empty (hh : u.pins.hold = false) (hd : u.cue.due = []) (hi : u.cue.idle = none) :
    runningBoundary u = (clearDue (endScan u), 0) := by
  unfold runningBoundary
  dsimp only
  rw [if_neg (by simpa using hh), hd, hi]
  rfl

end

theorem retire_fifo (b : Bool) (s : State) : (retire b s).rpw.fifo = s.rpw.fifo := by
  unfold retire writeTake
  split
  · rfl
  · simp only [grant_frame, postTake_frame, advanceTake, cueTriggerTest]
    split <;> rfl

theorem endWait_gains (met : Bool) (w : WaitRecord) (u : State) :
    u.rpw.Gains (endWait met w u).rpw (u.stampAll (endReports met w)) := by
  let v : State := produce (repWaitend met w) { u with cue := { u.cue with wait := none, engine := .running } }
  have hend : u.rpw.Gains v.rpw {(repWaitend met w).stamped u.tgn.stamp} := Rpw.Gains.produce _ _
  have hretire : v.rpw.Gains (retire w.isIdle v).rpw 0 := .of_fifo (retire_fifo _ _)
  have hstamp : (retire w.isIdle v).tgn.stamp = u.tgn.stamp := by simp [v]
  have hdone : (retire w.isIdle v).rpw.Gains (endWait met w u).rpw
      (u.stampAll (if w.copy.words.reportDone then [repDone w.copy.words] else [])) := by
    show (retire w.isIdle v).rpw.Gains (reportDone w.copy.words (retire w.isIdle v)).rpw _
    unfold reportDone
    split
    · have hp := Rpw.Gains.produce (retire w.isIdle v).rpw ((repDone w.copy.words).stamped u.tgn.stamp)
      rw [← hstamp] at hp
      rw [State.stampAll, ← hstamp]
      exact hp
    · exact .of_fifo rfl
  have hall := (hend.trans hretire).trans hdone
  rw [add_zero] at hall
  exact hall

theorem waitTest_gains (w : WaitRecord) (u : State) :
    u.rpw.Gains (waitTest w u).1.rpw (u.stampAll (u.waitReports w)) := by
  unfold waitTest State.waitReports
  split
  · exact endWait_gains _ _ _
  split
  · exact endWait_gains _ _ _
  · exact .of_fifo rfl

theorem engineBoundary_gains {u : State} (h : u.NoCue) :
    u.rpw.Gains (engineBoundary u).1.rpw (u.stampAll u.engineReports) := by
  have quiet {t : State × Nat} (ht : engineBoundary u = t) (hf : t.1.rpw.fifo = u.rpw.fifo) (hr : u.engineReports = []) :
      u.rpw.Gains (engineBoundary u).1.rpw (u.stampAll u.engineReports) := by
    rw [ht, hr]
    exact .of_fifo hf
  cases hs : u.cue.startup with
  | true => exact quiet (engineBoundary_off (.inl hs)) rfl (by simp [State.engineReports, hs])
  | false =>
    cases he : u.cue.engine with
    | stopped => exact quiet (engineBoundary_off (.inr (.inl he))) rfl (by simp [State.engineReports, he])
    | halted => exact quiet (engineBoundary_off (.inr (.inr he))) rfl (by simp [State.engineReports, he])
    | running =>
      have hnone : u.engineReports = [] := by simp [State.engineReports, he]
      rcases h with h | h | h | ⟨hd, hi⟩
      · exact absurd he h
      · exact absurd (hs.symm.trans h) nofun
      · exact quiet ((engineBoundary_running he hs).trans (runningBoundary_holds h)) rfl hnone
      · cases hh : u.pins.hold with
        | true => exact quiet ((engineBoundary_running he hs).trans (runningBoundary_holds hh)) rfl hnone
        | false => exact quiet ((engineBoundary_running he hs).trans (runningBoundary_empty hh hd hi)) rfl hnone
    | waiting =>
      have heq := engineBoundary_waiting hs he
      cases hw : u.cue.wait with
      | none =>
        rw [hw] at heq
        exact quiet heq rfl (by simp [State.engineReports, he, hw])
      | some w =>
        rw [hw] at heq
        cases hh : u.pins.hold with
        | true =>
          rw [hh] at heq
          exact quiet heq rfl (by simp [State.engineReports, hh])
        | false =>
          rw [hh] at heq
          have hrep : u.engineReports = u.waitReports { w with count := w.count + 1 } := by
            simp [State.engineReports, hs, hh, he, hw]
          rw [heq, hrep]
          exact waitTest_gains _ u
    | held =>
      cases hh : u.pins.hold with
      | true => exact quiet (engineBoundary_held hs he hh) rfl (by simp [State.engineReports, hh])
      | false =>
        by_cases hf : u.cue.heldFrom = some .waiting
        · cases hw : u.cue.wait with
          | none => exact quiet (engineBoundary_resumes hs he hh (.inr hw)) rfl (by simp [State.engineReports, he, hw])
          | some w =>
            have hrep : u.engineReports = u.waitReports w := by simp [State.engineReports, hs, hh, he, hw, hf]
            rw [engineBoundary_retakes hs he hh hf hw, hrep]
            exact waitTest_gains w { u with cue := { u.cue with heldFrom := none } }
        · refine quiet (engineBoundary_resumes hs he hh (.inl hf)) rfl ?_
          cases hw : u.cue.wait <;> simp [State.engineReports, he, hw, hf]

/-! ### A field's end at which no cue runs -/

theorem waitReports_le (w : WaitRecord) (u : State) : (u.waitReports w).length ≤ 2 := by
  have hend (met : Bool) : (endReports met w).length ≤ 2 := by
    unfold endReports
    split <;> simp
  unfold State.waitReports
  split
  · exact hend true
  split
  · exact hend false
  · exact Nat.zero_le 2

theorem waitReports_w0 {w : WaitRecord} {u : State} {r : Report} (h : r ∈ u.waitReports w) :
    r.w0 = 0x0501#16 ∨ r.w0 = 0x0502#16 ∨ r.w0 = 0x0404#16 := by
  have hend {met : Bool} (h : r ∈ endReports met w) : r.w0 = 0x0501#16 ∨ r.w0 = 0x0502#16 ∨ r.w0 = 0x0404#16 := by
    rcases List.mem_cons.1 h with rfl | h
    · cases met
      · exact .inr (.inl rfl)
      · exact .inl rfl
    · split at h
      · obtain rfl := List.mem_singleton.1 h
        exact .inr (.inr rfl)
      · exact absurd h List.not_mem_nil
  unfold State.waitReports at h
  split at h
  · exact hend h
  split at h
  · exact hend h
  · exact absurd h List.not_mem_nil

theorem engineReports_le (u : State) : u.engineReports.length ≤ 2 := by
  unfold State.engineReports
  split
  · exact Nat.zero_le 2
  split
  · exact waitReports_le _ _
  · split
    · exact waitReports_le _ _
    · exact Nat.zero_le 2
  · exact Nat.zero_le 2

theorem engineReports_w0 {u : State} {r : Report} (h : r ∈ u.engineReports) :
    r.w0 = 0x0501#16 ∨ r.w0 = 0x0502#16 ∨ r.w0 = 0x0404#16 := by
  unfold State.engineReports at h
  split at h
  · exact absurd h List.not_mem_nil
  split at h
  · exact waitReports_w0 h
  · split at h
    · exact waitReports_w0 h
    · exact absurd h List.not_mem_nil
  · exact absurd h List.not_mem_nil

theorem lineReports_le (s : State) (b : Bool) : (s.lineReports b).length ≤ 2 := by
  have hev : s.evaluation.reports.length ≤ 1 := evaluate_reports_le _ _ _ _
  have hmiss (h : Bool) : (s.fal.missReports h).length ≤ 1 := by
    unfold Fal.missReports
    split
    · unfold Fal.enterSeek
      dsimp only
      split <;> simp
    · exact Nat.zero_le 1
  unfold State.lineReports
  split
  · split
    · rw [List.length_append]
      exact Nat.add_le_add (hmiss _) hev
    · rw [List.length_append]
      exact Nat.add_le_add hev (hmiss _)
  · omega

/-- The state in which the boundary of a line end opens. -/
def State.opened (x : LineInputs) (s : State) : State := boundaryStart (gridStep x s).entered (gridStep x s).s

/-- The records of a field's end up to the aligner's and the cues' work: the line's, TST's of the field and the
expiry's. -/
def State.openingReports (x : LineInputs) (s : State) : Multiset Report :=
  s.stampAll (s.lineReports x.order.missFirst) +
    (gridStep x s).s.opening.stampAll
      ((gridStep x s).s.testReports ++ (gridStep x s).s.expiryReports (gridStep x s).entered)

theorem expiry_inHoldover {x : LineInputs} {s : State}
    (h : (gridStep x s).s.expiresNow (gridStep x s).entered = true) : s.lll.inHoldover = true := by
  unfold State.expiresNow State.holdoverOver at h
  simp only [Bool.and_eq_true, Bool.not_eq_true'] at h
  obtain ⟨hent, hin, -⟩ := h
  have hev : s.evaluation.entered = false := (gridStep_entered x s).symm.trans hent
  rw [gridStep_eq] at hin
  exact (evaluate_inHoldover hev).symm.trans hin

/-- The opening of a boundary writes at most three records. -/
theorem openingReports_le (x : LineInputs) (s : State) : (s.openingReports x).card ≤ 3 := by
  have htest : (gridStep x s).s.testReports.length ≤ 1 := by
    unfold State.testReports
    split
    · split
      · exact Nat.le_refl 1
      · exact Nat.zero_le 1
    · exact Nat.zero_le 1
  simp only [State.openingReports, State.stampAll, Multiset.card_add, Multiset.coe_card, List.length_map, List.length_append]
  cases hexp : (gridStep x s).s.expiresNow (gridStep x s).entered with
  | false =>
    rw [State.expiryReports, hexp]
    have := lineReports_le s x.order.missFirst
    simp only [Bool.false_eq_true, if_false, List.length_nil]
    omega
  | true =>
    rw [lineReports_inHoldover (expiry_inHoldover hexp)]
    have : ((gridStep x s).s.expiryReports (gridStep x s).entered).length ≤ 2 := by
      rw [State.expiryReports, if_pos hexp]
      unfold Fal.enterSeek
      dsimp only
      split <;> simp
    simp only [List.length_nil]
    omega

theorem opened_gains (x : LineInputs) (s : State) : s.rpw.Gains (s.opened x).rpw (s.openingReports x) := by
  have hgrid : s.rpw.Gains (gridStep x s).s.rpw (s.stampAll (s.lineReports x.order.missFirst)) := by
    rw [gridStep_eq]
    exact produceAll_gains _ s
  have hopen : (gridStep x s).s.rpw.Gains (s.opened x).rpw ((gridStep x s).s.opening.stampAll
      ((gridStep x s).s.testReports ++ (gridStep x s).s.expiryReports (gridStep x s).entered)) := by
    rw [show s.opened x = _ from boundaryStart_eq _ _]
    exact produceAll_gains _ (gridStep x s).s.opening
  exact hgrid.trans hopen

/-- Every record of a field's end at which no cue runs, found in a FIFO that was empty. -/
theorem lineEnd_records {x : LineInputs} {s : State} (hend : s.tgn.length ≤ s.tgn.line) (hno : s.NoCueAt x)
    (hempty : s.rpw.fifo = []) :
    let b := s.opened x
    (lineEndWork x s).rpw.reports = s.openingReports x +
      (b.stampAll (boundaryHead (wskLast x.order) (gridStep x s).entered (gridStep x s).s).engineReports +
        b.stampAll b.nolockReports + b.stampAll b.swapReports + b.stampAll b.statReports) := by
  intro b
  have hnc := noCue_boundaryHead (wskLast x.order) (gridStep x s).entered hno
  let u := boundaryHead (wskLast x.order) (gridStep x s).entered (gridStep x s).s
  have hustamp : u.tgn.stamp = b.tgn.stamp := by
    rw [show u.tgn.stamp = _ from boundaryHead_stamp _ _ _, show b = _ from boundaryStart_eq _ _]
    rfl
  have hE : u.rpw.Gains (engineBoundary u).1.rpw (b.stampAll u.engineReports) := by
    have h := engineBoundary_gains hnc
    unfold State.stampAll at h ⊢
    rw [← hustamp]
    exact h
  have hall : s.rpw.Gains (fieldBoundary x.order (gridStep x s).entered (gridStep x s).s).rpw (s.openingReports x +
      (b.stampAll u.engineReports + b.stampAll b.nolockReports + b.stampAll b.swapReports + b.stampAll b.statReports)) :=
    (opened_gains x s).trans ((fieldBoundary_passage hnc hE).gains)
  have ht : (lineEndWork x s).rpw = (fieldBoundary x.order (gridStep x s).entered (gridStep x s).s).rpw := by
    rw [lineEndWork_boundary hend, (beginLine_frame _).2.2.2.2.2.2.2.1]
  have hle (rs : List Report) : (b.stampAll rs).card = rs.length := by simp [State.stampAll]
  have hnolock : b.nolockReports.length ≤ 1 := by
    unfold State.nolockReports
    split <;> simp
  have hswap : b.swapReports.length ≤ 1 := by
    unfold State.swapReports
    (repeat' split) <;> simp
  have hstat : b.statReports.length ≤ 1 := by
    unfold State.statReports
    split <;> simp
  have hE2 := engineReports_le u
  have hop := openingReports_le x s
  have hroom : s.rpw.fifo.length + (s.openingReports x + (b.stampAll u.engineReports + b.stampAll b.nolockReports +
      b.stampAll b.swapReports + b.stampAll b.statReports)).card ≤ 8 := by
    rw [Multiset.card_add, Multiset.card_add, Multiset.card_add, Multiset.card_add, hle, hle, hle, hle, hempty,
      List.length_nil]
    omega
  rw [ht, hall hroom, Rpw.reports, hempty]
  exact zero_add _

/-! ### The swap test at the end of a field (R157, R158, R162) -/

theorem depths_getElem (k : Fin 8) : depths[k.val]'(k.isLt) = k := by
  revert k
  decide

theorem guardDepth_of_shallowest {st : Stack} {b : Fin 4} {i : Fin 8} (h : (st.slot i).guards b = true)
    (hmin : ∀ j, j < i → (st.slot j).guards b = false) : st.guardDepth b = some i.val := by
  have hlen : depths.length = 8 := rfl
  have hfind : depths.find? (fun i => (st.slot i).guards b) = some i := by
    refine List.find?_eq_some_iff_getElem.2 ⟨h, i.val, by rw [hlen]; exact i.isLt, depths_getElem i, fun j hj => ?_⟩
    have hj8 : j < 8 := by omega
    rw [show depths[j] = ⟨j, hj8⟩ from depths_getElem ⟨j, hj8⟩, hmin ⟨j, hj8⟩ (Fin.lt_def.2 hj)]
    rfl
  simp only [Stack.guardDepth, hfind, Option.map_some]

theorem guardDepth_isSome {st : Stack} {b : Fin 4} : (st.guardDepth b).isSome = true ↔ ∃ i, (st.slot i).guards b = true := by
  refine ⟨fun h => ?_, fun ⟨i, hi⟩ => ?_⟩
  · obtain ⟨n, hn⟩ := Option.isSome_iff_exists.1 h
    obtain ⟨i, hi, -⟩ := Option.map_eq_some_iff.1 hn
    exact ⟨i, List.find?_some (p := fun i => (st.slot i).guards b) hi⟩
  · by_contra hno
    have hnone := Option.not_isSome_iff_eq_none.1 hno
    rw [Stack.not_guards_of_guardDepth hnone i] at hi
    exact absurd hi nofun

/-- What the swap test leaves of the key banks. -/
theorem swapTest_kbl {u : State} {r : LoadRecord} (hready : u.kbl.loader = .ready) (hload : u.kbl.load = some r) :
    (swapTest u).kbl = if u.swapProtected r || (u.swapGuard r).isSome then u.kbl.hold r
      else u.kbl.swap r (!u.tgn.drives.isEmpty) := by
  cases hheld : u.swapProtected r || (u.swapGuard r).isSome with
  | true =>
    rw [swapTest_held hready hload hheld]
    split <;> rfl
  | false =>
    rw [swapTest_swaps hready hload hheld]
    rfl

/-- The swap test of a field's end at which no cue runs finds the banks, the stack and the settings of before. -/
theorem lineEnd_kbl {x : LineInputs} {s : State} (hend : s.tgn.length ≤ s.tgn.line) (hno : s.NoCueAt x) :
    ∃ u : State, (lineEndWork x s).kbl = (swapTest u).kbl ∧ u.kbl = { s.kbl with replaced := none } ∧
      u.tgn.drives = s.tgn.drives ∧ u.swapReports = (s.opened x).swapReports ∧
      u.cue.settings = s.cue.settings ∧ u.wsk.stack.stepAll u.tgn.stamp = (lineEndWork x s).wsk.stack := by
  have hnc := noCue_boundaryHead (wskLast x.order) (gridStep x s).entered hno
  obtain ⟨hpass, hkbl, hwsk⟩ := passage_cues hnc (engineBoundary_gains hnc)
  obtain ⟨n, hhead⟩ := boundaryHead_tgn (wskLast x.order) (gridStep x s).entered (gridStep x s).s
  obtain ⟨m, a, c, hcues⟩ := boundaryCues_tgn (wskLast x.order)
    (boundaryHead (wskLast x.order) (gridStep x s).entered (gridStep x s).s)
  have hb := boundaryStart_eq (gridStep x s).entered (gridStep x s).s
  refine ⟨(boundaryCues (wskLast x.order) (boundaryHead (wskLast x.order) (gridStep x s).entered (gridStep x s).s)).1,
    ?_, ?_, ?_, swapReports_congr hkbl hwsk hpass.stamp hpass.settings, ?_, ?_⟩
  · rw [lineEndWork_boundary hend, (beginLine_frame _).2.2.2.2.2.2.1, fieldBoundary_late]
    exact boundaryTail_kbl _ _ _
  · rw [hkbl, hb]
    simp
  · rw [hcues, hhead]
    simp
  · rw [hpass.settings, hb]
    simp
  · rw [hwsk, hpass.stamp, hb, lineEndWork_stack_noCue hend hno]
    simp [nextField]

/-- LLL's reports of a line are of the LOCK class. -/
theorem evaluate_reports_lock {l : Lll} {st : Settings} {d : Standard} {line : Nat} {r : Report}
    (h : r ∈ (l.evaluate st d line).reports) : r.w0.toNat / 256 = 2 := by
  by_cases hl : l.loop = .track ∨ l.loop = .coast
  case neg => rw [(evaluate_unlocked hl).2.1] at h; exact absurd h List.not_mem_nil
  cases hs : l.settling with
  | true => rw [evaluate_settling hl hs] at h; exact absurd h List.not_mem_nil
  | false =>
    cases hc : st.inCoast line with
    | true => rw [evaluate_inCoast hl hs hc] at h; exact absurd h List.not_mem_nil
    | false =>
      rw [evaluate_measured hl hs hc] at h
      split at h
      · unfold Lll.evalAccepted at h
        dsimp only at h
        split at h
        · rw [List.mem_singleton.1 h]
          exact (by decide : (0x0203#16 : Word).toNat / 256 = 2)
        · exact absurd h List.not_mem_nil
      · split at h
        · unfold Lll.evalStep at h
          split at h <;>
            (rw [List.mem_singleton.1 h]; exact (by decide : (0x0202#16 : Word).toNat / 256 = 2))
        · unfold Lll.evalCoast at h
          split at h
          · rw [List.mem_singleton.1 h]
            exact (by decide : (0x0204#16 : Word).toNat / 256 = 2)
          · exact absurd h List.not_mem_nil

theorem enterSeek_reports_w0 {f : Fal} {why : LostReason} {r : Report} (h : r ∈ (f.enterSeek why).2) :
    r.w0 = 0x0304#16 := by
  unfold Fal.enterSeek at h
  dsimp only at h
  split at h
  · exact absurd h List.not_mem_nil
  · rw [List.mem_singleton.1 h]
    rfl

theorem mem_stampAll {s : State} {rs : List Report} {r : Report} :
    r ∈ s.stampAll rs ↔ ∃ q ∈ rs, q.stamped s.tgn.stamp = r := List.mem_map

/-- The records of a boundary's opening are of the classes LOCK, FIELD and TEST. -/
theorem openingReports_class {x : LineInputs} {s : State} {r : Report} (h : r ∈ s.openingReports x) :
    r.w0.toNat / 256 = 2 ∨ r.w0 = 0x0304#16 ∨ r.w0 = 0x0B01#16 := by
  have hmiss {b : Bool} {q : Report} (hq : q ∈ s.fal.missReports b) : q.w0 = 0x0304#16 := by
    unfold Fal.missReports at hq
    split at hq
    · exact enterSeek_reports_w0 hq
    · exact absurd hq List.not_mem_nil
  have hline {q : Report} (hq : q ∈ s.evaluation.reports) : q.w0.toNat / 256 = 2 := evaluate_reports_lock hq
  rcases Multiset.mem_add.1 h with h | h <;> obtain ⟨q, hq, rfl⟩ := mem_stampAll.1 h <;>
    change q.w0.toNat / 256 = 2 ∨ q.w0 = 0x0304#16 ∨ q.w0 = 0x0B01#16
  · unfold State.lineReports at hq
    split at hq
    · split at hq <;> rcases List.mem_append.1 hq with hq | hq
      · exact .inr (.inl (hmiss hq))
      · exact .inl (hline hq)
      · exact .inl (hline hq)
      · exact .inr (.inl (hmiss hq))
    · exact .inl (hline hq)
  · rcases List.mem_append.1 hq with hq | hq
    · unfold State.testReports at hq
      split at hq
      · split at hq
        · rw [List.mem_singleton.1 hq]
          exact .inr (.inr rfl)
        · exact absurd hq List.not_mem_nil
      · exact absurd hq List.not_mem_nil
    · unfold State.expiryReports at hq
      split at hq
      · rcases List.mem_cons.1 hq with rfl | hq
        · exact .inl (by decide : (0x0205#16 : Word).toNat / 256 = 2)
        · exact .inr (.inl (enterSeek_reports_w0 hq))
      · exact absurd hq List.not_mem_nil

/-- A field's end at which no cue runs gives SWAP/HELD by its swap test alone. -/
theorem lineEnd_not_held {x : LineInputs} {s : State} {r : Report} (hend : s.tgn.length ≤ s.tgn.line) (hno : s.NoCueAt x)
    (hempty : s.rpw.fifo = []) (hswap : (s.opened x).swapReports = []) (h : r ∈ (lineEndWork x s).rpw.reports) :
    r.w0 ≠ 0x0802#16 := by
  rw [lineEnd_records hend hno hempty, hswap] at h
  rcases Multiset.mem_add.1 h with h | h
  · intro hw
    rcases openingReports_class h with h | h | h
    · rw [hw] at h
      exact absurd h (by decide)
    · exact absurd (h.symm.trans hw) (by decide)
    · exact absurd (h.symm.trans hw) (by decide)
  rcases Multiset.mem_add.1 h with h | h
  · rcases Multiset.mem_add.1 h with h | h
    · rcases Multiset.mem_add.1 h with h | h <;> obtain ⟨q, hq, rfl⟩ := mem_stampAll.1 h
      · rcases engineReports_w0 hq with hw | hw | hw <;>
          exact fun hy => absurd (hw.symm.trans hy) (by decide)
      · unfold State.nolockReports at hq
        split at hq
        · rw [List.mem_singleton.1 hq]
          exact nofun
        · exact absurd hq List.not_mem_nil
    · exact absurd h (Multiset.notMem_zero _)
  · obtain ⟨q, hq, rfl⟩ := mem_stampAll.1 h
    unfold State.statReports at hq
    split at hq
    · rw [List.mem_singleton.1 hq]
      unfold repFieldstat
      dsimp only
      split <;> exact nofun
    · exact absurd hq List.not_mem_nil

/-- Settles O56. -/
theorem swapTestDecides : Obligations.SwapTestDecides := by
  intro x s hend hno
  obtain ⟨u, hkbl, hu, hdrives, hrep, hset, hstack⟩ := lineEnd_kbl hend hno
  refine ⟨lineEndWork x s, exec_lineEnd x s, fun hnot => ?_, fun r hready hload => ?_⟩
  · rw [hkbl, swapTest_of_not_ready (.inl (by rw [hu]; exact hnot)), hu]
  intro level guarded prot guard
  have hready' : u.kbl.loader = .ready := by rw [hu]; exact hready
  have hload' : u.kbl.load = some r := by rw [hu]; exact hload
  have hslot (i : Fin 8) : ((lineEndWork x s).wsk.stack.slot i).guards r.bank = true ↔ guarded i := by
    cases hs : (lineEndWork x s).wsk.stack.slot i with
    | empty => simp [guarded, hs, Slot.guards]
    | parked w => simp [guarded, hs, Slot.guards]
    | live w => simp [guarded, hs, Slot.guards]
  have hprot : u.swapProtected r = true ↔ prot := by
    simp only [State.swapProtected, isProtected, hset, decide_eq_true_eq]
    rfl
  have hguardEq : u.swapGuard r =
      if s.cue.settings.guard then (lineEndWork x s).wsk.stack.guardDepth r.bank else none := by
    rw [State.swapGuard, hset, hstack]
  have hguard : (u.swapGuard r).isSome = true ↔ guard := by
    rw [hguardEq]
    cases hg : s.cue.settings.guard with
    | false => simp [guard, hg]
    | true =>
      rw [if_pos rfl, guardDepth_isSome]
      simp only [guard, hg, true_and, hslot]
  have hheld : (u.swapProtected r || (u.swapGuard r).isSome) = true ↔ prot ∨ guard := by
    rw [Bool.or_eq_true, hprot, hguard]
  have hstamp : (s.opened x).tgn.stamp = s.tgn.stamp + 1 := by
    rw [State.opened, boundaryStart_eq]
    simp [nextField]
  have hmem (hempty : s.rpw.fifo = []) {rec : Report} (hrec : rec ∈ u.swapReports) :
      ∃ y ∈ (lineEndWork x s).rpw.fifo, y.report = rec.stamped (s.tgn.stamp + 1) := by
    refine Rpw.mem_reports.1 ?_
    rw [lineEnd_records hend hno hempty]
    refine Multiset.mem_add.2 (.inr (Multiset.mem_add.2 (.inl (Multiset.mem_add.2 (.inr ?_)))))
    rw [← hrep, State.stampAll, hstamp]
    exact List.mem_map.2 ⟨rec, hrec, rfl⟩
  have hswapped := swapTest_kbl hready' hload'
  have hreports := swapReports_ready hready' hload'
  refine ⟨fun h => ⟨?_, fun hempty hno' => ?_, fun hempty hyes y hy => ?_⟩, fun hnp hng => ?_⟩
  · rw [hkbl, hswapped, if_pos (hheld.2 h), hu]
    simp only [Kbl.hold, satSucc_eq_min]
  · rw [if_pos (hheld.2 h), hno', if_neg Bool.false_ne_true] at hreports
    obtain ⟨y, hy, hyr⟩ := hmem hempty (rec := repSwapHeld r (u.swapProtected r) (u.swapGuard r) u.cue.settings.protect)
      (by rw [hreports]; exact List.mem_singleton.2 rfl)
    refine ⟨y, hy, bitOf (u.swapProtected r), bitOf (u.swapGuard r).isSome, ?_, ?_, ?_, fun hng => ?_, fun i hg hi hmin => ?_⟩
    · rw [hyr, hset]
      rfl
    · cases hp : u.swapProtected r with
      | true => exact .inl ⟨rfl, hprot.1 hp⟩
      | false => exact .inr ⟨rfl, fun hy => absurd (hprot.2 hy) (by rw [hp]; exact nofun)⟩
    · cases hg : (u.swapGuard r).isSome with
      | true => exact .inl ⟨rfl, hguard.1 hg⟩
      | false => exact .inr ⟨rfl, fun hy => absurd (hguard.2 hy) (by rw [hg]; exact nofun)⟩
    · have hnone : u.swapGuard r = none := by
        rw [← Option.not_isSome_iff_eq_none, hguard]
        exact hng
      rw [hyr, hnone]
      rfl
    · have hsome : u.swapGuard r = some i.val := by
        rw [hguardEq, if_pos hg.1]
        exact guardDepth_of_shallowest ((hslot i).2 hi) fun j hj => by
          rw [← Bool.not_eq_true, hslot]
          exact hmin j hj
      rw [hyr, hsome]
      rfl
  · rw [if_pos (hheld.2 h), hyes, if_pos rfl] at hreports
    have hin := Rpw.mem_reports.2 ⟨y, hy, rfl⟩
    exact lineEnd_not_held hend hno hempty (hrep.symm.trans hreports) hin
  · have hno' : ¬(u.swapProtected r || (u.swapGuard r).isSome) = true := fun h => (hheld.1 h).elim hnp hng
    rw [if_neg hno'] at hreports hswapped
    refine ⟨?_, ?_, fun b => ?_, fun hd => ?_, fun hd => ?_, fun hempty => ?_⟩
    · rw [hkbl, hswapped]
      rfl
    · rw [hkbl, hswapped]
      rfl
    · rw [hkbl, hswapped, hu]
      simp only [Kbl.swap]
      by_cases hb : b = r.bank
      · subst hb
        simp
      · have hne : r.bank.val ≠ b.val := fun e => hb (Fin.ext e.symm)
        simp [hb, hne]
    · rw [hkbl, hswapped, hdrives, hd]
      rfl
    · rw [hkbl, hswapped, hdrives, hu]
      cases hl : s.tgn.drives with
      | nil => exact absurd hl hd
      | cons => rfl
    · obtain ⟨y, hy, hyr⟩ := hmem hempty (rec := repSwapDone r) (by rw [hreports]; exact List.mem_singleton.2 rfl)
      exact ⟨y, hy, hyr⟩

end Sys2Proof.Machine
end

section
/-!
PROOFS. The lock-time record of the test unit: TEST/NOLOCK at a boundary and TEST/LOCKED at an arrival (R194; O36).
-/

namespace Sys2Proof.Machine

/-! ### Strict lock at a boundary -/

theorem State.strictLock_iff (s : State) : s.strictLock = true ↔
    (s.lll.loop = .track ∨ s.lll.loop = .coast) ∧ s.fal.field = .lock := by
  simp only [State.strictLock, Bool.and_eq_true, Lll.locked_iff, decide_eq_true_eq]

theorem State.strictLock_eq_false {s : State} : s.strictLock = false ↔
    s.fal.field ≠ .lock ∨ (s.lll.loop ≠ .track ∧ s.lll.loop ≠ .coast) := by
  rw [← Bool.not_eq_true, State.strictLock_iff]
  tauto

theorem State.nolockHere_congr {s t : State} (htst : t.tst = s.tst) (hstamp : t.tgn.stamp = s.tgn.stamp)
    (hlll : t.lll = s.lll) (hfield : t.fal.field = s.fal.field) : t.nolockHere = s.nolockHere := by
  simp only [State.nolockHere, State.strictLock, htst, hstamp, hlll, hfield]

/-- TST's comparison closes an open record of eight fields and more without strict lock. -/
theorem State.nolockHere_iff {s : State} {entry : Stamp} (h : s.tst.lockTime = some entry) :
    s.nolockHere = true ↔ 8 ≤ (s.tgn.stamp - entry).toNat ∧ s.strictLock = false := by
  simp only [State.nolockHere, h, Bool.and_eq_true, decide_eq_true_eq, Bool.not_eq_true']

theorem missChecked_keeps_or_seeks (f : Fal) (b : Bool) :
    (f.missChecked b).field = .seek ∨ (f.missChecked b).field = f.field := by
  unfold Fal.missChecked
  (repeat' split)
  · exact .inr rfl
  · exact .inr rfl
  · exact .inr rfl
  · exact .inl (enterSeek_lost _ _).1
  · exact .inr rfl

theorem State.takeOffer_lockTime (o : Option Int) (s : State) : (takeOffer o s).tst.lockTime = s.tst.lockTime := by
  unfold takeOffer
  (repeat' split) <;> rfl

section
variable (x : LineInputs) (s : State)

theorem opened_stamp : (s.opened x).tgn.stamp = s.tgn.stamp + 1 := by
  rw [State.opened, boundaryStart_eq]
  simp [nextField]

theorem opened_lockTime : (s.opened x).tst.lockTime = s.tst.lockTime := by
  rw [State.opened, boundaryStart_eq, gridStep_eq]
  exact State.takeOffer_lockTime _ s

/-- At a boundary's opening the aligner is in the state the line found, or in F_SEEK. -/
theorem opened_field : (s.opened x).fal.field = .seek ∨ (s.opened x).fal.field = s.fal.field := by
  rw [State.opened, boundaryStart_eq]
  show (State.openedFal _ _).field = _ ∨ (State.openedFal _ _).field = _
  unfold State.openedFal
  split
  · exact .inl (enterSeek_lost _ _).1
  · rw [gridStep_eq]
    show (s.lineFal x.order.missFirst).field = _ ∨ (s.lineFal x.order.missFirst).field = _
    unfold State.lineFal
    split
    · exact missChecked_keeps_or_seeks _ _
    · exact .inr rfl

/-- A line end brings no loop into a locked state. -/
theorem opened_loop (h : ¬(s.lll.loop = .track ∨ s.lll.loop = .coast)) :
    ¬((s.opened x).lll.loop = .track ∨ (s.opened x).lll.loop = .coast) := by
  have hgrid : (gridStep x s).s.lll.loop = s.lll.loop := by
    rw [gridStep_eq]
    exact (congrArg Lll.loop
      (evaluate_unlocked (st := s.cue.settings) (d := s.rfe.working) (line := s.tgn.line) h).1 : s.evaluation.lll.loop = _)
  rw [State.opened, boundaryStart_eq]
  show ¬((State.openedLoop _ _).loop = _ ∨ (State.openedLoop _ _).loop = _)
  unfold State.openedLoop
  split
  · show ¬((if (gridStep x s).s.lll.loop = .holdover then LoopState.free else (gridStep x s).s.lll.loop) = _ ∨
      (if (gridStep x s).s.lll.loop = .holdover then LoopState.free else (gridStep x s).s.lll.loop) = _)
    split
    · decide
    · rw [hgrid]
      exact h
  · split <;> exact hgrid ▸ h

/-- A line end brings no strict lock. -/
theorem opened_not_strict (h : s.strictLock = false) : (s.opened x).strictLock = false := by
  rw [State.strictLock_eq_false] at h ⊢
  rcases h with h | h
  · left
    rcases opened_field x s with hf | hf <;> rw [hf]
    · decide
    · exact h
  · right
    have hl := opened_loop x s (not_or.2 h)
    exact not_or.1 hl

/-- TST's comparison at a boundary, by the state the line finds. -/
theorem opened_nolockHere {entry : Stamp} (h : s.tst.lockTime = some entry) (hs : s.strictLock = false) :
    (s.opened x).nolockHere = true ↔ 8 ≤ (s.tgn.stamp + 1 - entry).toNat := by
  rw [State.nolockHere_iff ((opened_lockTime x s).trans h), opened_stamp, opened_not_strict x s hs]
  exact and_iff_left rfl

end

/-! ### The place of TST's comparison (log 6) -/

/-- Up to the cues the boundary's opening, and the aligner's and the stack's work, stand as TST's comparison finds
them. -/
theorem boundaryHead_nolockHere {o : WorkOrder} (e : Bool) (s : State) (h : o.tst ≠ .first) :
    (boundaryHead o e s).nolockHere = (boundaryStart e s).nolockHere ∧
    (boundaryHead o e s).tst = (boundaryStart e s).tst := by
  obtain ⟨-, hlll, hfal, htgn⟩ := boundaryHead_front o e s
  have htst : (boundaryHead o e s).tst = (boundaryStart e s).tst := by
    show (atPlace o.tst .first nolockTest (atPlace o.wsk .first stepFades
      (if o.falLate then boundaryStart e s else falBoundary (boundaryStart e s)))).tst = _
    rw [atPlace, if_neg h]
    simp only [atPlace_stepFades_frame]
    split <;> rfl
  refine ⟨State.nolockHere_congr htst ?_ hlll ?_, htst⟩
  · rw [htgn]
    split <;> rfl
  · rw [hfal]
    split <;> rfl

/-- Behind an engine that runs no cue TST's comparison finds what it would find before it. -/
theorem boundaryCues_nolockHere (o : WorkOrder) {u : State} (hno : u.NoCue) (h : o.tst ≠ .middle) :
    (boundaryCues o u).1.nolockHere = u.nolockHere := by
  obtain ⟨-, hlll, hfal, htgn, -, -, htst, -⟩ := engineBoundary_noCue hno
  obtain ⟨-, hlllC, hfalC, htgnC, -⟩ := boundaryCues_front o u
  refine State.nolockHere_congr (.trans ?_ htst) ?_ (hlllC.trans hlll) ?_
  · show (atPlace o.tst .middle nolockTest (atPlace o.wsk .middle stepFades
      (if o.falLate then falBoundary (engineBoundary u).1 else (engineBoundary u).1))).tst = _
    rw [atPlace, if_neg h]
    simp only [atPlace_stepFades_frame]
    split <;> rfl
  · rw [htgnC, ← htgn]
    split <;> rfl
  · rw [hfalC, ← hfal]
    split <;> rfl

/-- TEST/NOLOCK falls at a boundary where TST's comparison, at its place, finds the record due: before the cues, or
at any place of a boundary that runs none. -/
theorem nolockNow_eq {x : LineInputs} {s : State} (h : x.order.tst = .first ∨ s.NoCueAt x) :
    s.nolockNow x = (s.endsField && (s.opened x).nolockHere) := by
  unfold State.nolockNow
  dsimp only
  rw [gridStep_endsField]
  congr 1
  by_cases hf : x.order.tst = .first
  · rw [hf]
    exact (boundaryHead_nolockHere (o := { x.order with tst := .last }) _ _ nofun).1
  · obtain ⟨hhead, -⟩ := boundaryHead_nolockHere (gridStep x s).entered (gridStep x s).s hf
    have hcues := boundaryCues_nolockHere { x.order with tst := .last } (noCue_boundaryHead x.order
      (gridStep x s).entered (h.resolve_left hf)) nofun
    refine .trans ?_ (hcues.trans hhead)
    split
    · next hc => exact absurd hc hf
    · rfl

/-- With the record due before the cues, TEST/NOLOCK is in the FIFO whatever cues the boundary then runs. -/
theorem nolock_first_reported {x : LineInputs} {s : State} (hend : s.tgn.length ≤ s.tgn.line)
    (hfirst : x.order.tst = .first) (hdue : (s.opened x).nolockHere = true) (hempty : s.rpw.fifo = []) :
    ∃ r ∈ (lineEndWork x s).rpw.fifo, r.report =
      (repTestNolock (s.opened x).lll.loop (s.opened x).fal.field).stamped (s.tgn.stamp + 1) := by
  let b := s.opened x
  let u := atPlace x.order.wsk .first stepFades (if x.order.falLate then b else falBoundary b)
  have hhead : boundaryHead x.order (gridStep x s).entered (gridStep x s).s = nolockTest u := by
    show atPlace x.order.tst .first nolockTest u = _
    exact if_pos hfirst
  have hu : u.rpw = b.rpw ∧ u.tst = b.tst ∧ u.tgn.stamp = b.tgn.stamp ∧ u.lll = b.lll ∧ u.fal.field = b.fal.field := by
    simp only [u, atPlace_stepFades_frame]
    split <;> exact ⟨rfl, rfl, rfl, rfl, rfl⟩
  obtain ⟨hrpw, htst, hstamp, hlll, hfield⟩ := hu
  have hgains : s.rpw.Gains b.rpw (s.openingReports x) := opened_gains x s
  have hlen : u.rpw.fifo.length < 8 := by
    have hle := openingReports_le x s
    rw [hrpw, ← Rpw.card_reports, hgains (by rw [hempty, List.length_nil]; omega), Multiset.card_add,
      Rpw.card_reports, hempty, List.length_nil]
    omega
  obtain ⟨g, hg⟩ := (Rpw.produce_room (rec := (repTestNolock u.lll.loop u.fal.field).stamped u.tgn.stamp) hlen).1
  have htest : (nolockTest u).rpw.fifo =
      u.rpw.fifo ++ [⟨(repTestNolock u.lll.loop u.fal.field).stamped u.tgn.stamp, g⟩] := by
    unfold nolockTest
    rw [if_pos ((State.nolockHere_congr htst hstamp hlll hfield).trans hdue)]
    exact hg
  have hprefix : (nolockTest u).rpw.fifo <+: (lineEndWork x s).rpw.fifo := by
    rw [lineEndWork_boundary hend, (beginLine_frame _).2.2.2.2.2.2.2.1, ← hhead]
    exact ((State.Carried.boundaryCues x.order _).trans (State.Carried.boundaryTail x.order _ _)).fifo
  refine ⟨_, hprefix.subset (by rw [htest]; exact List.mem_append_right _ (List.mem_singleton.2 rfl)), ?_⟩
  show (repTestNolock u.lll.loop u.fal.field).stamped u.tgn.stamp = _
  rw [hlll, hfield, hstamp, opened_stamp]

/-- A boundary that runs no cue closes the record with TEST/NOLOCK at whatever place. -/
theorem nolock_closes {x : LineInputs} {s : State} (hend : s.tgn.length ≤ s.tgn.line) (hno : s.NoCueAt x)
    (hdue : (s.opened x).nolockHere = true) :
    let t := lineEndWork x s
    t.lll = (s.opened x).lll ∧ t.fal.field = (s.opened x).fal.field ∧ t.tst.lockTime = none ∧
    (s.rpw.fifo = [] → ∃ r ∈ t.rpw.fifo, r.report =
      (repTestNolock (s.opened x).lll.loop (s.opened x).fal.field).stamped (s.tgn.stamp + 1)) := by
  intro t
  have hnc := noCue_boundaryHead (wskLast x.order) (gridStep x s).entered hno
  have hpass := fieldBoundary_passage hnc (engineBoundary_gains hnc)
  have hpassed : x.order.tst ∈ [TstPlace.last, .afterCopy, .beforeCopy, .between, .middle, .first] := by
    cases x.order.tst <;> decide
  have ht : t = beginLine (fieldBoundary x.order (gridStep x s).entered (gridStep x s).s) := lineEndWork_boundary hend
  refine ⟨?_, ?_, ?_, fun hempty => ?_⟩
  · rw [ht, (beginLine_frame _).2.1]
    exact hpass.lll
  · rw [ht, (beginLine_frame _).2.2.1]
    exact hpass.field
  · rw [ht, beginLine_tst]
    show (fieldBoundary x.order (gridStep x s).entered (gridStep x s).s).tst.lockTime = none
    rw [hpass.done hpassed]
    show (nolockTest (s.opened x)).tst.lockTime = none
    unfold nolockTest
    rw [if_pos hdue]
    rfl
  · refine Rpw.mem_reports.1 ?_
    rw [lineEnd_records hend hno hempty]
    refine Multiset.mem_add.2 (.inr (Multiset.mem_add.2 (.inl (Multiset.mem_add.2 (.inl (Multiset.mem_add.2 (.inr ?_)))))))
    rw [State.stampAll, opened_stamp]
    refine List.mem_map.2 ⟨repTestNolock (s.opened x).lll.loop (s.opened x).fal.field, ?_, rfl⟩
    rw [State.nolockReports, if_pos hdue]
    exact List.mem_singleton.2 rfl

/-! ### Arrivals (R38, R54, R194) -/

theorem tstWatch_locked {s : State} {entry : Stamp} (h : s.tst.lockTime = some entry) (hs : s.strictLock = true) :
    tstWatch s =
      produce (repTestLocked (s.tgn.stamp - entry).toNat) { s with tst := { s.tst with lockTime := none } } := by
  unfold tstWatch
  rw [h]
  exact if_pos hs

theorem handleStart_reports_le (f : Fal) (c : FieldCtx) (r : BroadRecord) : (f.handleStart c r).reports.length ≤ 1 := by
  by_cases h0 : c.misalignment r.parity (r.aligned c) = 0
  · rw [(handleStart_zero h0).2.2]
    split <;> simp
  by_cases hp : (c.misalignment r.parity (r.aligned c) - f.shift) % c.std.frame = 0
  · rw [(handleStart_pending h0 hp).2.2]
    exact Nat.zero_le 1
  · obtain ⟨_, _, _, -, -, -, -, -, -, -, -, -, hrep⟩ := handleStart_shift (f := f) (c := c) (r := r) rfl rfl h0 hp
    rw [hrep]
    split
    · split <;> simp
    · exact Nat.zero_le 1

theorem produceAll_fifo_le (rs : List Report) (s : State) :
    (produceAll rs s).rpw.fifo.length ≤ s.rpw.fifo.length + rs.length := by
  induction rs generalizing s with
  | nil => exact Nat.le_refl _
  | cons r rs ih =>
    refine (ih (produce r s)).trans ?_
    have hle : (produce r s).rpw.fifo.length ≤ s.rpw.fifo.length + 1 := by
      show (s.rpw.produce _).fifo.length ≤ _
      unfold Rpw.produce
      split
      · simp
      · simp
    rw [List.length_cons]
    omega

theorem broadArrival_lll (edge : Pu) (s : State) : (broadArrival edge s).lll = s.lll := by rw [broadArrival_eq]

/-- A BROAD arrival gives at most one report of the aligner's. -/
theorem broadArrival_fifo_le (edge : Pu) (s : State) : (broadArrival edge s).rpw.fifo.length ≤ s.rpw.fifo.length + 1 := by
  cases h : s.fal.broadStep s.lll edge with
  | ignored => rw [broadArrival_ignored h]; omega
  | opened => rw [broadArrival_opened h]; exact Nat.le_succ _
  | counted => simp only [broadArrival, h]; exact Nat.le_succ _
  | detected r =>
    cases hl : s.lll.locked with
    | false => rw [broadArrival_dropped h hl]; exact Nat.le_succ _
    | true =>
      rw [broadArrival_acted h hl]
      have := produceAll_fifo_le ((s.fal.detect r).handleStart s.fieldCtx r).reports s
      have := handleStart_reports_le (s.fal.detect r) s.fieldCtx r
      show (produceAll _ s).rpw.fifo.length ≤ _
      omega

/-- A LINE arrival gives no report but LOCK/ACQUIRED. -/
theorem arrive_reports (l : Lll) (st : Settings) (d : Standard) (line : Nat) (edge : Pu) (tick : Tick) :
    (l.arrive st d line edge tick).2 = [] ∨ ∃ p o, (l.arrive st d line edge tick).2 = [repAcquired p o] := by
  unfold Lll.arrive
  split
  case h_5 =>
    split
    · unfold Lll.captureArrival
      dsimp only
      (repeat' split)
      · exact .inl rfl
      · exact .inl rfl
      · exact .inr ⟨_, _, rfl⟩
      · exact .inl rfl
    · exact .inl rfl
  all_goals exact .inl rfl

/-- A second agreeing spacing snaps the capture into TRACK (R38). -/
theorem arrive_snaps {l : Lll} {st : Settings} {d : Standard} {line : Nat} {edge : Pu} {tick : Tick} {r : CaptureRecord}
    {d1 : Nat} (hl : l.loop = .capture) (hr : l.capture = some r) (h1 : r.first = some d1)
    (hmin : d.pMin / 16 ≤ (edge - r.lastEdge).toNat) (hmax : (edge - r.lastEdge).toNat ≤ d.pMax / 16)
    (htol : (((edge - r.lastEdge).toNat : Int) - d1).natAbs ≤ st.captureTol) :
    l.arrive st d line edge tick = l.snap d r (edge - r.lastEdge).toNat edge tick := by
  rw [arrive_capture hl hr, captureArrival_inside (by omega)]
  simp only [h1]
  exact if_pos htol

theorem produceAll_acquired_w0 {rs : List Report} (h : rs = [] ∨ ∃ p o, rs = [repAcquired p o]) (s : State) :
    ∀ q ∈ (produceAll rs s).rpw.fifo.drop s.rpw.fifo.length, q.report.w0 = 0x0201#16 := by
  rcases h with rfl | ⟨p, o, rfl⟩
  · simp [produceAll]
  · intro q hq
    by_cases hroom : s.rpw.fifo.length < 8
    · obtain ⟨g, hg⟩ := produceAll_single_room (rec := repAcquired p o) hroom
      rw [hg, List.drop_left, List.mem_singleton] at hq
      rw [hq]
      rfl
    · have hfull : (produceAll [repAcquired p o] s).rpw.fifo = s.rpw.fifo := by
        show (s.rpw.produce _).fifo = _
        unfold Rpw.produce
        rw [if_neg (by simpa [Rpw.accepts] using hroom)]
      rw [hfull, List.drop_length] at hq
      exact absurd hq List.not_mem_nil

/-- TEST/LOCKED of the record that `entry` opened. -/
theorem repTestLocked_stamped (n : Nat) (k : Stamp) :
    (repTestLocked n).stamped k = { w0 := 0x0B02#16, stamp := k, w4 := BitVec.ofNat 16 n } := rfl

/-- Settles O36: the boundary by the place of TST's comparison, then the arrivals, which TST watches last. -/
theorem lockTimeIsReported : Obligations.LockTimeIsReported := by
  refine ⟨fun x entry s => ?_, fun e rest entry s hmode hrec => ?_⟩
  · intro noCue
    refine ⟨fun hlock hend h8 hstrict hplace => ?_, fun h => ?_⟩
    · have hs : s.strictLock = false := State.strictLock_eq_false.2 hstrict
      have hdue : (s.opened x).nolockHere = true := (opened_nolockHere x s hlock hs).2 h8
      have hnow : s.nolockNow x = true := by
        rw [nolockNow_eq hplace, hdue, (State.endsField_iff s).2 hend]
        rfl
      refine ⟨lineEndWork x s, ?_, exec_lineEnd x s, fun hno => ?_, fun hempty => ?_⟩
      · rw [exec_testNolock, if_pos hnow]
      · obtain ⟨hlll, hfield, hnone, hrep⟩ := nolock_closes hend hno hdue
        rw [hlll, hfield]
        exact ⟨hnone, hrep⟩
      · have hrep : ∃ r ∈ (lineEndWork x s).rpw.fifo, r.report =
            (repTestNolock (s.opened x).lll.loop (s.opened x).fal.field).stamped (s.tgn.stamp + 1) := by
          rcases hplace with hfirst | hno
          · exact nolock_first_reported hend hfirst hdue hempty
          · exact (nolock_closes hend hno hdue).2.2.2 hempty
        obtain ⟨r, hr, heq⟩ := hrep
        exact ⟨r, hr, _, _, State.strictLock_eq_false.1 (opened_not_strict x s hs), heq⟩
    · have hnow : s.nolockNow x = false := by
        rcases h with hline | ⟨hno, hrec⟩
        · unfold State.nolockNow
          dsimp only
          rw [gridStep_endsField, (State.endsField_eq_false_iff s).2 hline, Bool.false_and]
        · have hyoung : (s.opened x).nolockHere = false := by
            rcases hrec with hnone | ⟨hlock, hlt⟩
            · simp only [State.nolockHere, opened_lockTime, hnone]
            · rw [← Bool.not_eq_true, State.nolockHere_iff ((opened_lockTime x s).trans hlock), opened_stamp]
              exact fun hy => absurd hy.1 (Nat.not_le.2 hlt)
          rw [nolockNow_eq (.inr hno), hyoung, Bool.and_false]
      rw [exec_testNolock, hnow]
      rfl
  · intro locked
    refine ⟨fun hrun => ?_, fun hlines hdue => ?_⟩
    · obtain ⟨u, hexec, hulll, hustamp, hurpw, hulock⟩ : ∃ u : State, exec .tstBroadArrival s = .next (broadPulse e u) ∧
          u.lll = s.lll ∧ u.tgn.stamp = s.tgn.stamp ∧ u.rpw = s.rpw ∧ u.tst.lockTime = some entry := by
        have h := exec_tstBroadArrival hrun
        rw [if_pos hmode] at h
        generalize tstBroadTick e = k at h
        exact ⟨_, h, rfl, rfl, rfl, hrec⟩
      have harr := broadArrival_eq e u
      have hlock : (broadArrival e u).tst.lockTime = some entry := by rw [harr]; exact hulock
      obtain ⟨hfal, -⟩ := broadPulse_fal e u
      have hlll : (broadArrival e u).lll = s.lll := (broadArrival_lll e u).trans hulll
      refine ⟨broadPulse e u, hexec, fun hl hf => ?_, fun h => ?_⟩
      · have hs : (broadArrival e u).strictLock = true :=
          (State.strictLock_iff _).2 ⟨by rw [hlll]; exact hl, hfal ▸ hf⟩
        have hwatch := tstWatch_locked hlock hs
        have hstamp : (broadArrival e u).tgn.stamp = s.tgn.stamp := by rw [harr]; exact hustamp
        rw [show broadPulse e u = _ from hwatch]
        refine ⟨rfl, fun hroom => ?_⟩
        have hle : (broadArrival e u).rpw.fifo.length < 8 :=
          (broadArrival_fifo_le e u).trans_lt (by rw [hurpw]; omega)
        obtain ⟨g, hg⟩ := produceAll_single_room
          (s := { broadArrival e u with tst := { (broadArrival e u).tst with lockTime := none } })
          (rec := repTestLocked ((broadArrival e u).tgn.stamp - entry).toNat) hle
        refine ⟨g, ?_⟩
        refine (congrArg List.getLast? hg).trans ?_
        rw [List.getLast?_append_cons]
        show some _ = _
        rw [hstamp]
        rfl
      · have hs : (broadArrival e u).strictLock = false := by
          rw [State.strictLock_eq_false, hlll, ← hfal]
          exact h.symm
        rw [show broadPulse e u = _ from tstWatch_of_not_strict hs]
        exact hlock
    · let u : State := { s.atTick (tstLineTick e) with tst := { s.tst with lines := rest } }
      let a := s.lll.arrive s.cue.settings s.rfe.working s.tgn.line e (tstLineTick e)
      have hreached : s.tstLineDue e = true := by
        simp only [State.tstLineDue, hmode, decide_true, Bool.true_and]
        exact decide_eq_true_iff.2 hdue
      have hrep := arrive_reports s.lll s.cue.settings s.rfe.working s.tgn.line e (tstLineTick e)
      have hw : u.withLoop a = { u with lll := a.1, rpw := (produceAll a.2 s).rpw } := by
        rw [withLoop_eq, produceAll_rpw_congr (s := s) (t := u) a.2 rfl rfl]
      have hlll : (lineArrival e (tstLineTick e) u).lll = a.1 := by rw [lineArrival_eq]; rfl
      refine ⟨lineArrival e (tstLineTick e) u, ?_, by rw [lineArrival_eq]; rfl, fun r hl hr d h1 => ?_, fun h => ?_⟩
      · rw [exec_tstLineArrival hlines, if_pos hreached]
      · intro sp hmin hmax htol
        have hsnap : a = s.lll.snap s.rfe.working r sp e (tstLineTick e) := arrive_snaps hl hr h1 hmin hmax htol
        have hloop : a.1.loop = .track := by rw [hsnap]; rfl
        refine ⟨hlll ▸ hloop, fun hf => ?_⟩
        have hs : (u.withLoop a).strictLock = true := by
          rw [State.strictLock_iff, hw]
          exact ⟨.inl hloop, hf⟩
        have hwatch := tstWatch_locked (s := u.withLoop a) (entry := entry) (by rw [hw]; exact hrec) hs
        rw [show lineArrival e (tstLineTick e) u = _ from hwatch]
        refine ⟨rfl, fun hroom => ?_⟩
        obtain ⟨p, o, hacq⟩ : ∃ p o, a.2 = [repAcquired p o] := by rw [hsnap]; exact ⟨_, _, rfl⟩
        obtain ⟨g, hg⟩ := produceAll_single_room (s := s) (rec := repAcquired p o) (by omega)
        have hfifo : (u.withLoop a).rpw.fifo = s.rpw.fifo ++ [⟨(repAcquired p o).stamped s.tgn.stamp, g⟩] := by
          rw [hw, hacq]
          exact hg
        obtain ⟨g', hg'⟩ := produceAll_single_room
          (s := { u.withLoop a with tst := { (u.withLoop a).tst with lockTime := none } })
          (rec := repTestLocked ((u.withLoop a).tgn.stamp - entry).toNat)
          (by rw [show _ = (u.withLoop a).rpw.fifo from rfl, hfifo]; simp; omega)
        have hall : (produce (repTestLocked ((u.withLoop a).tgn.stamp - entry).toNat)
            { u.withLoop a with tst := { (u.withLoop a).tst with lockTime := none } }).rpw.fifo =
            s.rpw.fifo ++ [⟨(repAcquired p o).stamped s.tgn.stamp, g⟩, ⟨locked, g'⟩] := by
          refine hg'.trans ?_
          rw [show (_ : List FifoRecord) = (u.withLoop a).rpw.fifo from rfl, hfifo, List.append_assoc, hw]
          rfl
        rw [hall]
        refine ⟨⟨List.take_left, ?_⟩, g', ?_⟩
        · rw [List.drop_left]
          rfl
        · rw [List.getLast?_append_cons]
          rfl
      · rw [hlll] at h
        have hs : (u.withLoop a).strictLock = false := by
          rw [State.strictLock_eq_false, hw]
          exact h
        have hwatch : lineArrival e (tstLineTick e) u = u.withLoop a := tstWatch_of_not_strict hs
        rw [hwatch, hw]
        refine ⟨hrec, fun q hq => ?_⟩
        rw [produceAll_acquired_w0 hrep s q hq]
        decide

end Sys2Proof.Machine
end

section
/-!
PROOFS. What a field's end says of the status writer's requests, and where it fails (R92, R94; O34).
-/

namespace Sys2Proof.Machine

/-- A NONE cue's copy, IMMEDIATE, with every other field 0. -/
def noneCopy : Copy := { index := some 0, standing := .immediate, words := CueWords.ofList (List.replicate 8 0), image := none }

/-- A field's last line, the engine RUNNING with a NONE cue due, and a status word among the cue engine's waiting
requests. No command puts one there; the state's type does not exclude it. -/
def misqueued : State := { State.reset with
  tgn := { State.reset.tgn with line := 313 }
  cue := { State.reset.cue with engine := .running, linkValid := true, qLen := 8, due := [noneCopy] }
  mpt := { cueQ := [.statusWord 0 0] } }

/-- The take write of the NONE cue has the idle port grant the oldest of the engine's requests, which here is a status
word: the status writer then has one in service, and the boundary's copy asks for none. -/
theorem misqueued_lineEnd : (lineEndWork {} misqueued).mpt.service = some ⟨.statusWord 0 0, false, 2304, none⟩ ∧
    (lineEndWork {} misqueued).mpt.sta = none ∧ (lineEndWork {} misqueued).cue.engine = .running ∧
    (lineEndWork {} misqueued).cue.linkValid = true ∧ (lineEndWork {} misqueued).rpw.suspended = false := by
  decide

/-- Refutes O34: that the first status word is asked for wherever the status writer had no word in service before the
line end. A state whose cue queue holds a status word gives it one in between, at the grant of the take write. -/
theorem not_fieldEndIsReported : ¬Obligations.FieldEndIsReported := by
  unfold Obligations.FieldEndIsReported
  intro h
  obtain ⟨t, ht, -, hcopy, -⟩ := h {} misqueued (by decide)
  obtain rfl : lineEndWork {} misqueued = t := Host.Outcome.next.inj ((exec_lineEnd {} misqueued).symm.trans ht)
  obtain ⟨-, hsta, hengine, hlink, hsuspended⟩ := misqueued_lineEnd
  obtain ⟨due, withheld, -, -, hwords⟩ := hcopy (by rw [hengine]; decide) hlink hsuspended
  have hposted := (hwords.1 rfl).1
  rw [hsta] at hposted
  exact absurd hposted nofun

end Sys2Proof.Machine
end

section
/-!
PROOFS. What retiring a copy does: take, the take write at the memory port, the cue trigger (R94, R112, R115).
-/

namespace Sys2Proof.Machine

/-! ### The take write at the port -/

/-- The waiting requests of the cue engine with a take write posted: one that waits is given the new value, else it
joins them (R112). -/
def takeQueue (write : Request) (queue : List Request) : List Request :=
  let revalued := queue.map (fun q => match q with | .takeWrite _ _ => write | q => q)
  if write ∈ revalued then revalued else queue ++ [write]

theorem postTake_cueQ (s : State) : (postTake s).mpt.cueQ =
    takeQueue (.takeWrite (s.cue.link.toNat + 8) s.cue.take) s.mpt.cueQ := by
  generalize hw : Request.takeWrite (s.cue.link.toNat + 8) s.cue.take = write
  have hiswrite : write.isTakeWrite = true := by rw [← hw]; rfl
  have hpost : (postTake s).mpt.cueQ = if s.mpt.cueQ.any Request.isTakeWrite then
      s.mpt.cueQ.map (fun q => if q.isTakeWrite then write else q) else s.mpt.cueQ ++ [write] := by
    rw [← hw]
    unfold postTake
    dsimp only
    split <;> rfl
  have hmap : s.mpt.cueQ.map (fun q => match q with | .takeWrite _ _ => write | q => q) =
      s.mpt.cueQ.map (fun q => if q.isTakeWrite then write else q) := by
    refine List.map_congr_left fun q _ => ?_
    cases q <;> rfl
  have hmem : write ∈ s.mpt.cueQ.map (fun q => if q.isTakeWrite then write else q) ↔
      s.mpt.cueQ.any Request.isTakeWrite = true := by
    rw [List.mem_map, List.any_eq_true]
    refine ⟨fun ⟨q, hq, h⟩ => ⟨q, hq, ?_⟩, fun ⟨q, hq, h⟩ => ⟨q, hq, if_pos h⟩⟩
    by_contra hno
    rw [if_neg hno] at h
    exact hno (h ▸ hiswrite)
  unfold takeQueue
  dsimp only
  rw [hpost, hmap]
  simp only [hmem]

theorem takeQueue_ne_nil (write : Request) (queue : List Request) : takeQueue write queue ≠ [] := by
  unfold takeQueue
  dsimp only
  split
  · next h => exact List.ne_nil_of_mem h
  · exact List.append_ne_nil_of_right_ne_nil _ (List.cons_ne_nil _ _)

theorem mem_takeQueue (write : Request) (queue : List Request) : write ∈ takeQueue write queue := by
  unfold takeQueue
  dsimp only
  split
  · assumption
  · exact List.mem_append_right _ (List.mem_singleton_self _)

/-- A port in service keeps it, and the take write waits. -/
theorem writeTake_busy {s : State} (h : s.mpt.service ≠ none) : writeTake s = { s with mpt := { s.mpt with
    cueQ := takeQueue (.takeWrite (s.cue.link.toNat + 8) s.cue.take) s.mpt.cueQ } } := by
  have hpost := postTake_eq s
  rw [postTake_cueQ] at hpost
  unfold writeTake
  rw [hpost]
  exact (grant_spec _).2 (.inl h)

/-- An idle port grants the oldest of the engine's requests (R94). -/
theorem writeTake_idle {s : State} {q : Request} {rest : List Request} (h : s.mpt.service = none)
    (hq : takeQueue (.takeWrite (s.cue.link.toNat + 8) s.cue.take) s.mpt.cueQ = q :: rest) :
    writeTake s = { s with mpt := { s.mpt with cueQ := rest, service := some ⟨q, false, s.rfe.tick, none⟩ } } := by
  have hpost := postTake_eq s
  rw [postTake_cueQ, hq] at hpost
  unfold writeTake
  rw [hpost]
  exact (grant_spec _).1 q { s.mpt with cueQ := rest } h rfl

/-! ### Retiring (R112, R115) -/

/-- Take past a copy, which the idle copy's leaves alone. -/
def State.takePast (isIdle : Bool) (s : State) : Nat := if isIdle then s.cue.take else (s.cue.take + 1) % s.cue.qLen

/-- The engine with a copy retired. -/
def State.cuePast (isIdle : Bool) (s : State) : Cue :=
  { s.cue with take := s.takePast isIdle, deferral := if isIdle then s.cue.deferral else none }

/-- The causes with a copy retired. -/
def State.latchedPast (isIdle : Bool) (s : State) : BitVec 8 :=
  if isIdle = false ∧ s.cue.trigger = some (s.takePast isIdle) then s.rpw.latched ||| Cause.cueTrigger.bit
  else s.rpw.latched

/-- The waiting requests of the cue engine with a copy retired. -/
def State.queuePast (isIdle : Bool) (s : State) : List Request :=
  takeQueue (.takeWrite (s.cue.link.toNat + 8) (s.takePast isIdle)) s.mpt.cueQ

theorem retire_idle (s : State) : retire true s = s := rfl

section
variable (isIdle : Bool) (s : State)

theorem advanceTake_spec (s : State) : advanceTake s = { s with
      cue := s.cuePast false, rpw := { s.rpw with latched := s.latchedPast false, seen := (advanceTake s).rpw.seen } } := by
  unfold advanceTake cueTriggerTest State.latchedPast
  dsimp only
  by_cases h : s.cue.trigger = some ((s.cue.take + 1) % s.cue.qLen)
  · have h' : false = false ∧ s.cue.trigger = some (s.takePast false) := ⟨rfl, h⟩
    rw [if_pos h, if_pos h']
    rfl
  · have h' : ¬(false = false ∧ s.cue.trigger = some (s.takePast false)) := fun hy => h hy.2
    rw [if_neg h, if_neg h']
    rfl

/-- Retiring a copy, block by block. -/
theorem retire_eq : retire isIdle s = { s with
    cue := s.cuePast isIdle, mpt := (retire isIdle s).mpt
    rpw := { s.rpw with latched := s.latchedPast isIdle, seen := (retire isIdle s).rpw.seen } } := by
  cases isIdle with
  | true => rfl
  | false =>
    have hadv := advanceTake_spec s
    have hwrite : retire false s = { advanceTake s with mpt := (writeTake (advanceTake s)).mpt } := by
      show writeTake (advanceTake s) = _
      by_cases h : (advanceTake s).mpt.service = none
      · obtain ⟨q, rest, hq⟩ := List.exists_cons_of_ne_nil (takeQueue_ne_nil
          (.takeWrite ((advanceTake s).cue.link.toNat + 8) (advanceTake s).cue.take) (advanceTake s).mpt.cueQ)
        rw [writeTake_idle h hq]
      · rw [writeTake_busy h]
    have hseen : (retire false s).rpw.seen = (advanceTake s).rpw.seen := by rw [hwrite]
    have hmpt : (retire false s).mpt = (writeTake (advanceTake s)).mpt := rfl
    rw [hseen, hmpt, hwrite]
    generalize (writeTake (advanceTake s)).mpt = m
    rw [hadv]

theorem retire_mpt_busy (h : s.mpt.service ≠ none) :
    (retire false s).mpt = { s.mpt with cueQ := s.queuePast false } := by
  have hadv := advanceTake_spec s
  show (writeTake (advanceTake s)).mpt = _
  rw [writeTake_busy (by rw [hadv]; exact h)]
  generalize (advanceTake s).rpw.seen = n at hadv
  rw [hadv]
  rfl

theorem retire_mpt_idle {q : Request} {rest : List Request} (h : s.mpt.service = none) (hq : s.queuePast false = q :: rest) :
    (retire false s).mpt = { s.mpt with cueQ := rest, service := some ⟨q, false, s.rfe.tick, none⟩ } := by
  have hadv := advanceTake_spec s
  have hq' : takeQueue (.takeWrite ((advanceTake s).cue.link.toNat + 8) (advanceTake s).cue.take)
      (advanceTake s).mpt.cueQ = q :: rest := by
    rw [hadv]
    exact hq
  show (writeTake (advanceTake s)).mpt = _
  rw [writeTake_idle (by rw [hadv]; exact h) hq']
  generalize (advanceTake s).rpw.seen = n at hadv
  rw [hadv]

end

end Sys2Proof.Machine
end

section
/-!
PROOFS. One copy at the engine: how its checks judge it and what becomes of it (R111, R112, R179 to R182); O46.
-/

namespace Sys2Proof.Machine

/-! ### The judgement of a copy (R113, R180) -/

section
variable {isIdle : Bool} {c : Copy} {s : State}

theorem judgeCopy_badField {w : Nat} {v : Word} (h : c.words.badField = some (w, v)) :
    judgeCopy isIdle c s = onFault .badCue c s (skipWith (repWarnBadCue c.words c.index w v)) := by
  unfold judgeCopy
  rw [h]
  rfl

/-- A copy whose fields pass their checks is of one of the kinds. -/
theorem kind_of_badField_none {w : CueWords} (h : w.badField = none) : ∃ k, cueKind w.kind = some k := by
  cases hk : cueKind w.kind with
  | some k => exact ⟨k, rfl⟩
  | none =>
    unfold CueWords.badField at h
    rw [hk] at h
    exact absurd h nofun

theorem judgeCopy_onTime {k : CueKind} (h : c.words.badField = none) (hk : cueKind c.words.kind = some k)
    (hs : c.standing ≠ .past) : judgeCopy isIdle c s = kindEffect isIdle k c s := by
  unfold judgeCopy
  rw [h, hk]
  exact if_neg hs

theorem judgeCopy_past {k : CueKind} (h : c.words.badField = none) (hk : cueKind c.words.kind = some k)
    (hs : c.standing = .past) : judgeCopy isIdle c s = onFault .late c s (fun s =>
      if c.words.lateRun then kindEffect isIdle k c (produce (repLate c.words) s)
      else skipWith (repSkipped c.words) s) := by
  unfold judgeCopy
  rw [h, hk]
  exact if_pos hs

/-! ### What becomes of a copy (R111) -/

variable {t : State}

theorem execCopy_performed (h : judgeCopy isIdle c s = (t, .performed)) :
    execCopy isIdle c s = (reportDone c.words (retire isIdle t), true, true) := by simp only [execCopy, h]

theorem execCopy_retired (h : judgeCopy isIdle c s = (t, .retired)) :
    execCopy isIdle c s = (t, true, true) := by simp only [execCopy, h]

theorem execCopy_skipped (h : judgeCopy isIdle c s = (t, .skipped)) :
    execCopy isIdle c s = (retire isIdle t, true, true) := by simp only [execCopy, h]

theorem execCopy_halting (h : judgeCopy isIdle c s = (t, .halting)) : execCopy isIdle c s =
    (produce (repHaltRequested c.words (reportDone c.words (retire isIdle t)).cue.take)
      (latch .halt (enterHalted .halt (reportDone c.words (retire isIdle t)))), true, false) := by
  simp only [execCopy, h]

/-- A copy that stops the engine is not retired. -/
theorem execCopy_stops {out : CopyOutcome} (h : judgeCopy isIdle c s = (t, out))
    (hout : out = .deferred ∨ out = .waiting ∨ out = .halted) : execCopy isIdle c s = (t, false, false) := by
  rcases hout with rfl | rfl | rfl <;> simp only [execCopy, h]

end

/-! ### The halt on an unmasked fault (R182) -/

/-- The engine HALTED, its wait, its scan and its copies gone. -/
def Cue.halt (c : Cue) (why : HaltReason) : Cue :=
  { c with
    engine := .halted, haltReason := some why, scan := none, due := [], idle := none, wait := none
    heldFrom := none }

theorem faultHalt_eq (k : FaultKind) (c : Copy) (s : State) : faultHalt k c s = { s with
    cue := s.cue.halt (.fault k), mpt := (faultHalt k c s).mpt, rpw := (faultHalt k c s).rpw } := rfl

theorem faultHalt_cueQ (k : FaultKind) (c : Copy) (s : State) : (faultHalt k c s).mpt.cueQ = [] := rfl

/-- A record that joins or is withheld latches no cause. -/
theorem Rpw.produce_causes (r : Rpw) (rec : Report) : (r.produce rec).latched = r.latched := by
  unfold Rpw.produce
  split <;> rfl

theorem faultHalt_latched (k : FaultKind) (c : Copy) (s : State) :
    (faultHalt k c s).rpw.latched = s.rpw.latched ||| Cause.halt.bit := Rpw.produce_causes (s.rpw.latch .halt) _

theorem faultHalt_fifo (k : FaultKind) (c : Copy) {s : State} (h : s.rpw.fifo.length < 8) :
    ∃ g, (faultHalt k c s).rpw.fifo = s.rpw.fifo ++
      [⟨(repHaltFault k c.words (c.index.map (fun _ => s.cue.take))).stamped s.tgn.stamp, g⟩] :=
  (Rpw.produce_room (r := s.rpw.latch .halt) h).1

/-! ### A copy skipped with its report, or halted on (R181, R182) -/

/-- A copy that a check stops is skipped with its report, or halts the engine. -/
def Stopped (isIdle : Bool) (c : Copy) (s : State) (k : FaultKind) (rep : Report) : Prop :=
  (s.masked k = true → judgeCopy isIdle c s = (produce rep s, .skipped)) ∧
  (s.masked k = false → judgeCopy isIdle c s = (faultHalt k c s, .halted))

theorem stopped_of_onFault {isIdle : Bool} {c : Copy} {s : State} {k : FaultKind} {rep : Report} {f : State → CopyResult}
    (h : judgeCopy isIdle c s = onFault k c s f) (hf : f s = skipWith rep s) : Stopped isIdle c s k rep :=
  ⟨fun hm => by rw [h, onFault_masked hm, hf]; rfl, fun hm => by rw [h, onFault_unmasked hm]⟩

/-- The kinds that lockdown keeps from acting (R161). -/
theorem kindEffect_lockdown {isIdle : Bool} {k : CueKind} {c : Copy} {s : State}
    (hk : k = .phase ∨ k = .select ∨ k = .settings) (h : s.lockdownActive = true) : kindEffect isIdle k c s =
      onFault .prot c s (skipWith (repWarnLockdown c.words s.pins.tally s.cue.settings.lockdown)) := by
  rcases hk with rfl | rfl | rfl <;> exact if_pos h

theorem lockdownActive_iff (s : State) : s.lockdownActive = true ↔
    s.cue.settings.lockdown = true ∧ s.pins.tally = true := by
  rw [State.lockdownActive, Bool.and_eq_true]

/-- The engine, the port and the causes after a copy is skipped. -/
theorem skipped_spec (isIdle : Bool) (rep : Report) (s : State) :
    let t := retire isIdle (produce rep s)
    t = { s with cue := t.cue, rpw := t.rpw, mpt := t.mpt } ∧ t.cue = s.cuePast isIdle ∧
    t.rpw.latched = s.latchedPast isIdle ∧
    (s.rpw.fifo.length < 8 → ∃ g, t.rpw.fifo = s.rpw.fifo ++ [⟨rep.stamped s.tgn.stamp, g⟩]) := by
  intro t
  have ht : t = _ := retire_eq isIdle (produce rep s)
  have hlatched : (produce rep s).rpw.latched = s.rpw.latched := Rpw.produce_causes _ _
  refine ⟨?_, ?_, ?_, fun hroom => ?_⟩
  · rw [ht]
    rfl
  · rw [ht]
    rfl
  · rw [ht]
    show (produce rep s).latchedPast isIdle = _
    unfold State.latchedPast
    rw [hlatched]
    rfl
  · obtain ⟨g, hg⟩ := (Rpw.produce_room (rec := rep.stamped s.tgn.stamp) hroom).1
    refine ⟨g, ?_⟩
    rw [ht]
    exact hg

/-- Settles O46. -/
theorem faultyCuesAreSkippedOrHalt : Obligations.FaultyCuesAreSkippedOrHalt := by
  intro isIdle c k rep s hcase r rest
  have hstop : (k = .late → c.words.lateRun = false) → Stopped isIdle c s k rep := by
    intro hlate
    rcases hcase with ⟨w, v, hbad, rfl, rfl⟩ | ⟨hbad, hpast, rfl, rfl⟩ | ⟨hbad, hpast, h11, h13, hlock, htally, rfl, rfl⟩
    · exact stopped_of_onFault (judgeCopy_badField hbad) rfl
    · obtain ⟨kind, hkind⟩ := kind_of_badField_none hbad
      exact stopped_of_onFault (judgeCopy_past hbad hkind hpast) (if_neg (by rw [hlate rfl]; exact Bool.false_ne_true))
    · have hkind : ∃ kind, cueKind c.words.kind = some kind ∧ (kind = .phase ∨ kind = .select ∨ kind = .settings) := by
        generalize c.words.kind = n at h11 h13
        interval_cases n
        · exact ⟨_, rfl, .inl rfl⟩
        · exact ⟨_, rfl, .inr (.inl rfl)⟩
        · exact ⟨_, rfl, .inr (.inr rfl)⟩
      obtain ⟨kind, hkind, hkinds⟩ := hkind
      refine stopped_of_onFault ((judgeCopy_onTime hbad hkind hpast).trans
        (kindEffect_lockdown hkinds ((lockdownActive_iff s).2 ⟨hlock, htally⟩))) ?_
      rw [htally, hlock]
  have hhalt : s.masked k = false → judgeCopy isIdle c s = (faultHalt k c s, .halted) := by
    intro hm
    rcases hcase with ⟨w, v, hbad, rfl, rfl⟩ | ⟨hbad, hpast, rfl, rfl⟩ | ⟨hbad, hpast, -, -, -, -, rfl, rfl⟩
    · exact (hstop nofun).2 hm
    · obtain ⟨kind, hkind⟩ := kind_of_badField_none hbad
      rw [judgeCopy_past hbad hkind hpast, onFault_unmasked hm]
    · exact (hstop nofun).2 hm
  refine ⟨fun hm hlate => ?_, fun hm => ?_⟩
  · have hexec : r = (retire isIdle (produce rep s), true, true) := execCopy_skipped ((hstop hlate).1 hm)
    obtain ⟨hrest, hcue, hlatched, hfifo⟩ := skipped_spec isIdle rep s
    have hr1 : r.1 = retire isIdle (produce rep s) := by rw [hexec]
    refine ⟨by rw [hexec], ?_, ?_, ?_, ?_⟩
    · show r.1 = { s with cue := r.1.cue, rpw := r.1.rpw, mpt := r.1.mpt }
      rw [hr1]
      exact hrest
    · rw [hr1]
      exact hfifo
    · rintro rfl
      rw [hr1]
      exact ⟨rfl, rfl⟩
    · rintro rfl
      rw [hr1]
      refine ⟨hcue, ⟨fun hs hq => ?_, fun hs => ?_⟩, fun htrig => ?_, fun htrig => ?_⟩
      · have hqueue : (produce rep s).queuePast false =
            [.takeWrite (s.cue.link.toNat + 8) ((s.cue.take + 1) % s.cue.qLen)] := by
          show takeQueue _ s.mpt.cueQ = _
          rw [hq]
          rfl
        rw [retire_mpt_idle (produce rep s) hs hqueue]
        rfl
      · rw [retire_mpt_busy (produce rep s) hs]
        exact ⟨mem_takeQueue _ _, rfl⟩
      · rw [hlatched]
        exact if_pos ⟨rfl, htrig⟩
      · rw [hlatched]
        exact if_neg fun h => htrig h.2
  · have hexec : r = (faultHalt k c s, false, false) := execCopy_stops (hhalt hm) (.inr (.inr rfl))
    have hr1 : r.1 = faultHalt k c s := by rw [hexec]
    refine ⟨by rw [hexec], ?_, ?_, ?_, ?_, ?_⟩
    · show r.1 = { s with cue := r.1.cue, rpw := r.1.rpw, mpt := r.1.mpt }
      rw [hr1]
      rfl
    · rw [hr1]
      exact faultHalt_latched k c s
    · rw [hr1]
      rfl
    · rw [hr1]
      rfl
    · rw [hr1]
      exact faultHalt_fifo k c

end Sys2Proof.Machine
end

section
/-!
PROOFS. A performed copy, and the effects of NONE, MARK, PHASE, OUTPUT, HALT and KEYLOAD cues (R112, R114, R120 to
R125, R153, R154, R159; O47).
-/

namespace Sys2Proof.Machine

/-! ### What judging a copy leaves (R60) -/

theorem stamp_engine (n : Stamp) : EngineKeeps fun u => u.tgn.stamp = n where
  produce _ _ h := h
  latch _ _ h := h
  mpt _ _ h := h
  cue _ _ _ _ h := h
  kind isIdle k c s _ _ h := by
    cases k with
    | output => exact h
    | _ => simpa [kindEffect] using h

theorem judgeCopy_stamp (isIdle : Bool) (c : Copy) (s : State) : (judgeCopy isIdle c s).1.tgn.stamp = s.tgn.stamp :=
  (stamp_engine s.tgn.stamp).judgeCopy isIdle c rfl

theorem judgeCopy_tick (isIdle : Bool) (c : Copy) (s : State) : (judgeCopy isIdle c s).1.rfe.tick = s.rfe.tick :=
  (State.Carried.engine.judgeCopy isIdle c (State.Carried.refl s)).tick

/-! ### CUE/DONE (R114) -/

/-- The CUE/DONE of a performed copy, where its flag asks for one. -/
def CueWords.doneReports (c : CueWords) : List Report := if c.reportDone then [repDone c] else []

theorem reportDone_eq (c : CueWords) (s : State) : reportDone c s = produceAll c.doneReports s := by
  unfold reportDone CueWords.doneReports
  split <;> rfl

theorem repDone_eq (c : CueWords) : repDone c =
    { w0 := 0x0404#16, tag := c.w3, w4 := BitVec.ofNat 16 c.kind, w5 := c.w1, w6 := BitVec.ofNat 16 (c.w2.toNat % 256) } := by
  rw [← bits_low]
  rfl

theorem produceAll_causes (rs : List Report) (s : State) : (produceAll rs s).rpw.latched = s.rpw.latched := by
  induction rs generalizing s with
  | nil => rfl
  | cons r rs ih => exact (ih (produce r s)).trans (Rpw.produce_causes _ _)

/-- A performed copy: retired, then its CUE/DONE (R112, R114). -/
theorem performed_eq (isIdle : Bool) (c : CueWords) (s : State) : reportDone c (retire isIdle s) = { s with
    cue := s.cuePast isIdle, mpt := (retire isIdle s).mpt, rpw := (reportDone c (retire isIdle s)).rpw } := by
  rw [reportDone_eq, produceAll_eq]
  have h := retire_eq isIdle s
  generalize (retire isIdle s).rpw.seen = n at h
  generalize (produceAll c.doneReports (retire isIdle s)).rpw = p
  rw [h]

theorem performed_latched (isIdle : Bool) (c : CueWords) (s : State) :
    (reportDone c (retire isIdle s)).rpw.latched = s.latchedPast isIdle := by
  rw [reportDone_eq, produceAll_causes, retire_eq]

theorem performed_adds (isIdle : Bool) (c : CueWords) (s : State) :
    s.rpw.Adds (reportDone c (retire isIdle s)).rpw (c.doneReports.map (·.stamped s.tgn.stamp)) := by
  have h := retire_eq isIdle s
  have hstamp : (retire isIdle s).tgn.stamp = s.tgn.stamp := by rw [h]
  have hretire : s.rpw.Adds (retire isIdle s).rpw [] := by
    rw [h]
    exact Rpw.Adds.of_eq rfl rfl
  have hdone := produceAll_adds c.doneReports (retire isIdle s)
  rw [hstamp, ← reportDone_eq] at hdone
  exact hretire.trans hdone

/-! ### The kinds' effects -/

section
variable {isIdle : Bool} {c : Copy} {s : State}

theorem lockdown_inactive (h : s.cue.settings.lockdown = false ∨ s.pins.tally = false) : s.lockdownActive = false := by
  rcases h with h | h <;> simp [State.lockdownActive, h]

theorem cuePhase_outside (hlock : s.lockdownActive = false) (h : s.rfe.working.half < c.words.w4.toInt.natAbs) :
    cuePhase c s = onFault .badCue c s (skipWith (repWarnBadCue c.words c.index 4 c.words.w4)) := by
  unfold cuePhase lockdownCheck
  rw [hlock, if_neg Bool.false_ne_true]
  exact if_pos h

/-- PHASE within the range: the settings, the H target, and the aligner's notice of a new V offset (R58, R121). -/
theorem cuePhase_inside (hlock : s.lockdownActive = false) (h : c.words.w4.toInt.natAbs ≤ s.rfe.working.half) :
    cuePhase c s = (vOffsetChange s.cue.settings.vOffset { s with
      cue := { s.cue with settings := { s.cue.settings with slew := c.words.w6.toNat, vOffset := c.words.w5.toNat } }
      lll := { s.lll with hTarget := c.words.w4.toInt } }, .performed) := by
  unfold cuePhase lockdownCheck
  rw [hlock, if_neg Bool.false_ne_true]
  exact if_neg (Nat.not_lt.2 h)

theorem vOffsetChange_same {old : Nat} (h : s.cue.settings.vOffset = old ∨ s.fal.field ≠ .lock) : vOffsetChange old s = s := by
  unfold vOffsetChange
  refine if_neg ?_
  rcases h with h | h <;> simp [h]

theorem vOffsetChange_locked {old : Nat} (h : s.cue.settings.vOffset ≠ old) (hf : s.fal.field = .lock) :
    vOffsetChange old s = produce (repFieldRealign { s.fal with field := .align, miss := 0 } .vOffset)
      { s with fal := { s.fal with field := .align, miss := 0 } } := by
  unfold vOffsetChange
  exact if_pos (by simp [h, hf])

/-- A cue level: LOW, HIGH, or what it was (R124). -/
theorem cueLevel_iff {code : Nat} (h : code ≤ 2) (old : Bool) :
    cueLevel code old = true ↔ code = 2 ∨ (code = 0 ∧ old = true) := by
  interval_cases code <;> simp [cueLevel]

theorem cueLevel_word {w : Word} (h : w.toNat ≤ 2) {old : Bool} :
    cueLevel w.toNat old = true ↔ w = 2 ∨ (w = 0 ∧ old = true) := by
  rw [cueLevel_iff h, ← BitVec.toNat_inj, ← BitVec.toNat_inj]
  rfl

/-- KEYLOAD of a bank not protected into an IDLE loader (R153, R154). -/
theorem cueKeyload_opens {b : Fin 4} (hb : c.words.loadBank = b.val) (hc : 0 < c.words.loadCount)
    (hp : c.words.loadBank + s.cue.settings.protect < 4) (hidle : s.kbl.loader = .idle) : cueKeyload isIdle c s =
      (openLoad b c.words.loadStart c.words.loadCount c.words.loadSource c.words.tag s, .performed) := by
  have hbank : Fin.ofNat 4 c.words.loadBank = b := by rw [hb]; exact Fin.ofNat_val_eq_self b
  have hprot : isProtected s.cue.settings.protect c.words.loadBank = false := by simp [isProtected]; omega
  unfold cueKeyload
  dsimp only
  rw [if_neg (by omega), hprot, if_neg Bool.false_ne_true, if_neg (not_not.2 hidle), hbank]

theorem cueKeyload_nothing (hc : c.words.loadCount = 0) (hl : s.kbl.load = none) : cueKeyload isIdle c s = (s, .performed) := by
  unfold cueKeyload
  dsimp only
  rw [if_pos hc, hl]

/-- The cancel of the load in hand (R159). -/
theorem cueKeyload_cancels {b : Fin 4} {l : LoadRecord} (hb : c.words.loadBank = b.val) (hc : c.words.loadCount = 0)
    (hl : s.kbl.load = some l) (hlb : l.bank = b) : cueKeyload isIdle c s =
      (produce (repSwapCancelled c.words.tag l s.kbl.loader) (closeLoad s), .performed) := by
  have hbank : Fin.ofNat 4 c.words.loadBank = b := by rw [hb]; exact Fin.ofNat_val_eq_self b
  unfold cueKeyload
  dsimp only
  rw [if_pos hc, hl, hbank]
  exact if_pos hlb

/-- The operands of an OUTPUT cue whose fields pass their checks (R124). -/
theorem output_levels (hbad : c.words.badField = none) (hk : c.words.kind = 14) :
    c.words.w4.toNat ≤ 2 ∧ c.words.w5.toNat ≤ 2 := by
  obtain ⟨-, -, -, -, -, -, -, -, -, -, hout, -⟩ := operandsHaveEncodings c.words
  have h := (hout ((bits_low c.words.w0).symm.trans hk)).symm.trans hbad
  rw [Option.map_eq_none_iff, List.find?_eq_none] at h
  have h4 := h _ (List.mem_cons_self)
  have h5 := h _ (List.mem_cons_of_mem _ (List.mem_cons_self))
  exact ⟨by simpa using h4, by simpa using h5⟩

end

/-- A performed copy, whatever its kind (R112, R114). -/
theorem performed_spec (isIdle : Bool) (c : CueWords) (s : State) :
    let e := reportDone c (retire isIdle s)
    (s.mpt.service ≠ none → isIdle = false → e.mpt = { s.mpt with cueQ := s.queuePast false }) ∧
    (∀ q rest, s.mpt.service = none → isIdle = false → s.queuePast false = q :: rest →
      e.mpt = { s.mpt with service := some ⟨q, false, s.rfe.tick, none⟩, cueQ := rest }) ∧
    (c.reportDone = false → e.rpw.fifo = s.rpw.fifo) ∧
    (c.reportDone = true → s.rpw.fifo.length < 8 →
      ∃ g, e.rpw.fifo = s.rpw.fifo ++ [⟨(repDone c).stamped s.tgn.stamp, g⟩]) := by
  intro e
  have hmpt : e.mpt = (retire isIdle s).mpt := by
    rw [show e = _ from performed_eq isIdle c s]
  have hfifo : (retire isIdle s).rpw.fifo = s.rpw.fifo := retire_fifo isIdle s
  have hstamp : (retire isIdle s).tgn.stamp = s.tgn.stamp := by rw [retire_eq]
  refine ⟨fun h hi => ?_, fun q rest h hi hq => ?_, fun h => ?_, fun h hroom => ?_⟩
  · rw [hmpt, hi]
    exact retire_mpt_busy s h
  · rw [hmpt, hi]
    exact retire_mpt_idle s h hq
  · rw [show e = retire isIdle s from if_neg (by rw [h]; exact Bool.false_ne_true)]
    exact hfifo
  · rw [show e = produce (repDone c) (retire isIdle s) from if_pos h]
    obtain ⟨g, hg⟩ := produceAll_single_room (s := retire isIdle s) (rec := repDone c) (by rw [hfifo]; exact hroom)
    exact ⟨g, by rw [← hfifo, ← hstamp]; exact hg⟩

/-- A HALT cue is retired, and then halts the engine (R125). -/
theorem halting_spec (isIdle : Bool) (c : Copy) (s : State) (h : judgeCopy isIdle c s = (s, .halting)) :
    let e := execCopy isIdle c s
    e.2 = (true, false) ∧
    e.1 = { s with cue := (s.cuePast isIdle).halt .halt, mpt := e.1.mpt, rpw := e.1.rpw } ∧
    e.1.rpw.latched = s.latchedPast isIdle ||| Cause.halt.bit ∧
    s.rpw.Adds e.1.rpw ((c.words.doneReports ++ [repHaltRequested c.words (s.takePast isIdle)]).map
      (·.stamped s.tgn.stamp)) := by
  intro e
  let u := reportDone c.words (retire isIdle s)
  have hu : u = { s with cue := s.cuePast isIdle, mpt := u.mpt, rpw := u.rpw } := by
    have hu := performed_eq isIdle c.words s
    rwa [show (retire isIdle s).mpt = u.mpt from by rw [show u = _ from hu]] at hu
  have hcue : u.cue = s.cuePast isIdle := by rw [hu]
  have hstamp : u.tgn.stamp = s.tgn.stamp := by rw [hu]
  have he : e = (produce (repHaltRequested c.words u.cue.take) (latch .halt (enterHalted .halt u)), true, false) :=
    execCopy_halting h
  have he1 : e.1 = produce (repHaltRequested c.words u.cue.take) (latch .halt (enterHalted .halt u)) := by rw [he]
  have hadds : u.rpw.Adds e.1.rpw [(repHaltRequested c.words u.cue.take).stamped u.tgn.stamp] := by
    rw [he1]
    exact ((Rpw.Adds.of_eq rfl rfl : u.rpw.Adds (latch .halt (enterHalted .halt u)).rpw []).trans (produce_adds _ _))
  refine ⟨by rw [he], ?_, ?_, ?_⟩
  · have hshape : e.1 = { u with cue := u.cue.halt .halt, mpt := e.1.mpt, rpw := e.1.rpw } := by
      rw [he1]
      rfl
    rw [hcue] at hshape
    generalize e.1.mpt = m at hshape ⊢
    generalize e.1.rpw = p at hshape ⊢
    rw [hshape, hu]
  · rw [he1]
    refine (Rpw.produce_causes _ _).trans ?_
    show u.rpw.latched ||| Cause.halt.bit = _
    rw [show u.rpw.latched = _ from performed_latched isIdle c.words s]
  · rw [hcue, hstamp] at hadds
    rw [List.map_append]
    exact (performed_adds isIdle c.words s).trans hadds

/-- Settles O47: the performed copy of any kind, then kind by kind. -/
theorem cuesHaveTheirEffects : Obligations.CuesHaveTheirEffects := by
  intro isIdle c s k r
  refine ⟨fun hperf => ?_, fun hbad hpast => ?_⟩
  · intro e take write revalued queue done
    have he : e = (reportDone c.words (retire isIdle r.1), true, true) :=
      execCopy_performed (show judgeCopy isIdle c s = (r.1, .performed) from Prod.ext rfl hperf)
    have he1 : e.1 = reportDone c.words (retire isIdle r.1) := by rw [he]
    obtain ⟨hbusy, hidle, hquiet, hdone⟩ := performed_spec isIdle c.words r.1
    have htick : r.1.rfe.tick = s.rfe.tick := judgeCopy_tick isIdle c s
    have hstamp : r.1.tgn.stamp = s.tgn.stamp := judgeCopy_stamp isIdle c s
    have hqueue (hi : isIdle = false) : r.1.queuePast false = queue := by
      subst hi
      rfl
    refine ⟨by rw [he], ?_, ?_, fun hi => ⟨fun hs => ?_, fun q rest hs hq => ?_⟩, ?_, fun h => ?_, fun h hroom => ?_⟩
    · have h := performed_eq isIdle c.words r.1
      rw [show (retire isIdle r.1).mpt = e.1.mpt from by rw [he1, h], ← he1] at h
      exact h
    · rintro rfl
      rw [he1, performed_eq]
      rfl
    · rw [he1, hbusy hs hi, hqueue hi]
    · rw [he1, hidle q rest hs hi ((hqueue hi).trans hq), htick]
    · rw [he1, performed_latched]
      rfl
    · rw [he1, hquiet h]
    · obtain ⟨g, hg⟩ := hdone h hroom
      refine ⟨g, ?_⟩
      rw [he1, hg, hstamp, repDone_eq]
      rfl
  have hjudge {n : Nat} {K : CueKind} (hk : k = n) (hK : cueKind n = some K) : r = kindEffect isIdle K c s :=
    judgeCopy_onTime hbad (show cueKind c.words.kind = some K by rw [show c.words.kind = n from hk, hK]) hpast
  refine ⟨fun hk => hjudge hk rfl, fun hk => ?_, fun hk hlock hout => ?_, fun hk hlock hin => ?_, fun hk => ?_,
    fun hk => ?_, fun hk b hb => ?_⟩
  · rw [hjudge hk rfl]
    show (produce (repMark c.words) s, _) = _
    rw [repMark, bits_low]
    rfl
  · have hr : r = _ := (hjudge hk rfl).trans (cuePhase_outside (lockdown_inactive hlock) hout)
    refine ⟨fun hm => ?_, fun hm => ?_⟩
    · rw [hr, onFault_masked (k := .badCue) (s := s) hm]
      have hkind : c.words.kindWord = 11 := by
        rw [CueWords.kindWord, show c.words.kind = 11 from hk]
        rfl
      simp only [skipWith, repWarnBadCue, hkind]
      cases c.index <;> rfl
    · rw [hr, onFault_unmasked (k := .badCue) (s := s) hm]
  · have hr : r = _ := (hjudge hk rfl).trans (cuePhase_inside (lockdown_inactive hlock) hin)
    by_cases hchange : c.words.w5.toNat = s.cue.settings.vOffset ∨ s.fal.field ≠ .lock
    · rw [vOffsetChange_same (by exact hchange)] at hr
      rw [hr]
      refine ⟨rfl, rfl, rfl, rfl, fun _ => ⟨rfl, rfl⟩, fun h hf => ?_⟩
      exact absurd hchange (not_or.2 ⟨h, not_not.2 hf⟩)
    · obtain ⟨hv, hf⟩ := not_or.1 hchange
      rw [vOffsetChange_locked (by exact hv) (by exact not_not.1 hf)] at hr
      rw [hr]
      refine ⟨rfl, rfl, rfl, rfl, fun h => absurd h hchange, fun _ _ => ⟨rfl, fun hroom => ?_⟩⟩
      obtain ⟨g, hg⟩ := (Rpw.produce_room (r := s.rpw)
        (rec := (repFieldRealign { s.fal with field := .align, miss := 0 } .vOffset).stamped s.tgn.stamp) hroom).1
      refine ⟨g, hg.trans ?_⟩
      rw [repFieldRealign, fieldWord]
      cases s.fal.lastParity with
      | none => rfl
      | some q => cases q <;> rfl
  · obtain ⟨h4, h5⟩ := output_levels hbad hk
    rw [hjudge hk rfl]
    refine ⟨rfl, rfl, rfl, ?_, ?_⟩
    · rw [← cueLevel_word h4]
      rfl
    · rw [← cueLevel_word h5]
      rfl
  · intro e take done
    obtain ⟨hout, hstate, hlatched, hadds⟩ := halting_spec isIdle c s (hjudge hk rfl)
    refine ⟨hout, hstate, hlatched, fun hroom hgap => ?_⟩
    have hdone : c.words.doneReports.map (·.stamped s.tgn.stamp) = done := by
      unfold CueWords.doneReports
      rw [repDone_eq, show c.words.kind = 17 from hk]
      show List.map _ (if c.words.w0.getLsbD 10 = true then _ else _) = if c.words.w0.getLsbD 10 = true then _ else _
      split <;> rfl
    have hone : done.length ≤ 1 := by
      simp only [done]
      split <;> simp
    rw [List.map_append, hdone] at hadds
    rw [(hadds hgap (by simp only [List.length_append, List.length_map, List.length_singleton]; omega)).2,
      List.map_append, ← List.append_assoc]
    rfl
  · refine ⟨fun hc hp hidle => ?_, fun hc hl => ?_, fun l hc hl hlb => ?_⟩
    · rw [hjudge hk rfl]
      rw [show kindEffect isIdle .keyload c s = _ from cueKeyload_opens hb hc hp hidle]
      exact ⟨rfl, rfl, rfl⟩
    · rw [hjudge hk rfl]
      exact cueKeyload_nothing hc hl
    · rw [hjudge hk rfl]
      rw [show kindEffect isIdle .keyload c s = _ from cueKeyload_cancels hb hc hl hlb]
      exact ⟨rfl, rfl, rfl, rfl, rfl, rfl⟩

end Sys2Proof.Machine
end

section
/-!
PROOFS. The checks of the window cues and their effects on the stack (R129 to R137, R180; O49).
-/

namespace Sys2Proof.Machine

theorem Slot.isEmpty_iff (x : Slot) : x.isEmpty = true ↔ x = .empty := by cases x <;> simp [Slot.isEmpty]

/-! ### The slot check (R130) -/

section
variable {c : Copy} {i : Fin 8} {s : State} {ok : State → CopyResult}

theorem stackUnder_empty (h : s.wsk.stack.slot i = .empty) : stackUnder c i s ok = onFault .stackUnder c s
    (skipWith (repWarnStack false c.words i.val (s.wsk.stack.at i) (s.wsk.stack.slot i))) :=
  if_pos ((Slot.isEmpty_iff _).2 h)

theorem stackUnder_filled (h : s.wsk.stack.slot i ≠ .empty) : stackUnder c i s ok = ok s :=
  if_neg (mt (Slot.isEmpty_iff _).1 h)

end

/-- WARN/STACK_OVER and WARN/STACK_UNDER, field by field. -/
theorem repWarnStack_eq (isOver : Bool) (c : CueWords) (st : Stack) (i : Fin 8) :
    repWarnStack isOver c i.val (st.at i) (st.slot i) =
      { w0 := if isOver then 0x0905#16 else 0x0906#16, tag := c.w3, w4 := BitVec.ofNat 16 c.kind
        w5 := BitVec.ofNat 16 i.val, w6 := BitVec.ofNat 16 ((st.top.val + i.val) % 8)
        w7 := match st.slot i with | .empty => 0 | .parked _ => 1 | .live _ => 2 } := by
  unfold repWarnStack
  cases st.slot i <;> rfl

/-! ### The geometry check (R129) -/

/-- A geometry field of a cue: its bit, the value read and the value adopted. -/
def geoField (f : Nat × Nat × Nat) : GeoField := ⟨f.1, f.2.1, f.2.2⟩

/-- The geometry check as the report of the fields that leave the picture and what follows. -/
def Ranged (r : CopyResult) (c : Copy) (s : State) (depth : Nat) (fs : List (Nat × Nat × Nat)) (then_ : State → Prop) : Prop :=
  match fs.filter (fun f => f.2.1 ≠ f.2.2) with
  | [] => then_ s
  | f :: _ =>
    (s.masked .range = true → then_ (produce
      { w0 := 0x0904#16, tag := c.words.w3, w4 := BitVec.ofNat 16 depth
        w5 := BitVec.ofNat 16 (((fs.filter (fun f => f.2.1 ≠ f.2.2)).map (fun g => 2 ^ g.1)).sum)
        w6 := BitVec.ofNat 16 f.2.1, w7 := BitVec.ofNat 16 f.2.2 } s)) ∧
    (¬s.masked .range = true → r = (faultHalt .range c s, .halted))

theorem filter_geoField (fs : List (Nat × Nat × Nat)) : (fs.map geoField).filter (fun f => decide (f.read ≠ f.adopted)) =
    (fs.filter (fun f => f.2.1 ≠ f.2.2)).map geoField := by
  rw [List.filter_map]
  rfl

theorem clampReport_eq (tag : Word) (depth : Nat) (fs : List (Nat × Nat × Nat)) :
    clampReport tag depth (fs.map geoField) = match fs.filter (fun f => f.2.1 ≠ f.2.2) with
      | [] => none
      | f :: rest => some (repWarnRange tag depth ((((f :: rest).map geoField).map (fun x => 2 ^ x.bit)).sum) f.2.1 f.2.2) := by
  unfold clampReport
  dsimp only
  rw [filter_geoField]
  cases fs.filter (fun f => f.2.1 ≠ f.2.2) with
  | nil => rfl
  | cons f rest => rfl

theorem rangeCheck_ranged {c : Copy} {depth : Nat} {fs : List (Nat × Nat × Nat)} {s : State} {ok : State → CopyResult}
    {r : CopyResult} (hr : r = rangeCheck c depth (fs.map geoField) s ok) : Ranged r c s depth fs (fun t => r = ok t) := by
  unfold rangeCheck at hr
  rw [clampReport_eq] at hr
  unfold Ranged
  cases hf : fs.filter (fun f => f.2.1 ≠ f.2.2) with
  | nil =>
    rw [hf] at hr
    exact hr
  | cons f rest =>
    rw [hf] at hr
    refine ⟨fun hm => ?_, fun hm => ?_⟩
    · rw [hr]
      dsimp only
      rw [onFault_masked hm, List.map_map]
      rfl
    · rw [hr]
      exact onFault_unmasked (Bool.not_eq_true _ ▸ hm)

theorem Ranged.imp {r : CopyResult} {c : Copy} {s : State} {depth : Nat} {fs : List (Nat × Nat × Nat)}
    {P Q : State → Prop} (h : Ranged r c s depth fs P) (himp : ∀ t, t.wsk = s.wsk → t.tgn = s.tgn → P t → Q t) :
    Ranged r c s depth fs Q := by
  unfold Ranged at h ⊢
  split at h
  · exact himp s rfl rfl h
  · exact ⟨fun hm => himp _ rfl rfl (h.1 hm), h.2⟩

theorem clampLine_eq (d : Standard) (v : Nat) : clampLine d.lMax v = max 1 (min v (d.fieldLines .one + 16)) :=
  clampN_eq v 1 d.lMax (by cases d <;> decide)

theorem clampDot_eq (n v : Nat) : clampDot n v = min v (n - 1) := by
  unfold clampDot
  split <;> omega

theorem winMode_eq (n : Nat) : winMode n = match n with | 0 => .index | 1 => .full | _ => .punch := by
  match n with
  | 0 => rfl
  | 1 => rfl
  | _ + 2 => rfl

/-! ### The cues -/

section
variable {isIdle : Bool} {c : Copy} {s : State} {i : Fin 8}

theorem slotDepth_eq (h : c.words.w4.toNat % 16 = i.val) : c.words.slotDepth = i := by
  unfold CueWords.slotDepth CueWords.depth
  rw [bits_depth, h]
  exact Fin.ofNat_val_eq_self i

theorem cuePush_full (h : s.wsk.stack.slot 7 ≠ .empty) : cuePush c s = onFault .stackOver c s
    (skipWith (repWarnStack true c.words 7 (s.wsk.stack.at 7) (s.wsk.stack.slot 7))) := by
  unfold cuePush
  dsimp only
  exact if_pos (by rw [Bool.not_eq_true', ← Bool.not_eq_true, Slot.isEmpty_iff]; exact h)

theorem bits_lines (w : Word) : bits w 0 9 = w.toNat % 512 := by simp [bits]

theorem bits_dots (w : Word) : bits w 0 11 = w.toNat % 2048 := by simp [bits]

theorem bits_bank (w : Word) : bits w 11 2 = w.toNat / 2048 % 4 := by simp [bits]

theorem getLsbD_live (w : Word) : w.getLsbD 13 = decide (w.toNat / 8192 % 2 = 1) := by
  rw [BitVec.getLsbD, Nat.testBit_eq_decide_div_mod_eq]

/-- The window that a PUSH brings (R131). -/
def pushed (c : Copy) (s : State) : Window :=
  let lines (v : Nat) : Nat := max 1 (min v (s.rfe.working.fieldLines .one + 16))
  let dots (v : Nat) : Nat := min v (s.cue.settings.dots - 1)
  { top := lines (c.words.w4.toNat % 512), bottom := lines (c.words.w5.toNat % 512)
    left := dots (c.words.w6.toNat % 2048), right := dots (c.words.w7.toNat % 2048)
    mode := winMode (c.words.w4.toNat / 512 % 4), bank := Fin.ofNat 4 (c.words.w4.toNat / 2048 % 4)
    fade := c.words.w5.toNat / 512, target := c.words.w5.toNat / 512, steps := 0
    tag := c.words.w3, mark := s.tgn.stamp }

theorem cuePush_room (h : s.wsk.stack.slot 7 = .empty) :
    let lines (v : Nat) : Nat := max 1 (min v (s.rfe.working.fieldLines .one + 16))
    let dots (v : Nat) : Nat := min v (s.cue.settings.dots - 1)
    Ranged (cuePush c s) c s 0
      [(0, c.words.w4.toNat % 512, lines (c.words.w4.toNat % 512)),
       (1, c.words.w5.toNat % 512, lines (c.words.w5.toNat % 512)),
       (2, c.words.w6.toNat % 2048, dots (c.words.w6.toNat % 2048)),
       (3, c.words.w7.toNat % 2048, dots (c.words.w7.toNat % 2048))]
      fun t => cuePush c s = (withStack t (s.wsk.stack.push (pushed c s) (decide (c.words.w4.toNat / 8192 % 2 = 1))),
        .performed) := by
  intro lines dots
  let win (t : State) : Window := { pushed c s with mark := t.tgn.stamp }
  have hcue : cuePush c s = rangeCheck c 0 (List.map geoField
      [(0, c.words.w4.toNat % 512, lines (c.words.w4.toNat % 512)),
       (1, c.words.w5.toNat % 512, lines (c.words.w5.toNat % 512)),
       (2, c.words.w6.toNat % 2048, dots (c.words.w6.toNat % 2048)),
       (3, c.words.w7.toNat % 2048, dots (c.words.w7.toNat % 2048))]) s
      (fun t => (withStack t (t.wsk.stack.push (win t) (decide (c.words.w4.toNat / 8192 % 2 = 1))), .performed)) := by
    unfold cuePush
    dsimp only
    rw [if_neg (by rw [(Slot.isEmpty_iff _).2 h]; decide)]
    simp only [clampLine_eq, clampDot_eq, bits_mode, bits_fade, bits_lines, bits_dots, bits_bank, getLsbD_live]
    rfl
  refine (rangeCheck_ranged hcue).imp fun t hw ht h => h.trans ?_
  rw [hw, show win t = pushed c s by simp only [win, ht]; rfl]

/-- The cues that need the window at their depth (R134, R136, R137). -/
theorem kindEffect_onSlot (hd : c.words.slotDepth = i) :
    kindEffect isIdle .drop c s = stackUnder c i s (fun t => (withStack t (t.wsk.stack.drop i), .performed)) ∧
    kindEffect isIdle .show_ c s = stackUnder c i s (fun t => (withStack t (t.wsk.stack.show_ i), .performed)) ∧
    kindEffect isIdle .park c s = stackUnder c i s (fun t => (withStack t (t.wsk.stack.park i), .performed)) ∧
    kindEffect isIdle .fade c s = stackUnder c i s (fun t => (withStack t (t.wsk.stack.onWindow i
      (Window.startFade t.tgn.stamp c.words.w5.toNat c.words.w6.toNat)), .performed)) := by
  subst hd
  exact ⟨rfl, rfl, rfl, rfl⟩

theorem kindEffect_pop : kindEffect isIdle .pop c s =
    stackUnder c 0 s (fun t => (withStack t t.wsk.stack.pop, .performed)) := rfl

theorem cueExch_empty (h0 : s.wsk.stack.slot 0 = .empty) (hd : c.words.slotDepth = i) (hi : s.wsk.stack.slot i = .empty) :
    cueExch c s = onFault .stackUnder c s
      (skipWith (repWarnStack false c.words i.val (s.wsk.stack.at i) (s.wsk.stack.slot i))) := by
  unfold cueExch
  dsimp only
  rw [if_pos ((Slot.isEmpty_iff _).2 h0), hd]
  exact stackUnder_empty hi

theorem cueExch_filled (hd : c.words.slotDepth = i) (h : s.wsk.stack.slot 0 ≠ .empty ∨ s.wsk.stack.slot i ≠ .empty) :
    cueExch c s = (withStack s (s.wsk.stack.exch i), .performed) := by
  unfold cueExch
  dsimp only
  rw [hd]
  split
  · next h0 => exact stackUnder_filled (h.resolve_left (not_not.2 ((Slot.isEmpty_iff _).1 h0)))
  · rfl

theorem cueEdit_eq {f : EditField} (hd : c.words.slotDepth = i) (hf : editField (bits c.words.w4 8 4) = some f) :
    cueEdit c s = stackUnder c i s (fun t =>
      rangeCheck c i.val (editGeo s.rfe.working.lMax s.cue.settings.dots f c.words.w5.toNat) t (fun t =>
        (withStack t (t.wsk.stack.onWindow i (Window.edit t.tgn.stamp f
          (editValue s.rfe.working.lMax s.cue.settings.dots f c.words.w5.toNat))), .performed))) := by
  unfold cueEdit
  dsimp only
  rw [hd]
  generalize editField (bits c.words.w4 8 4) = g at hf
  subst hf
  rfl

end

/-- An EDIT of a geometry field (R129, R135). -/
theorem cueEdit_geometry {c : Copy} {s : State} {i : Fin 8} {f : EditField} {n v : Nat} (hd : c.words.slotDepth = i)
    (hfilled : s.wsk.stack.slot i ≠ .empty) (hf : editField (bits c.words.w4 8 4) = some f)
    (hgeo : editGeo s.rfe.working.lMax s.cue.settings.dots f c.words.w5.toNat = [geoField (n, c.words.w5.toNat, v)])
    (hval : editValue s.rfe.working.lMax s.cue.settings.dots f c.words.w5.toNat = v) :
    Ranged (cueEdit c s) c s i.val [(n, c.words.w5.toNat, v)] fun t =>
      cueEdit c s = (withStack t (s.wsk.stack.onWindow i (Window.edit s.tgn.stamp f v)), .performed) := by
  have hcue : cueEdit c s = rangeCheck c i.val (List.map geoField [(n, c.words.w5.toNat, v)]) s (fun t =>
      (withStack t (t.wsk.stack.onWindow i (Window.edit t.tgn.stamp f v)), .performed)) := by
    rw [cueEdit_eq hd hf, stackUnder_filled hfilled, hgeo, hval]
    rfl
  exact (rangeCheck_ranged hcue).imp fun t hw ht h => h.trans (by rw [hw, ht])

/-- An EDIT of the mode or the bank (R135). -/
theorem cueEdit_plain {c : Copy} {s : State} {i : Fin 8} {f : EditField} (hd : c.words.slotDepth = i)
    (hfilled : s.wsk.stack.slot i ≠ .empty) (hf : editField (bits c.words.w4 8 4) = some f) (h : f = .mode ∨ f = .bank) :
    cueEdit c s =
      (withStack s (s.wsk.stack.onWindow i (Window.edit s.tgn.stamp f c.words.w5.toNat)), .performed) := by
  rw [cueEdit_eq hd hf, stackUnder_filled hfilled]
  rcases h with rfl | rfl <;> rfl

/-- The field that an EDIT names, of those whose fields pass their checks. -/
theorem edit_field {c : CueWords} (hbad : c.badField = none) (hk : c.kind = 6) : ∃ f, editField (bits c.w4 8 4) = some f := by
  obtain ⟨-, -, -, -, -, hedit, -⟩ := operandsHaveEncodings c
  have h := (hedit ((bits_low c.w0).symm.trans hk)).symm.trans hbad
  rw [Option.map_eq_none_iff, List.find?_eq_none] at h
  have hcode := h _ (List.mem_cons_of_mem _ List.mem_cons_self)
  have hle : c.w4.toNat / 256 % 16 ≤ 5 := by simpa using hcode
  rw [bits_code]
  generalize c.w4.toNat / 256 % 16 = n at hle
  interval_cases n <;> exact ⟨_, rfl⟩

/-- Settles O49, cue by cue. -/
theorem windowCuesCheckTheStack : Obligations.WindowCuesCheckTheStack := by
  intro isIdle c s hbad hpast k r st w4 w5 masked slotCode stop done lines dots range
  have hjudge {n : Nat} {K : CueKind} (hk : k = n) (hK : cueKind n = some K) : r = kindEffect isIdle K c s :=
    judgeCopy_onTime hbad (show cueKind c.words.kind = some K by rw [show c.words.kind = n from hk, hK]) hpast
  have hstop {f : FaultKind} {isOver : Bool} {i : Fin 8}
      (h : r = onFault f c s (skipWith (repWarnStack isOver c.words i.val (st.at i) (st.slot i)))) :
      stop f (if isOver then 0x0905#16 else 0x0906#16) i := by
    rw [repWarnStack_eq] at h
    exact ⟨fun hm => h.trans (onFault_masked (k := f) (s := s) hm),
      fun hm => h.trans (onFault_unmasked (k := f) (s := s) (Bool.not_eq_true _ ▸ hm))⟩
  have hempty {i : Fin 8} {ok : State → CopyResult} (h : st.slot i = .empty) (hr : r = stackUnder c i s ok) :
      r = onFault .stackUnder c s (skipWith (repWarnStack false c.words i.val (st.at i) (st.slot i))) :=
    hr.trans (stackUnder_empty h)
  have hfilled {i : Fin 8} {ok : State → CopyResult} (h : st.slot i ≠ .empty) (hr : r = stackUnder c i s ok) :
      r = ok s := hr.trans (stackUnder_filled h)
  refine ⟨fun hk => ⟨fun h => ?_, fun h => ?_⟩, fun hk => ⟨fun h => ?_, fun h => ?_⟩, fun i hi => ?_⟩
  · exact hstop (isOver := true) ((hjudge hk rfl).trans (cuePush_full h))
  · intro top bottom left right win
    have hwin : pushed c s = win := by
      unfold pushed
      rw [winMode_eq] <;> rfl
    have hr : r = cuePush c s := hjudge hk rfl
    have hrange := cuePush_room (c := c) h
    rw [← hr, hwin] at hrange
    exact hrange
  · exact hstop (isOver := false) (hempty h ((hjudge hk rfl).trans kindEffect_pop))
  · exact hfilled h ((hjudge hk rfl).trans kindEffect_pop)
  have hd : c.words.slotDepth = i := slotDepth_eq hi
  obtain ⟨hdrop, hshow, hpark, hfade⟩ := kindEffect_onSlot (isIdle := isIdle) (s := s) hd
  refine ⟨fun hk => ⟨fun h => ?_, fun h => ?_⟩, fun h5 h9 h => ?_, fun h => ?_⟩
  · exact hstop (isOver := false) ((hjudge hk rfl).trans (cueExch_empty h.1 hd h.2))
  · exact (hjudge hk rfl).trans (cueExch_filled hd h)
  · have hunder : r = onFault .stackUnder c s
        (skipWith (repWarnStack false c.words i.val (st.at i) (st.slot i))) := by
      obtain hk | hk | hk | hk | hk : k = 5 ∨ k = 6 ∨ k = 7 ∨ k = 8 ∨ k = 9 := by omega
      · exact hempty h ((hjudge hk rfl).trans hdrop)
      · obtain ⟨f, hf⟩ := edit_field hbad hk
        rw [hjudge hk rfl]
        exact (cueEdit_eq hd hf).trans (stackUnder_empty h)
      · exact hempty h ((hjudge hk rfl).trans hshow)
      · exact hempty h ((hjudge hk rfl).trans hpark)
      · exact hempty h ((hjudge hk rfl).trans hfade)
    exact hstop (isOver := false) hunder
  · intro stepped
    refine ⟨fun hk => ?_, fun hk => ?_, fun hk => ?_, fun hk => ?_, fun hk => ?_⟩
    · exact hfilled h ((hjudge hk rfl).trans hdrop)
    · exact hfilled h ((hjudge hk rfl).trans hshow)
    · exact hfilled h ((hjudge hk rfl).trans hpark)
    · exact hfilled h ((hjudge hk rfl).trans hfade)
    · intro ended put
      have hr : r = cueEdit c s := hjudge hk rfl
      have hfield {n : Nat} {f : EditField} (hn : w4 / 256 % 16 = n) (hf : editField n = some f) :
          editField (bits c.words.w4 8 4) = some f := by
        rw [bits_code, show c.words.w4.toNat / 256 % 16 = n from hn, hf]
      have hrange {n : Nat} {f : EditField} {v : Nat} (hn : w4 / 256 % 16 = n) (hf : editField n = some f)
          (hgeo : editGeo s.rfe.working.lMax s.cue.settings.dots f w5 = [geoField (n, w5, v)])
          (hval : editValue s.rfe.working.lMax s.cue.settings.dots f w5 = v) : Ranged r c s i.val [(n, w5, v)] fun t =>
            r = (withStack t (st.onWindow i (Window.edit s.tgn.stamp f v)), .performed) := by
        rw [hr]
        exact cueEdit_geometry hd h (hfield hn hf) hgeo hval
      have hline : clampLine s.rfe.working.lMax w5 = lines w5 := clampLine_eq _ _
      have hdot : clampDot s.cue.settings.dots w5 = dots w5 := clampDot_eq _ _
      refine ⟨fun hn => ?_, fun hn => ?_, fun hn => ?_, fun hn => ?_, fun hn => ?_, fun hn => ?_⟩
      · exact hrange hn rfl (by rw [← hline]; rfl) hline
      · exact hrange hn rfl (by rw [← hline]; rfl) hline
      · exact hrange hn rfl (by rw [← hdot]; rfl) hdot
      · exact hrange hn rfl (by rw [← hdot]; rfl) hdot
      · refine (hr.trans (cueEdit_plain hd h (hfield hn rfl) (.inl rfl))).trans ?_
        unfold Window.edit Window.store
        simp only [winMode_eq] <;> rfl
      · exact hr.trans (cueEdit_plain hd h (hfield hn rfl) (.inr rfl))

end Sys2Proof.Machine
end

section
/-!
PROOFS. KEYLOAD's checks: PROTECTED, BUSY with its deferral, and the cancel (R115, R119, R153, R159, R161, R162; O50).
-/

namespace Sys2Proof.Machine

section
variable {isIdle : Bool} {c : Copy} {s : State} {b : Fin 4}

theorem cueKeyload_protected (hc : 0 < c.words.loadCount) (hp : 4 ≤ c.words.loadBank + s.cue.settings.protect) :
    cueKeyload isIdle c s =
      onFault .prot c s (skipWith (repWarnBank c.words c.words.loadBank s.cue.settings.protect)) := by
  unfold cueKeyload
  dsimp only
  rw [if_neg (by omega)]
  exact if_pos (decide_eq_true hp)

theorem cueKeyload_busy (hc : 0 < c.words.loadCount) (hp : c.words.loadBank + s.cue.settings.protect < 4)
    (hl : s.kbl.loader ≠ .idle) : cueKeyload isIdle c s = onFault .busy c s (deferLoad isIdle c) := by
  have hprot : isProtected s.cue.settings.protect c.words.loadBank = false := decide_eq_false (by omega)
  unfold cueKeyload
  dsimp only
  rw [if_neg (by omega), hprot, if_neg Bool.false_ne_true]
  exact if_pos hl

/-- A cancel that names another bank than the load in hand is BUSY (R159). -/
theorem cueKeyload_cancel_busy {l : LoadRecord} (hb : c.words.loadBank = b.val) (hc : c.words.loadCount = 0)
    (hl : s.kbl.load = some l) (hlb : l.bank ≠ b) : cueKeyload isIdle c s = onFault .busy c s (deferLoad isIdle c) := by
  have hbank : Fin.ofNat 4 c.words.loadBank = b := by rw [hb]; exact Fin.ofNat_val_eq_self b
  unfold cueKeyload
  dsimp only
  rw [if_pos hc, hl, hbank]
  exact if_neg hlb

/-- The deferral of a load: the idle copy is skipped, and CUE/DEFERRED comes the first time (R115, R119). -/
theorem deferLoad_spec (c : Copy) (s : State) :
    deferLoad true c s = (produce (repSkipped c.words) s, .skipped) ∧
    (s.cue.deferral = c.index → deferLoad false c s = (s, .deferred)) ∧
    (s.cue.deferral ≠ c.index → deferLoad false c s =
      (produce (repDeferred c.words s.kbl) { s with cue := { s.cue with deferral := c.index } }, .deferred)) :=
  ⟨rfl, fun h => if_pos h, fun h => if_neg h⟩

end

/-- CUE/LATE, CUE/SKIPPED and CUE/DONE, field by field. -/
theorem repCue_eq (w0 : Word) (c : CueWords) : repCue w0 c =
    { w0 := w0, tag := c.w3, w4 := BitVec.ofNat 16 c.kind, w5 := c.w1, w6 := BitVec.ofNat 16 (c.w2.toNat % 256) } := by
  rw [← bits_low]
  rfl

theorem repDeferred_eq (c : CueWords) (k : Kbl) : repDeferred c k =
    { w0 := 0x0403#16, tag := c.w3, w4 := BitVec.ofNat 16 c.kind
      w5 := match k.loader with | .idle => 0 | .loading => 1 | .ready => 2
      w6 := match k.load with | some l => BitVec.ofNat 16 l.bank.val | none => 0 } := by
  unfold repDeferred loaderBank
  cases k.loader <;> cases k.load <;> rfl

/-- Settles O50. -/
theorem keyloadsAreCheckedAndDeferred : Obligations.KeyloadsAreCheckedAndDeferred := by
  intro isIdle c b s hbad hpast hk hbank r count masked loader busy
  have hr : r = cueKeyload isIdle c s :=
    judgeCopy_onTime hbad (show cueKind c.words.kind = some .keyload by rw [hk]; rfl) hpast
  have hb : c.words.loadBank = b.val := (bits_depth c.words.w4).trans hbank
  have hcount : c.words.loadCount = count := bits_count c.words.w4
  have hkind : c.words.kindWord = 10 := by
    rw [CueWords.kindWord, hk]
    rfl
  have hbusy (h : r = onFault .busy c s (deferLoad isIdle c)) : busy := by
    obtain ⟨hidle, hagain, hfirst⟩ := deferLoad_spec c s
    refine ⟨fun hm => h.trans (onFault_unmasked (k := .busy) (s := s) (Bool.not_eq_true _ ▸ hm)), fun hm => ?_⟩
    have hd : r = deferLoad isIdle c s := h.trans (onFault_masked (k := .busy) (s := s) hm)
    refine ⟨fun hi => ?_, fun hi => ?_⟩
    · rw [hd, hi, hidle, repSkipped, repCue_eq, hk]
      rfl
    · rw [hi] at hd
      have hout : r.2 = .deferred := by
        by_cases h : s.cue.deferral = c.index
        · rw [hd, hagain h]
        · rw [hd, hfirst h]
      have hexec := execCopy_stops (isIdle := isIdle) (c := c) (s := s) (t := r.1) (out := .deferred)
        (show judgeCopy isIdle c s = _ from Prod.ext rfl hout) (.inl rfl)
      rw [hexec]
      refine ⟨rfl, rfl, fun h => hd.trans (hagain h), fun h => ?_⟩
      rw [hd, hfirst h, repDeferred_eq, hk]
      rfl
  refine ⟨fun hc hp => ?_, fun hc hp hl => ?_, fun l hc hl => ⟨fun hlb => ?_, fun hlb hroom => ?_⟩⟩
  · rw [← hb] at hp
    have h := hr.trans (cueKeyload_protected (hcount ▸ hc) hp)
    refine ⟨fun hm => ?_, fun hm => ?_⟩
    · rw [h, onFault_masked (k := .prot) (s := s) hm, repWarnBank, hkind, hb]
      rfl
    · exact h.trans (onFault_unmasked (k := .prot) (s := s) (Bool.not_eq_true _ ▸ hm))
  · rw [← hb] at hp
    exact hbusy (hr.trans (cueKeyload_busy (hcount ▸ hc) hp hl))
  · exact hbusy (hr.trans (cueKeyload_cancel_busy hb (hcount.trans hc) hl hlb))
  · rw [hr, cueKeyload_cancels hb (hcount.trans hc) hl hlb]
    obtain ⟨g, hg⟩ := (Rpw.produce_room (r := s.rpw)
      (rec := (repSwapCancelled c.words.tag l s.kbl.loader).stamped s.tgn.stamp) hroom).1
    refine ⟨g, hg.trans ?_⟩
    rw [repSwapCancelled, hlb]
    by_cases h : s.kbl.loader = .ready
    · rw [if_pos h, decide_eq_true h]
      rfl
    · rw [if_neg h, decide_eq_false h]
      rfl

end Sys2Proof.Machine
end

section
/-!
PROOFS. The effects of a load on the front end, the loop, the aligner and the test unit, with their records (R3, R13 to
R17, R42, R43, R56, R58, R91, R190).
-/

namespace Sys2Proof.Machine

/-! ### The blocks that a load's effects reach -/

/-- The front end, the loop, the aligner and the test unit. -/
structure Front where
  rfe : Rfe
  lll : Lll
  fal : Fal
  tst : Tst

def State.front (s : State) : Front := ⟨s.rfe, s.lll, s.fal, s.tst⟩

def State.withFront (s : State) (f : Front) : State := { s with rfe := f.rfe, lll := f.lll, fal := f.fal, tst := f.tst }

theorem produceAll_withFront (rs : List Report) (f : Front) (s : State) :
    (produceAll rs s).withFront f = produceAll rs (s.withFront f) := by
  rw [produceAll_eq rs (s.withFront f), produceAll_rpw_congr (s := s) (t := s.withFront f) rs rfl rfl, produceAll_eq rs s]
  rfl

theorem produceAll_front (rs : List Report) (s : State) : (produceAll rs s).front = s.front := by
  rw [produceAll_eq]
  rfl

theorem latch_produceAll (c : Cause) (rs : List Report) (s : State) :
    latch c (produceAll rs s) = produceAll rs (latch c s) := by
  induction rs generalizing s with
  | nil => rfl
  | cons r rs ih =>
    have hone : latch c (produce r s) = produce r (latch c s) := by
      unfold latch produce Rpw.produce
      dsimp only
      by_cases h : s.rpw.accepts
      · rw [if_pos h, if_pos (show (s.rpw.latch c).accepts = true from h)]
        rfl
      · rw [if_neg h, if_neg (show ¬(s.rpw.latch c).accepts = true from h)]
        rfl
    show latch c (produceAll rs (produce r s)) = produceAll rs (produce r (latch c s))
    rw [ih, hone]

/-! ### The effects, in R91's order -/

/-- The notice that the source of the arrivals has changed (R17, R42, R56, R190). -/
def Front.switch (f : Front) : Front × List Report :=
  ({ f with lll := f.lll.switch.1, fal := (f.fal.enterSeek .switch).1 },
   f.lll.switch.2 ++ (f.fal.enterSeek .switch).2)

/-- The slicer restart (R3). -/
def Front.restart (on : Bool) (f : Front) : Front :=
  if on then { f with rfe := { f.rfe with inA := f.rfe.inA.restart, inB := f.rfe.inB.restart } } else f

/-- A load of a standard mode (R13, R14). -/
def Front.stdMode (old new : StdMode) (f : Front) : Front × List Report :=
  if new = old then (f, [])
  else
    let rfe := { f.rfe with differ := 0, warned := false }
    match new with
    | .auto => ({ f with rfe := rfe }, [])
    | .force d =>
      if f.rfe.working = d then ({ f with rfe := rfe }, [])
      else
        ({ f with rfe := { rfe with working := d }, lll := (f.lll.standard d).1, fal := (f.fal.enterSeek .standard).1 },
         repStandard d f.rfe.active true :: ((f.lll.standard d).2 ++ (f.fal.enterSeek .standard).2))

/-- A load of a policy makes the other input active (R16). -/
def Front.names (old new : Policy) (f : Front) : Bool :=
  match new with
  | .named i => decide (new ≠ old ∧ f.rfe.active ≠ i)
  | .auto => false

/-- A load of a policy (R16). -/
def Front.policy (old new : Policy) (f : Front) : Front × List Report :=
  if new = old then (f, [])
  else
    match new with
    | .auto => ({ f with rfe := { f.rfe with absence := 0 } }, [])
    | .named i =>
      if f.rfe.active = i then (f, [])
      else
        let rfe := { f.rfe with active := i, differ := 0, warned := false }
        let g := ({ f with rfe := rfe } : Front).switch
        (g.1, repInputSwitched rfe .select :: g.2)

/-- A load of a V offset (R58). -/
def Front.vOffset (old new : Nat) (f : Front) : Front × List Report :=
  if new ≠ old ∧ f.fal.field = .lock then
    ({ f with fal := { f.fal with field := .align, miss := 0 } },
     [repFieldRealign { f.fal with field := .align, miss := 0 } .vOffset])
  else (f, [])

/-- A load of a test mode (R190, R191): an entry to INTERNAL_LOOP opens the records, an exit closes them. -/
def Front.testMode (new : TestMode) (stamp : Stamp) (f : Front) : Front × List Report :=
  let entry : Tst := { mode := new, count := some ⟨stamp, 0⟩, lockTime := some stamp
                       lines := if Tick.reached (tstLineTick (Qu.pu f.lll.ideal)) f.rfe.tick then [Qu.pu f.lll.ideal] else [] }
  if new = f.tst.mode then (f, [])
  else if new = .internalLoop then ({ f with tst := entry } : Front).switch
  else if f.tst.mode = .internalLoop then ({ f with tst := { mode := new } } : Front).switch
  else ({ f with tst := { f.tst with mode := new } }, [])

/-- The effects of a load with the settings `new` in the place of `old`, in R91's order. -/
def Front.load (old new : Settings) (stamp : Stamp) (f : Front) : Front × List Report :=
  let a := (f.restart new.restart).stdMode old.stdMode new.stdMode
  let b := a.1.policy old.policy new.policy
  let c := ({ b.1 with lll := { b.1.lll with hTarget := new.hTarget } } : Front).vOffset old.vOffset new.vOffset
  let d := c.1.testMode new.testMode stamp
  (d.1, a.2 ++ b.2 ++ c.2 ++ d.2)

/-! ### The model's load in these terms -/

/-- A load that makes the other input active latches INPUT_CHANGE (R17). -/
def latchIf (on : Bool) (s : State) : State := if on then latch .inputChange s else s

theorem latchIf_produceAll (on : Bool) (rs : List Report) (s : State) :
    latchIf on (produceAll rs s) = produceAll rs (latchIf on s) := by
  unfold latchIf
  split
  · exact latch_produceAll _ _ _
  · rfl

theorem latchIf_withFront (on : Bool) (f : Front) (s : State) : (latchIf on s).withFront f = latchIf on (s.withFront f) := by
  unfold latchIf
  split <;> rfl

section
variable (s : State)

theorem sourceNotice_front : sourceNotice s = produceAll s.front.switch.2 (s.withFront s.front.switch.1) := by
  rw [sourceNotice, falSeek_withLoop_eq]
  exact (produceAll_set s.front.switch.2 s.lll.switch.1 (s.fal.enterSeek .switch).1 s).symm

theorem stdModeLoad_front (old new : StdMode) : stdModeLoad old new s =
    produceAll (s.front.stdMode old new).2 (s.withFront (s.front.stdMode old new).1) := by
  by_cases h : new = old
  · have hf : s.front.stdMode old new = (s.front, []) := if_pos h
    rw [hf]
    exact if_pos h
  cases new with
  | auto =>
    have hf : s.front.stdMode old .auto = _ := if_neg h
    rw [hf]
    exact if_neg h
  | force d =>
    by_cases hd : s.rfe.working = d
    · have hf : s.front.stdMode old (.force d) = _ := (if_neg h).trans (if_pos hd)
      rw [hf]
      exact (if_neg h).trans (if_pos hd)
    · have hf : s.front.stdMode old (.force d) = _ := (if_neg h).trans (if_neg hd)
      rw [hf]
      refine ((if_neg h).trans (if_neg hd) : stdModeLoad old (.force d) s = _).trans ?_
      unfold changeStandard
      dsimp only
      rw [falSeek_withLoop_eq]
      let u : State := { s with rfe := { s.rfe with differ := 0, warned := false, working := d } }
      exact (produceAll_set ((s.lll.standard d).2 ++ (s.fal.enterSeek .standard).2) (s.lll.standard d).1
        (s.fal.enterSeek .standard).1 (produce (repStandard d s.rfe.active true) u)).symm

theorem policyArrival_front (old new : Policy) : policyArrival old new s =
    produceAll (s.front.policy old new).2 (latchIf (s.front.names old new) (s.withFront (s.front.policy old new).1)) := by
  by_cases h : new = old
  · have hp : s.front.policy old new = (s.front, []) := if_pos h
    have hn : s.front.names old new = false := by
      unfold Front.names
      split
      · simp [h]
      · rfl
    rw [hp, hn]
    exact if_pos h
  cases new with
  | auto =>
    have hp : s.front.policy old .auto = ({ s.front with rfe := { s.rfe with absence := 0 } }, []) := if_neg h
    rw [hp]
    exact if_neg h
  | named i =>
    have hn : s.front.names old (.named i) = decide (s.rfe.active ≠ i) := by
      show decide (_ ∧ _) = _
      simp only [ne_eq, h, not_false_eq_true, true_and]
      rfl
    rw [hn]
    refine (if_neg h : policyArrival old (.named i) s = _).trans ?_
    dsimp only
    by_cases ha : s.rfe.active = i
    · have hp : s.front.policy old (.named i) = (s.front, []) := (if_neg h).trans (if_pos ha)
      rw [hp]
      simp only [ha, if_true, ne_eq, not_true_eq_false, decide_false]
      rfl
    · let rfe : Rfe := { s.rfe with active := i, differ := 0, warned := false }
      let g := ({ s.front with rfe := rfe } : Front).switch
      have hp : s.front.policy old (.named i) = (g.1, repInputSwitched rfe .select :: g.2) := (if_neg h).trans (if_neg ha)
      rw [hp]
      simp only [ha, if_false, ne_eq, not_false_eq_true, decide_true]
      unfold changeActive
      rw [sourceNotice_front]
      let u : State := { s with rfe := rfe }
      have hlatch : latch .inputChange (produce (repInputSwitched rfe .select) u) =
          produce (repInputSwitched rfe .select) (latch .inputChange u) :=
        latch_produceAll .inputChange [repInputSwitched rfe .select] u
      have hfront : (latch .inputChange (produce (repInputSwitched rfe .select) u)).front = { s.front with rfe := rfe } := rfl
      show produceAll (State.front (latch .inputChange (produce (repInputSwitched rfe .select) u))).switch.2
        (State.withFront (latch .inputChange (produce (repInputSwitched rfe .select) u)) _) = _
      rw [hfront, hlatch]
      exact congrArg _ (produceAll_withFront [repInputSwitched rfe .select] g.1 (latch .inputChange u))

theorem vOffsetChange_front (old : Nat) : vOffsetChange old s =
    produceAll (s.front.vOffset old s.cue.settings.vOffset).2
      (s.withFront (s.front.vOffset old s.cue.settings.vOffset).1) := by
  by_cases h : s.cue.settings.vOffset ≠ old ∧ s.fal.field = .lock
  · have hv : s.front.vOffset old s.cue.settings.vOffset = _ := if_pos h
    rw [hv, vOffsetChange_locked h.1 h.2]
    rfl
  · have hv : s.front.vOffset old s.cue.settings.vOffset = _ := if_neg h
    rw [hv, vOffsetChange_same (by tauto)]
    rfl

theorem testModeLoad_front (new : TestMode) : testModeLoad new s =
    produceAll (s.front.testMode new s.tgn.stamp).2 (s.withFront (s.front.testMode new s.tgn.stamp).1) := by
  by_cases h : new = s.tst.mode
  · have ht : s.front.testMode new s.tgn.stamp = (s.front, []) := if_pos h
    rw [ht, testModeLoad, if_pos h]
    rfl
  by_cases hin : new = .internalLoop
  · rw [testModeLoad, if_neg h, if_pos hin, sourceNotice_front]
    have ht : s.front.testMode new s.tgn.stamp = _ := (if_neg h).trans (if_pos hin)
    rw [ht]
    rfl
  by_cases hout : s.tst.mode = .internalLoop
  · rw [testModeLoad, if_neg h, if_neg hin, if_pos hout, sourceNotice_front]
    have ht : s.front.testMode new s.tgn.stamp = _ := (if_neg h).trans ((if_neg hin).trans (if_pos hout))
    rw [ht]
    rfl
  · rw [testModeLoad, if_neg h, if_neg hin, if_neg hout]
    have ht : s.front.testMode new s.tgn.stamp = _ := (if_neg h).trans ((if_neg hin).trans (if_neg hout))
    rw [ht]
    rfl

end

/-- The state with the blocks as `f` has them, INPUT_CHANGE latched where told, and records handed on. -/
def State.handed (s : State) (on : Bool) (f : Front) (rs : List Report) : State :=
  produceAll rs (latchIf on (s.withFront f))

section
variable (s : State) (on : Bool) (f g : Front) (rs rs' : List Report)

theorem handed_front : (s.handed on f rs).front = f := by
  unfold State.handed latchIf
  rw [produceAll_front]
  split <;> rfl

theorem handed_settings : (s.handed on f rs).cue = s.cue ∧ (s.handed on f rs).tgn = s.tgn := by
  unfold State.handed latchIf
  rw [(produceAll_frame _ _).2.2.2.2.2.1, (produceAll_frame _ _).2.2.2.1]
  split <;> exact ⟨rfl, rfl⟩

theorem handed_on : produceAll rs' ((s.handed on f rs).withFront g) = s.handed on g (rs ++ rs') := by
  unfold State.handed
  rw [produceAll_append, produceAll_withFront, latchIf_withFront]
  rfl

theorem handed_setTarget (h : Int) :
    { s.handed on f rs with lll := { (s.handed on f rs).lll with hTarget := h } } =
      s.handed on { f with lll := { f.lll with hTarget := h } } rs := by
  have hset : ({ s.handed on f rs with lll := { (s.handed on f rs).lll with hTarget := h } } : State) =
      (s.handed on f rs).withFront { (s.handed on f rs).front with lll := { (s.handed on f rs).front.lll with hTarget := h } } :=
    rfl
  rw [hset, handed_front]
  exact (handed_on s on f _ rs []).trans (by rw [List.append_nil])

/-- A load of a standard mode or a restart leaves the active input as it was. -/
theorem Front.stdMode_active (old new : StdMode) (b : Bool) (f : Front) :
    ((f.restart b).stdMode old new).1.rfe.active = f.rfe.active := by
  have hr : (f.restart b).rfe.active = f.rfe.active := by
    unfold Front.restart
    split <;> rfl
  rw [← hr]
  unfold Front.stdMode
  (repeat' split) <;> rfl

end

/-- The effects of a load, and every record of theirs behind them. -/
theorem loadEffects_front (old : Settings) (s : State) :
    let f := s.front.load old s.cue.settings s.tgn.stamp
    loadEffects old s = s.handed (s.front.names old.policy s.cue.settings.policy) f.1 f.2 := by
  let st := s.cue.settings
  let a := (s.front.restart st.restart).stdMode old.stdMode st.stdMode
  let b := a.1.policy old.policy st.policy
  let c := ({ b.1 with lll := { b.1.lll with hTarget := st.hTarget } } : Front).vOffset old.vOffset st.vOffset
  let named := s.front.names old.policy st.policy
  have hnamed : a.1.names old.policy st.policy = named := by
    simp only [named, Front.names, a, Front.stdMode_active]
  have h1 : (if st.restart then slicerRestart s else s) = s.withFront (s.front.restart st.restart) := by
    unfold Front.restart
    split <;> rfl
  have h2 : stdModeLoad old.stdMode st.stdMode (s.withFront (s.front.restart st.restart)) = s.handed false a.1 a.2 :=
    stdModeLoad_front (s.withFront (s.front.restart st.restart)) old.stdMode st.stdMode
  have h3 : policyArrival old.policy st.policy (s.handed false a.1 a.2) = s.handed named b.1 (a.2 ++ b.2) := by
    rw [policyArrival_front, handed_front, hnamed, ← latchIf_produceAll, handed_on]
    exact latchIf_produceAll _ _ _
  have h4 : vOffsetChange old.vOffset
      (s.handed named { b.1 with lll := { b.1.lll with hTarget := st.hTarget } } (a.2 ++ b.2)) =
      s.handed named c.1 (a.2 ++ b.2 ++ c.2) := by
    rw [vOffsetChange_front, handed_front, (handed_settings _ _ _ _).1, handed_on]
  have h5 : testModeLoad st.testMode (s.handed named c.1 (a.2 ++ b.2 ++ c.2)) =
      s.handed named (c.1.testMode st.testMode s.tgn.stamp).1
        (a.2 ++ b.2 ++ c.2 ++ (c.1.testMode st.testMode s.tgn.stamp).2) := by
    rw [testModeLoad_front, handed_front, (handed_settings _ _ _ _).2, handed_on]
  intro f
  unfold loadEffects
  dsimp only
  rw [h1, h2, h3, handed_setTarget, h4, h5]
  rfl

end Sys2Proof.Machine
end

section
/-!
PROOFS. What a load's effects leave of each block, and the records they give (R3, R13 to R17, R42, R43, R56, R58, R91,
R190).
-/

namespace Sys2Proof.Machine

/-! ### The loop and the aligner at a switch and at a change of standard -/

/-- A loop after the source of its arrivals has changed (R42). -/
def Lll.switched (l : Lll) : Lll :=
  if l.loop = .free then l
  else if l.loop = .holdover then { l with holdover := 0 }
  else { l with
    loop := .holdover, holdover := 0, capture := none, flywheel := 0, stray := none, settling := false
    accepted := none, lineStray := none }

theorem Lll.switch_fst (l : Lll) : l.switch.1 = l.switched := by
  unfold Lll.switch Lll.switched
  cases h : l.loop <;> simp

theorem Lll.switched_loop (l : Lll) : l.switched.loop = .free ∨ l.switched.loop = .holdover ∧ l.switched.holdover = 0 := by
  unfold Lll.switched
  split
  · next h => exact .inl h
  · split
    · next h => exact .inr ⟨h, rfl⟩
    · exact .inr ⟨rfl, rfl⟩

/-- A second switch finds nothing to do. -/
theorem Lll.switched_switched (l : Lll) : l.switched.switched = l.switched := by
  rcases l.switched_loop with h | ⟨h, hc⟩
  · exact if_pos h
  · refine (if_neg (by rw [h]; decide)).trans ((if_pos h).trans ?_)
    rw [← hc]

theorem Lll.switched_target (l : Lll) (x : Int) : ({ l with hTarget := x } : Lll).switched = { l.switched with hTarget := x } := by
  unfold Lll.switched
  dsimp only
  (repeat' split) <;> rfl

theorem Lll.switched_free {l : Lll} (h : l.loop = .free) : l.switched = l := if_pos h

/-- An aligner that has lost its field and its detections with it (R56). -/
def Fal.lost (f : Fal) : Fal :=
  { f with field := .seek, shift := 0, miss := 0, startSeen := false, broad := none, lockout := none }

theorem Fal.enterSeek_switch (f : Fal) : (f.enterSeek .switch).1 = f.lost := rfl

theorem Fal.enterSeek_standard (f : Fal) : (f.enterSeek .standard).1 = f.lost := rfl

/-! ### Each effect of a load -/

/-- A load of a standard mode changes the working standard (R14). -/
def Front.forces (old new : StdMode) (f : Front) : Bool :=
  match new with
  | .force d => decide (new ≠ old ∧ f.rfe.working ≠ d)
  | .auto => false

/-- The working standard that a load of a standard mode leaves (R13, R14). -/
def Front.workingOf (old new : StdMode) (f : Front) : Standard :=
  match new with
  | .force d => if new = old then f.rfe.working else d
  | .auto => f.rfe.working

/-- The active input that a load of a policy leaves (R16). -/
def Front.activeOf (old new : Policy) (f : Front) : Input :=
  match new with
  | .named i => if new = old then f.rfe.active else i
  | .auto => f.rfe.active

section
variable (f : Front)

theorem Front.stdMode_fst (old new : StdMode) :
    (f.stdMode old new).1 =
      { f with
        rfe := { f.rfe with
          working := f.workingOf old new
          differ := if new = old then f.rfe.differ else 0, warned := if new = old then f.rfe.warned else false }
        lll := if f.forces old new then (f.lll.standard (f.workingOf old new)).1 else f.lll
        fal := if f.forces old new then f.fal.lost else f.fal } := by
  unfold Front.stdMode Front.forces Front.workingOf
  by_cases h : new = old
  · simp only [h, if_true, ne_eq, not_true_eq_false, false_and, decide_false]
    cases old <;> rfl
  · cases new with
    | auto =>
      simp only [h, if_false]
      rfl
    | force d =>
      simp only [h, if_false, ne_eq, not_false_eq_true, true_and, decide_not]
      by_cases hd : f.rfe.working = d
      · subst hd
        simp
      · simp [hd, Fal.enterSeek_standard]

theorem Front.stdMode_snd (old new : StdMode) :
    (f.stdMode old new).2 =
      if f.forces old new then
        repStandard (f.workingOf old new) f.rfe.active true ::
          ((f.lll.standard (f.workingOf old new)).2 ++ (f.fal.enterSeek .standard).2)
      else [] := by
  unfold Front.stdMode Front.forces Front.workingOf
  by_cases h : new = old
  · simp only [h, if_true, ne_eq, not_true_eq_false, false_and, decide_false]
    cases old <;> rfl
  · cases new with
    | auto =>
      simp only [h, if_false]
      rfl
    | force d =>
      by_cases hd : f.rfe.working = d
      · simp [h, hd]
      · simp [h, hd]

theorem Front.policy_fst (old new : Policy) :
    (f.policy old new).1 =
      { f with
        rfe := { f.rfe with
          active := f.activeOf old new
          absence := if new = .auto ∧ old ≠ .auto then 0 else f.rfe.absence
          differ := if f.names old new then 0 else f.rfe.differ
          warned := if f.names old new then false else f.rfe.warned }
        lll := if f.names old new then f.lll.switched else f.lll
        fal := if f.names old new then f.fal.lost else f.fal } := by
  unfold Front.policy Front.names Front.activeOf
  by_cases h : new = old
  · subst h
    cases new <;> simp
  · cases new with
    | auto =>
      have hold : old ≠ .auto := fun e => h e.symm
      simp [h, hold]
    | named i =>
      by_cases hi : f.rfe.active = i
      · subst hi
        simp [h]
      · simp [h, hi, Front.switch, Lll.switch_fst, Fal.enterSeek_switch]

theorem Front.policy_snd (old new : Policy) :
    (f.policy old new).2 =
      if f.names old new then
        repInputSwitched { f.rfe with active := f.activeOf old new, differ := 0, warned := false } .select ::
          (f.lll.switch.2 ++ (f.fal.enterSeek .switch).2)
      else [] := by
  unfold Front.policy Front.names Front.activeOf
  by_cases h : new = old
  · subst h
    cases new <;> simp
  · cases new with
    | auto => simp [h]
    | named i =>
      by_cases hi : f.rfe.active = i
      · simp [h, hi]
      · simp [h, hi, Front.switch]

/-- The test unit that a load leaves (R190, R191). -/
def Front.tstOf (new : TestMode) (stamp : Stamp) (f : Front) : Tst :=
  if new = f.tst.mode then f.tst
  else if new = .internalLoop then
    { mode := new, count := some ⟨stamp, 0⟩, lockTime := some stamp
      lines := if Tick.reached (tstLineTick (Qu.pu f.lll.ideal)) f.rfe.tick then [Qu.pu f.lll.ideal] else [] }
  else if f.tst.mode = .internalLoop then { mode := new }
  else { f.tst with mode := new }

/-- A load of a test mode changes the source of the arrivals (R190). -/
def Front.turns (new : TestMode) (f : Front) : Bool :=
  decide ((new = .internalLoop ∧ f.tst.mode ≠ .internalLoop) ∨ (new ≠ .internalLoop ∧ f.tst.mode = .internalLoop))

theorem Front.testMode_eq (new : TestMode) (stamp : Stamp) :
    f.testMode new stamp =
      ({ f with
        lll := if f.turns new then f.lll.switched else f.lll
        fal := if f.turns new then f.fal.lost else f.fal
        tst := f.tstOf new stamp },
       if f.turns new then f.lll.switch.2 ++ (f.fal.enterSeek .switch).2 else []) := by
  unfold Front.testMode Front.turns Front.tstOf
  by_cases h : new = f.tst.mode
  · have hno : ¬((new = .internalLoop ∧ f.tst.mode ≠ .internalLoop) ∨ (new ≠ .internalLoop ∧ f.tst.mode = .internalLoop)) := by
      rw [h]
      tauto
    simp [h]
  by_cases hin : new = .internalLoop
  · have hout : f.tst.mode ≠ .internalLoop := fun e => h (hin.trans e.symm)
    subst hin
    simp [h, hout, Front.switch, Lll.switch_fst, Fal.enterSeek_switch]
  by_cases hout : f.tst.mode = .internalLoop
  · simp [hin, hout, Front.switch, Lll.switch_fst, Fal.enterSeek_switch]
  · simp [h, hin, hout]

theorem Front.restart_rest (b : Bool) :
    (f.restart b).lll = f.lll ∧ (f.restart b).fal = f.fal ∧ (f.restart b).tst = f.tst ∧
    (f.restart b).rfe = { f.rfe with
      inA := if b then f.rfe.inA.restart else f.rfe.inA, inB := if b then f.rfe.inB.restart else f.rfe.inB } := by
  unfold Front.restart
  cases b <;> exact ⟨rfl, rfl, rfl, rfl⟩

end

/-! ### All the effects of a load -/

section
variable (old new : Settings) (stamp : Stamp) (f : Front)

/-- A load changes what the aligner is handed: the standard, the active input or the test unit's place in it. -/
def Front.notice (old new : Settings) (f : Front) : Bool := f.names old.policy new.policy || f.turns new.testMode

/-- The loop that a load's standard mode leaves (R43). -/
def Front.lllForced (old new : Settings) (f : Front) : Lll :=
  if f.forces old.stdMode new.stdMode then (f.lll.standard (f.workingOf old.stdMode new.stdMode)).1 else f.lll

/-- The aligner that a load's standard mode leaves (R56). -/
def Front.falForced (old new : Settings) (f : Front) : Fal :=
  if f.forces old.stdMode new.stdMode then f.fal.lost else f.fal

/-- The blocks after the restart and the standard mode of a load. -/
def Front.forced (old new : Settings) (f : Front) : Front :=
  { f with
    rfe := { f.rfe with
      inA := if new.restart then f.rfe.inA.restart else f.rfe.inA
      inB := if new.restart then f.rfe.inB.restart else f.rfe.inB
      working := f.workingOf old.stdMode new.stdMode
      differ := if new.stdMode = old.stdMode then f.rfe.differ else 0
      warned := if new.stdMode = old.stdMode then f.rfe.warned else false }
    lll := f.lllForced old new
    fal := f.falForced old new }

theorem Front.stdMode_restart : ((f.restart new.restart).stdMode old.stdMode new.stdMode).1 = f.forced old new := by
  rw [Front.stdMode_fst]
  unfold Front.restart
  cases hr : new.restart <;> simp [Front.forced, Front.lllForced, Front.falForced, Front.forces, Front.workingOf, hr]

/-- The blocks after the policy of a load, too. -/
def Front.named (old new : Settings) (f : Front) : Front :=
  let named := f.names old.policy new.policy
  let g := f.forced old new
  { g with
    rfe := { g.rfe with
      active := f.activeOf old.policy new.policy
      absence := if new.policy = .auto ∧ old.policy ≠ .auto then 0 else f.rfe.absence
      differ := if named then 0 else g.rfe.differ
      warned := if named then false else g.rfe.warned }
    lll := if named then g.lll.switched else g.lll
    fal := if named then g.fal.lost else g.fal }

theorem Front.policy_forced : ((f.forced old new).policy old.policy new.policy).1 = f.named old new :=
  Front.policy_fst _ _ _

/-- The aligner after the V offset of a load (R58). -/
def Fal.offset (old new : Nat) (f : Fal) : Fal :=
  if new ≠ old ∧ f.field = .lock then { f with field := .align, miss := 0 } else f

theorem Front.vOffset_eq (a b : Nat) : f.vOffset a b =
    ({ f with fal := f.fal.offset a b },
     if b ≠ a ∧ f.fal.field = .lock then [repFieldRealign (f.fal.offset a b) .vOffset] else []) := by
  unfold Front.vOffset Fal.offset
  split <;> rfl

theorem Lll.switched_ideal (l : Lll) : l.switched.ideal = l.ideal := by
  unfold Lll.switched
  (repeat' split) <;> rfl

theorem Front.named_ideal : (f.named old new).lll.ideal = f.lll.ideal := by
  have hforced : (f.forced old new).lll.ideal = f.lll.ideal := by
    show (f.lllForced old new).ideal = _
    unfold Front.lllForced
    split <;> rfl
  show (if _ then _ else _ : Lll).ideal = _
  split
  · rw [Lll.switched_ideal, hforced]
  · exact hforced

/-- The blocks and the records that a load leaves, in R91's order. -/
theorem Front.load_eq : f.load old new stamp =
    (let g := f.named old new
     ({ g with
        lll := if f.turns new.testMode then { g.lll.switched with hTarget := new.hTarget }
          else { g.lll with hTarget := new.hTarget }
        fal := if f.turns new.testMode then (g.fal.offset old.vOffset new.vOffset).lost
          else g.fal.offset old.vOffset new.vOffset
        tst := f.tstOf new.testMode stamp },
      ((f.restart new.restart).stdMode old.stdMode new.stdMode).2 ++
      ((f.forced old new).policy old.policy new.policy).2 ++
      (if new.vOffset ≠ old.vOffset ∧ g.fal.field = .lock then
        [repFieldRealign (g.fal.offset old.vOffset new.vOffset) .vOffset] else []) ++
      (if f.turns new.testMode then
        ({ g.lll with hTarget := new.hTarget } : Lll).switch.2 ++
          ((g.fal.offset old.vOffset new.vOffset).enterSeek .switch).2
       else []))) := by
  let g := f.named old new
  let c : Front := { g with
    lll := { g.lll with hTarget := new.hTarget }, fal := g.fal.offset old.vOffset new.vOffset }
  have hturns : c.turns new.testMode = f.turns new.testMode := rfl
  have htst : c.tstOf new.testMode stamp = f.tstOf new.testMode stamp := by
    have hideal : c.lll.ideal = f.lll.ideal := f.named_ideal old new
    unfold Front.tstOf
    rw [hideal]
    rfl
  have htest := c.testMode_eq new.testMode stamp
  rw [hturns, htst] at htest
  have hlll : c.lll.switched = { g.lll.switched with hTarget := new.hTarget } := Lll.switched_target _ _
  rw [hlll] at htest
  unfold Front.load
  dsimp only
  rw [Front.stdMode_restart, Front.policy_forced, Front.vOffset_eq]
  exact (congrArg (fun x : Front × List Report => (x.1, _ ++ x.2)) htest :)

theorem Front.load_rfe : (f.load old new stamp).1.rfe = { f.rfe with
    inA := if new.restart then f.rfe.inA.restart else f.rfe.inA
    inB := if new.restart then f.rfe.inB.restart else f.rfe.inB
    working := f.workingOf old.stdMode new.stdMode
    active := f.activeOf old.policy new.policy
    absence := if new.policy = .auto ∧ old.policy ≠ .auto then 0 else f.rfe.absence
    differ := if new.stdMode ≠ old.stdMode ∨ f.names old.policy new.policy = true then 0 else f.rfe.differ
    warned := if new.stdMode ≠ old.stdMode ∨ f.names old.policy new.policy = true then false else f.rfe.warned } := by
  rw [Front.load_eq]
  unfold Front.named Front.forced
  by_cases h : new.stdMode = old.stdMode <;> cases f.names old.policy new.policy <;> simp [h]

end

end Sys2Proof.Machine
end

section
/-!
PROOFS. The records of a load's effects, and the effects as one state (R91).
-/

namespace Sys2Proof.Machine

/-! ### The records by their first word and their reason -/

/-- A record's first word with the reason it gives: word 6 of a LOCK record, else word 5 (R45, R62). -/
def Report.key (r : Report) : Word × Word := (r.w0, if r.w0.toNat / 256 = 2 then r.w6 else r.w5)

theorem Report.key_lock {r : Report} (h : r.w0.toNat / 256 = 2) : r.key = (r.w0, r.w6) := by
  unfold Report.key
  rw [if_pos h]

theorem Report.key_other {r : Report} (h : r.w0.toNat / 256 ≠ 2) : r.key = (r.w0, r.w5) := by
  unfold Report.key
  rw [if_neg h]

theorem standard_keys (l : Lll) (d : Standard) :
    (l.standard d).2.map (·.key) = if l.loop = .free then [] else [(0x0205#16, 1)] := by
  simp only [Lll.standard]
  split
  · rfl
  · exact congrArg ([·]) (Report.key_lock (r := repFree d.nominal true)
      (show (0x0205#16).toNat / 256 = 2 by decide))

theorem switch_keys (l : Lll) :
    l.switch.2.map (·.key) = if l.loop = .free ∨ l.loop = .holdover then [] else [(0x0204#16, 1)] := by
  unfold Lll.switch
  cases l.loop <;> simp [Report.key, repHoldover, bitOf, wordOfNat]

theorem enterSeek_keys (f : Fal) (why : LostReason) :
    (f.enterSeek why).2.map (·.key) = if f.field = .seek then [] else [(0x0304#16, wordOfNat why.code)] := by
  simp only [Fal.enterSeek]
  split
  · rfl
  · exact congrArg ([·]) (Report.key_other (r := repFieldLost _ why f.field f.miss)
      (show (0x0304#16).toNat / 256 ≠ 2 by decide))

theorem standard_tags {l : Lll} {d : Standard} : ∀ r ∈ (l.standard d).2, r.tag = 0 := by
  simp only [Lll.standard]
  split <;> simp [repFree]

theorem switch_tags {l : Lll} : ∀ r ∈ l.switch.2, r.tag = 0 := by
  unfold Lll.switch
  cases l.loop <;> simp [repHoldover]

theorem enterSeek_tags {f : Fal} {why : LostReason} : ∀ r ∈ (f.enterSeek why).2, r.tag = 0 := by
  simp only [Fal.enterSeek]
  split <;> simp [repFieldLost]

section
variable (old new : Settings) (stamp : Stamp) (f : Front)

theorem Front.stdMode_keys (a b : StdMode) : (f.stdMode a b).2.map (·.key) =
    if f.forces a b then
      (0x0206#16, 1) :: (if f.lll.loop = .free then [] else [(0x0205#16, 1)]) ++
        (if f.fal.field = .seek then [] else [(0x0304#16, 3)])
    else [] := by
  rw [Front.stdMode_snd]
  split
  · have hstd : (repStandard (f.workingOf a b) f.rfe.active true).key = (0x0206#16, 1) :=
      Report.key_lock (show (0x0206#16).toNat / 256 = 2 by decide)
    rw [List.map_cons, List.map_append, standard_keys, enterSeek_keys, hstd]
    rfl
  · rfl

theorem Front.policy_keys (a b : Policy) : (f.policy a b).2.map (·.key) =
    if f.names a b then
      (0x0103#16, 1) :: ((if f.lll.loop = .free ∨ f.lll.loop = .holdover then [] else [(0x0204#16, 1)]) ++
        (if f.fal.field = .seek then [] else [(0x0304#16, 2)]))
    else [] := by
  rw [Front.policy_snd]
  split
  · have hsw (r : Rfe) : (repInputSwitched r .select).key = (0x0103#16, 1) :=
      Report.key_other (show (0x0103#16).toNat / 256 ≠ 2 by decide)
    rw [List.map_cons, List.map_append, switch_keys, enterSeek_keys, hsw]
    rfl
  · rfl

theorem Front.stdMode_tags (a b : StdMode) : ∀ r ∈ (f.stdMode a b).2, r.tag = 0 := by
  rw [Front.stdMode_snd]
  split
  · intro r hr
    rcases List.mem_cons.1 hr with rfl | hr
    · rfl
    · rcases List.mem_append.1 hr with hr | hr
      · exact standard_tags r hr
      · exact enterSeek_tags r hr
  · exact nofun

theorem Front.policy_tags (a b : Policy) : ∀ r ∈ (f.policy a b).2, r.tag = 0 := by
  rw [Front.policy_snd]
  split
  · intro r hr
    rcases List.mem_cons.1 hr with rfl | hr
    · rfl
    · rcases List.mem_append.1 hr with hr | hr
      · exact switch_tags r hr
      · exact enterSeek_tags r hr
  · exact nofun

theorem Front.load_tags : ∀ r ∈ (f.load old new stamp).2, r.tag = 0 := by
  rw [Front.load_eq]
  intro r hr
  rcases List.mem_append.1 hr with hr | hr
  · rcases List.mem_append.1 hr with hr | hr
    · rcases List.mem_append.1 hr with hr | hr
      · exact Front.stdMode_tags _ _ _ r hr
      · exact Front.policy_tags _ _ _ r hr
    · split at hr
      · rw [List.mem_singleton.1 hr]
        rfl
      · exact absurd hr List.not_mem_nil
  · split at hr
    · rcases List.mem_append.1 hr with hr | hr
      · exact switch_tags r hr
      · exact enterSeek_tags r hr
    · exact absurd hr List.not_mem_nil

/-- The keys of a load's records, block by block (R91). -/
def Front.loadKeys (old new : Settings) (f : Front) : List (Word × Word) :=
  let forced := f.forces old.stdMode new.stdMode
  let named := f.names old.policy new.policy
  let held (l : LoopState) : Bool := l = .free ∨ l = .holdover
  let lost (f : FieldState) (why : Word) : List (Word × Word) := if f = .seek then [] else [(0x0304#16, why)]
  let free : List (Word × Word) := if f.lll.loop = .free then [] else [(0x0205#16, 1)]
  let loop1 : LoopState := if forced then .free else f.lll.loop
  let field1 : FieldState := if forced then .seek else f.fal.field
  let switch1 : List (Word × Word) := (if held loop1 then [] else [(0x0204#16, 1)]) ++ lost field1 2
  let field2 : FieldState := if named then .seek else field1
  let realign : Bool := new.vOffset ≠ old.vOffset ∧ field2 = .lock
  let field3 : FieldState := if realign then .align else field2
  let switch2 : List (Word × Word) := (if held loop1 ∨ named then [] else [(0x0204#16, 1)]) ++ lost field3 2
  (if forced then (0x0206#16, 1) :: free ++ lost f.fal.field 3 else []) ++
  (if named then (0x0103#16, 1) :: switch1 else []) ++
  (if realign then [(0x0303#16, 2)] else []) ++
  (if f.turns new.testMode then switch2 else [])

theorem Front.forced_loop : (f.forced old new).lll.loop = if f.forces old.stdMode new.stdMode then .free else f.lll.loop := by
  show (f.lllForced old new).loop = _
  unfold Front.lllForced
  split <;> rfl

theorem Front.forced_field : (f.forced old new).fal.field = if f.forces old.stdMode new.stdMode then .seek else f.fal.field := by
  show (f.falForced old new).field = _
  unfold Front.falForced
  split <;> rfl

theorem Front.named_field : (f.named old new).fal.field =
    if f.names old.policy new.policy then .seek else (f.forced old new).fal.field := by
  show (if _ then _ else _ : Fal).field = _
  split <;> rfl

/-- The loop is in FREE or HOLDOVER after the policy of a load. -/
theorem Front.named_held : ((f.named old new).lll.loop = .free ∨ (f.named old new).lll.loop = .holdover) ↔
    (((f.forced old new).lll.loop = .free ∨ (f.forced old new).lll.loop = .holdover) ∨
      f.names old.policy new.policy = true) := by
  have hloop : (f.named old new).lll = if f.names old.policy new.policy then (f.forced old new).lll.switched
      else (f.forced old new).lll := rfl
  rw [hloop]
  by_cases h : f.names old.policy new.policy = true
  · rw [if_pos h]
    have := (f.forced old new).lll.switched_loop
    tauto
  · rw [if_neg h]
    tauto

theorem Fal.offset_field (a b : Nat) (g : Fal) :
    (g.offset a b).field = if b ≠ a ∧ g.field = .lock then .align else g.field := by
  unfold Fal.offset
  split <;> rfl

theorem Front.load_keys : (f.load old new stamp).2.map (·.key) = f.loadKeys old new := by
  have hstd : ((f.restart new.restart).stdMode old.stdMode new.stdMode).2.map (·.key) =
      if f.forces old.stdMode new.stdMode then
        (0x0206#16, 1) :: (if f.lll.loop = .free then [] else [(0x0205#16, 1)]) ++
          (if f.fal.field = .seek then [] else [(0x0304#16, 3)])
      else [] := by
    rw [Front.stdMode_keys]
    unfold Front.restart
    split <;> rfl
  have hpol : ((f.forced old new).policy old.policy new.policy).2.map (·.key) = _ := Front.policy_keys _ _ _
  have hreal : (if new.vOffset ≠ old.vOffset ∧ (f.named old new).fal.field = .lock then
      [repFieldRealign ((f.named old new).fal.offset old.vOffset new.vOffset) .vOffset] else []).map (·.key) =
      if new.vOffset ≠ old.vOffset ∧ (f.named old new).fal.field = .lock then [(0x0303#16, 2)] else [] := by
    split
    · exact congrArg ([·]) (Report.key_other (show (0x0303#16).toNat / 256 ≠ 2 by decide))
    · rfl
  have hturn : (if f.turns new.testMode then
      ({ (f.named old new).lll with hTarget := new.hTarget } : Lll).switch.2 ++
        (((f.named old new).fal.offset old.vOffset new.vOffset).enterSeek .switch).2 else []).map (·.key) =
      if f.turns new.testMode then
        (if (f.named old new).lll.loop = .free ∨ (f.named old new).lll.loop = .holdover then [] else [(0x0204#16, 1)]) ++
          (if ((f.named old new).fal.offset old.vOffset new.vOffset).field = .seek then [] else [(0x0304#16, 2)])
      else [] := by
    split
    · rw [List.map_append, switch_keys, enterSeek_keys]
      rfl
    · rfl
  rw [Front.load_eq]
  dsimp only
  rw [List.map_append, List.map_append, List.map_append, hstd, hpol, hreal, hturn]
  have hnames : (f.forced old new).names old.policy new.policy = f.names old.policy new.policy := rfl
  simp only [Front.loadKeys, hnames, Front.named_held, Fal.offset_field, Front.named_field, Front.forced_field,
    Front.forced_loop, decide_eq_true_eq]

/-- A load gives four records at most. -/
theorem Front.load_length : (f.load old new stamp).2.length ≤ 4 := by
  have hlen := congrArg List.length (f.load_keys old new stamp)
  rw [List.length_map] at hlen
  rw [hlen]
  unfold Front.loadKeys
  dsimp only
  cases f.forces old.stdMode new.stdMode <;> cases f.names old.policy new.policy <;>
    simp only [if_true, if_false, Bool.false_eq_true, List.length_append, List.length_cons, List.length_nil] <;>
    (repeat' split) <;> simp_all

end

end Sys2Proof.Machine
end

section
/-!
PROOFS. A load's effects as the statements say them (R91).
-/

namespace Sys2Proof.Machine

section
variable (old : Settings) (s : State)

theorem handed_rpw (on : Bool) (f : Front) (rs : List Report) :
    (s.handed on f rs).rpw = { s.rpw with
      fifo := (s.handed on f rs).rpw.fifo, withheld := (s.handed on f rs).rpw.withheld
      openGap := (s.handed on f rs).rpw.openGap, openStamp := (s.handed on f rs).rpw.openStamp
      gapPending := (s.handed on f rs).rpw.gapPending
      latched := if on then s.rpw.latched ||| Cause.inputChange.bit else s.rpw.latched
      seen := if on then s.rpw.seen &&& ~~~Cause.inputChange.bit else s.rpw.seen } := by
  have hall (rs : List Report) (u : State) : u.rpw.SameButFifo (produceAll rs u).rpw := by
    induction rs generalizing u with
    | nil => exact Rpw.SameButFifo.refl _
    | cons r rs ih => exact (Rpw.produce_sameButFifo u.rpw _).trans (ih (produce r u))
  have hsame := hall rs (latchIf on (s.withFront f))
  unfold Rpw.SameButFifo at hsame
  unfold State.handed
  rw [hsame]
  cases on <;> rfl

theorem handed_eq (on : Bool) (f : Front) (rs : List Report) :
    s.handed on f rs = { s with
      rfe := f.rfe, lll := f.lll, fal := f.fal, tst := f.tst, rpw := (s.handed on f rs).rpw } := by
  unfold State.handed latchIf
  rw [produceAll_eq]
  split <;> rfl

theorem handed_adds (on : Bool) (f : Front) (rs : List Report) :
    s.rpw.Adds (s.handed on f rs).rpw (rs.map (·.stamped s.tgn.stamp)) := by
  have hlatch : s.rpw.Adds (latchIf on (s.withFront f)).rpw [] := by
    unfold latchIf
    split <;> exact Rpw.Adds.of_eq rfl rfl
  have hstamp : (latchIf on (s.withFront f)).tgn.stamp = s.tgn.stamp := by
    unfold latchIf
    split <;> rfl
  have hall := produceAll_adds rs (latchIf on (s.withFront f))
  rw [hstamp] at hall
  exact hlatch.trans hall

theorem Front.turns_iff {new : TestMode} {f : Front} : f.turns new = true ↔
    ((new = .internalLoop ∧ f.tst.mode ≠ .internalLoop) ∨ (new ≠ .internalLoop ∧ f.tst.mode = .internalLoop)) :=
  decide_eq_true_iff

end

section
variable (old : Settings) (s : State)

/-- The loop that a load's effects leave. -/
theorem Front.load_lll (new : Settings) (stamp : Stamp) (f : Front) :
    (f.load old new stamp).1.lll =
      { (if f.notice old new then (f.lllForced old new).switched else f.lllForced old new) with hTarget := new.hTarget } := by
  rw [Front.load_eq]
  have hnamed : (f.named old new).lll =
      if f.names old.policy new.policy then (f.lllForced old new).switched else f.lllForced old new := rfl
  dsimp only
  rw [hnamed]
  unfold Front.notice
  cases f.names old.policy new.policy <;> cases f.turns new.testMode <;> simp [Lll.switched_switched]

/-- The aligner that a load's effects leave. -/
theorem Front.load_fal (new : Settings) (stamp : Stamp) (f : Front) :
    (f.load old new stamp).1.fal =
      if f.forces old.stdMode new.stdMode = true ∨ f.notice old new = true then f.fal.lost
      else f.fal.offset old.vOffset new.vOffset := by
  have hoffset (g : Fal) : g.lost.offset old.vOffset new.vOffset = g.lost := if_neg fun h => nomatch h.2
  have htwice (g : Fal) : (g.offset old.vOffset new.vOffset).lost = g.lost := by
    unfold Fal.offset
    split <;> rfl
  have hnamed : (f.named old new).fal =
      if f.names old.policy new.policy then (f.falForced old new).lost else f.falForced old new := rfl
  rw [Front.load_eq]
  dsimp only
  rw [hnamed]
  unfold Front.falForced Front.notice
  cases f.forces old.stdMode new.stdMode <;> cases f.names old.policy new.policy <;> cases f.turns new.testMode <;>
    simp only [Bool.or_true, Bool.or_false, Bool.false_eq_true, or_self, or_true, true_or, if_true, if_false, hoffset, htwice] <;>
    rfl

theorem Lll.switched_aims (l : Lll) (x : Int) : ({ l.switched with hTarget := x } : Lll) =
    if l.loop = .free then { l with hTarget := x }
    else if l.loop = .holdover then { l with hTarget := x, holdover := 0 }
    else { l with
      hTarget := x, loop := .holdover, holdover := 0, capture := none, flywheel := 0, stray := none
      settling := false, accepted := none, lineStray := none } := by
  unfold Lll.switched
  (repeat' split) <;> rfl

/-- The test unit's first arrival of INTERNAL_LOOP (R191, assumption log 23). -/
theorem entryLines_iff (f : Front) :
    let edge : Pu := BitVec.ofNat 36 (f.lll.ideal.toNat / 16)
    let ahead := (BitVec.ofNat 32 (edge.toNat / 16) + 170 - f.rfe.tick).toInt
    (if Tick.reached (tstLineTick (Qu.pu f.lll.ideal)) f.rfe.tick then [Qu.pu f.lll.ideal] else []) =
      if 0 ≤ ahead then [edge] else [] := by
  have hedge : Qu.pu f.lll.ideal = BitVec.ofNat 36 (f.lll.ideal.toNat / 16) := rfl
  rw [← hedge]
  unfold Tick.reached tstLineTick
  simp only [decide_eq_true_eq]
  rfl

end

theorem tstOf_entry (new : TestMode) (stamp : Stamp) (f : Front) (h : new = .internalLoop ∧ f.tst.mode ≠ .internalLoop) :
    f.tstOf new stamp = { f.tstOf new stamp with
      mode := .internalLoop, count := some ⟨stamp, 0⟩, lockTime := some stamp, run := [] } ∧
    (let edge : Pu := BitVec.ofNat 36 (f.lll.ideal.toNat / 16)
     let ahead := (BitVec.ofNat 32 (edge.toNat / 16) + 170 - f.rfe.tick).toInt
     (0 ≤ ahead → (f.tstOf new stamp).lines = [edge]) ∧ (ahead < 0 → (f.tstOf new stamp).lines = [])) := by
  have hmode : ¬new = f.tst.mode := fun e => h.2 (e.symm.trans h.1)
  have hlines : (f.tstOf new stamp).lines =
      if Tick.reached (tstLineTick (Qu.pu f.lll.ideal)) f.rfe.tick then [Qu.pu f.lll.ideal] else [] :=
    congrArg Tst.lines ((if_neg hmode).trans (if_pos h.1))
  have hfields : f.tstOf new stamp = { f.tstOf new stamp with
      mode := .internalLoop, count := some ⟨stamp, 0⟩, lockTime := some stamp, run := [] } := by
    unfold Front.tstOf
    rw [if_neg hmode, if_pos h.1, h.1]
  refine ⟨hfields, ?_⟩
  rw [hlines, entryLines_iff]
  exact ⟨fun ha => if_pos ha, fun ha => if_neg (by omega)⟩

end Sys2Proof.Machine
end

section
/-!
PROOFS. A load refused and a load adopted: the LINK fault, the descriptors with their index checks, the settings and
the effects (R81 to R84, R90, R91, R160, R187).
-/

namespace Sys2Proof.Machine

/-! ### Records handed on in order -/

/-- The records join the FIFO in order as far as there is room, and a FIFO with room at the end has taken them all. -/
structure Rpw.Hands (r r' : Rpw) (rs : List Report) : Prop where
  adds : r.Adds r' rs
  fills : r'.fifo.length < 8 → r.fifo.length + rs.length = r'.fifo.length
  keeps : r.fifo <+: r'.fifo
  starts : r.openGap = 0 → ∀ first, first <+: rs → r.fifo.length + first.length ≤ 8 →
    r.fifo ++ first.map (fun x => ⟨x, none⟩) <+: r'.fifo

namespace Rpw.Hands
variable {r r' r'' : Rpw} {rs rs' : List Report}

theorem of_eq (hfifo : r'.fifo = r.fifo) (hgap : r'.openGap = r.openGap) : r.Hands r' [] where
  adds := .of_eq hfifo hgap
  fills := fun _ => by rw [hfifo]; rfl
  keeps := by rw [hfifo]
  starts := fun _ first hfirst _ => by rw [List.prefix_nil.1 hfirst, hfifo, List.map_nil, List.append_nil]

theorem trans (h : r.Hands r' rs) (h' : r'.Hands r'' rs') : r.Hands r'' (rs ++ rs') where
  adds := h.adds.trans h'.adds
  fills := fun hroom => by
    have h2 := h'.fills hroom
    have h1 := h.fills (by omega)
    rw [List.length_append]
    omega
  keeps := h.keeps.trans h'.keeps
  starts := fun hgap first hfirst hroom => by
    rcases List.prefix_or_prefix_of_prefix hfirst (List.prefix_append rs rs') with hin | ⟨second, rfl⟩
    · exact (h.starts hgap first hin hroom).trans h'.keeps
    · have hsecond : second <+: rs' := (List.prefix_append_right_inj rs).1 hfirst
      rw [List.length_append] at hroom
      obtain ⟨hgap', hfifo⟩ := h.adds hgap (by omega)
      have hlen : r'.fifo.length = r.fifo.length + rs.length := by rw [hfifo]; simp
      have hnext := h'.starts hgap' second hsecond (by omega)
      rw [hfifo] at hnext
      rw [List.map_append, ← List.append_assoc]
      exact hnext

theorem then_eq (h : r.Hands r' rs) (hfifo : r''.fifo = r'.fifo) (hgap : r''.openGap = r'.openGap) : r.Hands r'' rs := by
  simpa using h.trans (of_eq hfifo hgap)

end Rpw.Hands

theorem produce_hands (x : Report) (s : State) : s.rpw.Hands (produce x s).rpw [x.stamped s.tgn.stamp] where
  adds := produce_adds x s
  fills := fun hroom => by
    rw [produce, Rpw.produce_fifo] at hroom ⊢
    split at hroom
    · simp_all
    · contradiction
  keeps := produce_prefix x s
  starts := fun hgap first hfirst hroom => by
    rcases List.prefix_cons_iff.1 hfirst with rfl | ⟨rest, rfl, hrest⟩
    · simpa using produce_prefix x s
    · obtain rfl := List.prefix_nil.1 hrest
      rw [(produce_adds x s hgap hroom).2]

theorem produceAll_hands (rs : List Report) (s : State) :
    s.rpw.Hands (produceAll rs s).rpw (rs.map (·.stamped s.tgn.stamp)) := by
  induction rs generalizing s with
  | nil => exact .of_eq rfl rfl
  | cons x rs ih => exact (produce_hands x s).trans (ih (produce x s))

theorem produceAll_sameButFifo (rs : List Report) (s : State) : s.rpw.SameButFifo (produceAll rs s).rpw := by
  induction rs generalizing s with
  | nil => exact Rpw.SameButFifo.refl _
  | cons r rs ih => exact (Rpw.produce_sameButFifo s.rpw _).trans (ih (produce r s))

/-! ### A load refused (R82, R160, R187) -/

/-- The machine once a LINK fault has halted it, before its report. -/
def linkHalted (s : State) : State :=
  let s1 := enterHalted .link (dropCueRequests (dropWriters s))
  latch .link { s1 with cue := { s1.cue with linkValid := false, startup := false } }

theorem linkFault_eq (tag : Word) (b : Bool) (test : Nat) (s : State) : linkFault tag b test s =
    abortLoading .link (produce (repHaltLink tag b test s.cue.take) (linkHalted s)) := rfl

theorem linkFault_cue (tag : Word) (b : Bool) (test : Nat) (s : State) : (linkFault tag b test s).cue = { s.cue with
    engine := .halted, haltReason := some .link, scan := none, due := [], idle := none, wait := none, heldFrom := none
    linkValid := false, startup := false } := by
  rw [linkFault_eq, (abortLoading_frame _ _).2.2.2.2.1]
  rfl

theorem linkFault_rpw (tag : Word) (b : Bool) (test : Nat) (s : State) :
    ({ s.rpw with
      status := [], getDue := false, putDue := false, latched := s.rpw.latched ||| Cause.link.bit
      seen := s.rpw.seen &&& ~~~Cause.link.bit } : Rpw).SameButFifo (linkFault tag b test s).rpw :=
  (Rpw.produce_sameButFifo (linkHalted s).rpw _).trans (abortLoading_sameButFifo _ _)

theorem abortLoading_idle_port (why : AbortReason) {s : State} (h : s.mpt.service = none) :
    (abortLoading why s).mpt.service = none := by
  unfold abortLoading abortLoad
  split
  · split
    · show s.mpt.service.map _ = none
      rw [h]
      rfl
    · exact h
  · exact h

theorem linkFault_idle_port (tag : Word) (b : Bool) (test : Nat) {s : State} (h : s.mpt.service = none) :
    (linkFault tag b test s).mpt.service = none := by
  refine abortLoading_idle_port .link (s := produce (repHaltLink tag b test s.cue.take) (linkHalted s)) ?_
  show s.mpt.service.map _ = none
  rw [h]
  rfl

/-! ### A load adopted (R81, R83, R84, R90, R91) -/

/-- WARN/INDEX of an index at or above its length (R84). -/
def indexWarning (tag : Word) (which v len : Nat) : List Report :=
  if len ≤ v then [repWarnIndex tag which v len] else []

/-- An index at or above its length becomes 0 (R84). -/
def indexWithin (v len : Nat) : Nat := if v < len then v else 0

/-- The memory port with the take write of a corrected take posted. -/
def takeCorrected (link take len : Nat) (m : Mpt) : Mpt :=
  if len ≤ take then { m with cueQ := takeQueue (.takeWrite (link + 8) 0) m.cueQ } else m

def checkTake (tag : Word) (s : State) : State :=
  if s.cue.qLen ≤ s.cue.take then
    postTake (produce (repWarnIndex tag 0 s.cue.take s.cue.qLen) { s with cue := { s.cue with take := 0 } })
  else s

def checkPut (tag : Word) (s : State) : State :=
  if s.rpw.len ≤ s.rpw.put then
    produce (repWarnIndex tag 1 s.rpw.put s.rpw.len) { s with rpw := { s.rpw with put := 0, putDue := true } }
  else s

theorem checkIndices_eq (tag : Word) (s : State) : checkIndices tag s = checkPut tag (checkTake tag s) := rfl

theorem checkTake_eq (tag : Word) (s : State) : checkTake tag s = { s with
    cue := { s.cue with take := indexWithin s.cue.take s.cue.qLen }
    mpt := takeCorrected s.cue.link.toNat s.cue.take s.cue.qLen s.mpt
    rpw := (produceAll (indexWarning tag 0 s.cue.take s.cue.qLen) s).rpw } := by
  unfold checkTake indexWithin takeCorrected indexWarning
  by_cases h : s.cue.qLen ≤ s.cue.take
  · rw [if_pos h, if_pos h, if_pos h, if_neg (by omega), postTake_eq, postTake_cueQ]
    rfl
  · rw [if_neg h, if_neg h, if_neg h, if_pos (by omega)]
    rfl

/-- The report writer with its put checked against the length of the ring. -/
def Rpw.putChecked (r : Rpw) : Rpw :=
  { r with put := indexWithin r.put r.len, putDue := if r.len ≤ r.put then true else r.putDue }

theorem checkPut_eq (tag : Word) (s : State) : checkPut tag s = { s with
    rpw := (produceAll (indexWarning tag 1 s.rpw.put s.rpw.len) { s with rpw := s.rpw.putChecked }).rpw } := by
  unfold checkPut indexWarning Rpw.putChecked indexWithin
  by_cases h : s.rpw.len ≤ s.rpw.put
  · simp only [if_pos h, if_neg (Nat.not_lt.2 h)]
    rfl
  · simp only [if_neg h, if_pos (Nat.not_le.1 h)]
    rfl

/-- The report writer, its FIFO aside, with a load's descriptors adopted. -/
def Rpw.described (x : Image) (put : Nat) (r : Rpw) : Rpw :=
  { r with
    base := x.rBase, len := x.rLen, put := indexWithin put x.rLen, lastGet := x.get
    trigger := triggerOf x.rLen x.repTrigger, matchList := x.matchList, fullWait := false
    putDue := if x.rLen ≤ put then true else r.putDue }

theorem Rpw.SameButFifo.put_len {r r' : Rpw} (h : r.SameButFifo r') :
    r'.put = r.put ∧ r'.len = r.len ∧ r'.putDue = r.putDue := by
  unfold Rpw.SameButFifo at h
  rw [h]
  exact ⟨rfl, rfl, rfl⟩

/-- What the adoption of the descriptors leaves, the index checks with it (R81, R84). -/
theorem checkIndices_adopted (tag : Word) (x : Image) (take put : Nat) (s : State) :
    let t := checkIndices tag (adoptDescriptors x take put s)
    t.cue = { s.cue with qBase := x.qBase, qLen := x.qLen, take := indexWithin take x.qLen } ∧
    (∃ q, t.mpt = takeCorrected s.cue.link.toNat take x.qLen { s.mpt with rpw := q }) ∧
    (s.rpw.described x put).SameButFifo t.rpw ∧
    s.rpw.Hands t.rpw ((indexWarning tag 0 take x.qLen ++ indexWarning tag 1 put x.rLen).map (·.stamped s.tgn.stamp)) := by
  let a := adoptDescriptors x take put s
  let b := checkTake tag a
  have hb : b = _ := checkTake_eq tag a
  have hbrpw : b.rpw = (produceAll (indexWarning tag 0 take x.qLen) a).rpw := by rw [hb]; rfl
  have hsame1 : a.rpw.SameButFifo b.rpw := by
    rw [hbrpw]
    exact produceAll_sameButFifo _ _
  obtain ⟨hput, hlen, hdue⟩ := hsame1.put_len
  have hput' : b.rpw.put = put := hput
  have hlen' : b.rpw.len = x.rLen := hlen
  have hstamp : b.tgn = s.tgn := by rw [hb]; rfl
  have hc : checkPut tag b = _ := checkPut_eq tag b
  rw [hput', hlen'] at hc
  let w := indexWarning tag 1 put x.rLen
  have hcrpw : (checkPut tag b).rpw = (produceAll w { b with rpw := b.rpw.putChecked }).rpw := by rw [hc]
  have hchecked : (s.rpw.described x put).SameButFifo b.rpw.putChecked := by
    unfold Rpw.putChecked
    rw [hput', hlen', hdue]
    unfold Rpw.SameButFifo at hsame1 ⊢
    rw [hsame1]
    rfl
  have hsame2 : b.rpw.putChecked.SameButFifo (checkPut tag b).rpw := by
    rw [hcrpw]
    exact produceAll_sameButFifo w { b with rpw := b.rpw.putChecked }
  have hhands1 : s.rpw.Hands b.rpw ((indexWarning tag 0 take x.qLen).map (·.stamped s.tgn.stamp)) := by
    rw [hbrpw]
    exact (Rpw.Hands.of_eq (r := s.rpw) (r' := a.rpw) rfl rfl).trans (produceAll_hands _ a)
  have hhands2 : b.rpw.Hands (checkPut tag b).rpw (w.map (·.stamped s.tgn.stamp)) := by
    rw [hcrpw, ← hstamp]
    exact (Rpw.Hands.of_eq (r := b.rpw) (r' := b.rpw.putChecked) rfl rfl).trans
      (produceAll_hands w { b with rpw := b.rpw.putChecked })
  refine ⟨?_, ?_, hchecked.trans hsame2, ?_⟩
  · show (checkPut tag b).cue = _
    rw [hc]
    show b.cue = _
    rw [hb]
    rfl
  · refine ⟨a.mpt.rpw, ?_⟩
    show (checkPut tag b).mpt = _
    rw [hc]
    show b.mpt = _
    rw [hb]
    rfl
  · rw [List.map_append]
    exact hhands1.trans hhands2

end Sys2Proof.Machine
end

section
/-!
PROOFS. What a validated load leaves of every block, with its records (R81, R83, R84, R90, R91, R179).
-/

namespace Sys2Proof.Machine

/-- The warnings of a load: its indices, then its settings (R84, R90). -/
def loadWarnings (tag : Word) (x : Image) (take put : Nat) (working : Standard) : List Report :=
  indexWarning tag 0 take x.qLen ++ indexWarning tag 1 put x.rLen ++ settingWarnings tag x.settings working

theorem handed_hands (s : State) (on : Bool) (f : Front) (rs : List Report) :
    s.rpw.Hands (s.handed on f rs).rpw (rs.map (·.stamped s.tgn.stamp)) := by
  have hlatch : s.rpw.Hands (latchIf on (s.withFront f)).rpw [] := by
    unfold latchIf
    split <;> exact .of_eq rfl rfl
  have hstamp : (latchIf on (s.withFront f)).tgn.stamp = s.tgn.stamp := by
    unfold latchIf
    split <;> rfl
  have hall := produceAll_hands rs (latchIf on (s.withFront f))
  rw [hstamp] at hall
  exact hlatch.trans hall

theorem front_withCue (s : State) (c : Cue) : ({ s with cue := c } : State).front = s.front := rfl

theorem rpwNext_front (s : State) : (rpwNext s).front = s.front := by
  rw [rpwNext_eq]
  rfl

/-- The causes with INPUT_CHANGE latched where told (R175). -/
def Rpw.latchedIf (on : Bool) (r : Rpw) : Rpw := if on then r.latch .inputChange else r

theorem handed_sameButFifo (s : State) (on : Bool) (f : Front) (rs : List Report) :
    (s.rpw.latchedIf on).SameButFifo (s.handed on f rs).rpw := by
  have hlatch : (latchIf on (s.withFront f)).rpw = s.rpw.latchedIf on := by
    unfold latchIf Rpw.latchedIf
    split <;> rfl
  rw [← hlatch]
  exact produceAll_sameButFifo _ _

theorem Rpw.SameButFifo.latchedIf {r r' : Rpw} (on : Bool) (h : r.SameButFifo r') :
    (r.latchedIf on).SameButFifo (r'.latchedIf on) := by
  unfold Rpw.SameButFifo at *
  rw [h]
  cases on <;> rfl

section
variable (tag : Word) (x : Image) (take put : Nat) (s : State)

/-- A load with its descriptors, settings and effects adopted, before the writer's next act. -/
def loaded : State :=
  let s1 := checkIndices tag (adoptDescriptors x take put s)
  let st := settingsOf x.settings s1.rfe.working
  let s2 := produceAll (settingWarnings tag x.settings s1.rfe.working) { s1 with cue := { s1.cue with settings := st } }
  let s3 := loadEffects s.cue.settings s2
  { s3 with cue := { s3.cue with linkValid := true, startup := false, masks := st.faultMask } }

theorem adoptLoad_eq : adoptLoad tag x take put s = rpwNext (loaded tag x take put s) := rfl

/-- The settings that a load adopts. -/
def State.loadSettings (x : Image) (s : State) : Settings := settingsOf x.settings s.rfe.working

/-- The blocks and the records of the effects of a load. -/
def State.loadFront (x : Image) (s : State) : Front × List Report :=
  s.front.load s.cue.settings (s.loadSettings x) s.tgn.stamp

/-- A load makes the other input active. -/
def State.loadNames (x : Image) (s : State) : Bool := s.front.names s.cue.settings.policy (s.loadSettings x).policy

theorem loaded_spec :
    let t := loaded tag x take put s
    t.front = (s.loadFront x).1 ∧
    t.cue = { s.cue with
      qBase := x.qBase, qLen := x.qLen, take := indexWithin take x.qLen, settings := s.loadSettings x
      linkValid := true, startup := false, masks := (s.loadSettings x).faultMask } ∧
    (∃ q, t.mpt = takeCorrected s.cue.link.toNat take x.qLen { s.mpt with rpw := q }) ∧
    ((s.rpw.described x put).latchedIf (s.loadNames x)).SameButFifo t.rpw ∧
    s.rpw.Hands t.rpw ((loadWarnings tag x take put s.rfe.working ++ (s.loadFront x).2).map (·.stamped s.tgn.stamp)) := by
  intro t
  let c := checkIndices tag (adoptDescriptors x take put s)
  obtain ⟨hcue, hmpt, hrpw, hhands⟩ :
    c.cue = { s.cue with qBase := x.qBase, qLen := x.qLen, take := indexWithin take x.qLen } ∧
    (∃ q, c.mpt = takeCorrected s.cue.link.toNat take x.qLen { s.mpt with rpw := q }) ∧
    (s.rpw.described x put).SameButFifo c.rpw ∧
    s.rpw.Hands c.rpw ((indexWarning tag 0 take x.qLen ++ indexWarning tag 1 put x.rLen).map (·.stamped s.tgn.stamp)) :=
    checkIndices_adopted tag x take put s
  have hfront : c.front = s.front := by
    show (⟨c.rfe, c.lll, c.fal, c.tst⟩ : Front) = _
    simp only [c, checkIndices_frame, adoptDescriptors_frame]
    rfl
  have htgn : c.tgn = s.tgn := by simp only [c, checkIndices_frame, adoptDescriptors_frame]
  have hwork : c.rfe.working = s.rfe.working := congrArg (fun f => f.rfe.working) hfront
  let warns := settingWarnings tag x.settings c.rfe.working
  let v : State := { c with cue := { c.cue with settings := settingsOf x.settings c.rfe.working } }
  let u := produceAll warns v
  have huv : u = { v with rpw := u.rpw } := produceAll_eq warns v
  have hufront : u.front = s.front := (produceAll_front warns v).trans hfront
  have hucue : u.cue = { c.cue with settings := s.loadSettings x } := by
    rw [huv]
    show ({ c.cue with settings := settingsOf x.settings c.rfe.working } : Cue) = _
    rw [hwork]
    rfl
  have hutgn : u.tgn = s.tgn := by
    rw [huv]
    exact htgn
  have heff : loadEffects s.cue.settings u = u.handed (s.loadNames x) (s.loadFront x).1 (s.loadFront x).2 := by
    have h := loadEffects_front s.cue.settings u
    dsimp only at h
    rw [hufront, hucue, hutgn] at h
    exact h
  let e := loadEffects s.cue.settings u
  have ht : t = { e with cue := { e.cue with
      linkValid := true, startup := false, masks := (settingsOf x.settings c.rfe.working).faultMask } } := rfl
  have hecue : e.cue = u.cue := (loadEffects_frame _ _).2.2.1
  have hempt : e.mpt = c.mpt := by
    rw [show e.mpt = u.mpt from (loadEffects_frame _ _).2.1, huv]
  have herpw : t.rpw = (u.handed (s.loadNames x) (s.loadFront x).1 (s.loadFront x).2).rpw := by
    rw [ht, ← heff]
  refine ⟨?_, ?_, ?_, ?_, ?_⟩
  · rw [ht, front_withCue]
    exact (congrArg State.front heff).trans (handed_front _ _ _ _)
  · rw [ht]
    dsimp only
    rw [hecue, hucue, hcue, hwork]
    rfl
  · rw [ht]
    dsimp only
    rw [hempt]
    exact hmpt
  · rw [herpw]
    have hu : c.rpw.SameButFifo u.rpw := produceAll_sameButFifo warns v
    exact ((hrpw.trans hu).latchedIf _).trans (handed_sameButFifo _ _ _ _)
  · rw [herpw]
    have hu : c.rpw.Hands u.rpw (warns.map (·.stamped s.tgn.stamp)) := by
      rw [← htgn]
      exact produceAll_hands warns v
    have hh := handed_hands u (s.loadNames x) (s.loadFront x).1 (s.loadFront x).2
    rw [hutgn] at hh
    have hwarns : warns = settingWarnings tag x.settings s.rfe.working := by
      show settingWarnings tag x.settings c.rfe.working = _
      rw [hwork]
    rw [hwarns] at hu
    have hall := (hhands.trans hu).trans hh
    rw [← List.map_append, ← List.map_append] at hall
    exact hall

/-- A writer that owes a lone put write still owes it or has posted it (R84). -/
theorem rpwNext_owes {u : State} (h : u.rpw.putDue = true) :
    (rpwNext u).rpw.putDue = true ∨ (rpwNext u).mpt.rpw = some (.lonePut (u.cue.link.toNat + 34) u.rpw.put) := by
  by_cases hfree : u.mayWrite = true ∧ u.writeInHand = false
  · right
    rw [rpwNext_put h hfree.1 hfree.2]
    rfl
  · left
    rw [rpwNext_of_busy hfree]
    exact h

/-- What a validated load leaves. -/
theorem adoptLoad_spec :
    let t := adoptLoad tag x take put s
    t.front = (s.loadFront x).1 ∧
    t.cue = { s.cue with
      qBase := x.qBase, qLen := x.qLen, take := indexWithin take x.qLen, settings := s.loadSettings x
      linkValid := true, startup := false, masks := (s.loadSettings x).faultMask } ∧
    (∃ q, t.mpt = takeCorrected s.cue.link.toNat take x.qLen { s.mpt with rpw := q }) ∧
    (∃ p g, ({ (s.rpw.described x put).latchedIf (s.loadNames x) with putDue := p, getDue := g } : Rpw).SameButFifo t.rpw) ∧
    (x.rLen ≤ put → t.rpw.putDue = true ∨ t.mpt.rpw = some (.lonePut (s.cue.link.toNat + 34) 0)) ∧
    s.rpw.Hands t.rpw ((loadWarnings tag x take put s.rfe.working ++ (s.loadFront x).2).map (·.stamped s.tgn.stamp)) := by
  intro t
  obtain ⟨hfront, hcue, ⟨q, hmpt⟩, hrpw, hhands⟩ := loaded_spec tag x take put s
  let u := loaded tag x take put s
  have ht : t = rpwNext u := adoptLoad_eq tag x take put s
  have heq := rpwNext_eq u
  have hmem := rpwNext_mpt u
  refine ⟨?_, ?_, ?_, ?_, fun hput => ?_, ?_⟩
  · rw [ht, rpwNext_front]
    exact hfront
  · rw [ht, (rpwNext_frame u).2.2.2.2.1]
    exact hcue
  · refine ⟨(rpwNext u).mpt.rpw, ?_⟩
    rw [ht, hmem]
    have hm : u.mpt = _ := hmpt
    rw [hm]
    unfold takeCorrected
    split <;> rfl
  · refine ⟨(rpwNext u).rpw.putDue, (rpwNext u).rpw.getDue, ?_⟩
    rw [ht]
    have hr : u.rpw = _ := hrpw
    unfold Rpw.SameButFifo
    rw [congrArg State.rpw heq]
    dsimp only
    rw [hr]
  · have hr : u.rpw = _ := hrpw
    have hdue : u.rpw.putDue = true := by
      rw [hr]
      show (Rpw.latchedIf _ _).putDue = true
      unfold Rpw.latchedIf Rpw.described
      rw [if_pos hput]
      split <;> rfl
    have hzero : u.rpw.put = 0 := by
      rw [hr]
      show (Rpw.latchedIf _ _).put = 0
      unfold Rpw.latchedIf Rpw.described indexWithin
      rw [if_neg (Nat.not_lt.2 hput)]
      split <;> rfl
    have hu : u.cue = _ := hcue
    have hlink : u.cue.link = s.cue.link := by rw [hu]
    rw [ht, ← hzero, ← hlink]
    exact rpwNext_owes hdue
  · have hgap : (rpwNext u).rpw.openGap = u.rpw.openGap := by rw [heq]
    rw [ht]
    exact hhands.then_eq (rpwNext_rpw_frame u).1 hgap

end

end Sys2Proof.Machine
end

section
/-!
PROOFS. The words of a load: the image, R82's tests, the settings with their clamps and warnings (R81, R82, R90).
-/

namespace Sys2Proof.Machine

/-! ### The image of a start-up load (R81) -/

/-- The image of the words read, take and put apart. -/
def imageOf (w : Nat → Word) (settings : List Word) : Image :=
  { qBase := (w 0).toNat + 65536 * ((w 1).toNat % 256), qLen := (w 2).toNat
    rBase := (w 4).toNat + 65536 * ((w 5).toNat % 256), rLen := (w 6).toNat
    get := (w 8).toNat, repTrigger := (w 9).toNat
    matchList := #v[⟨w 10, w 11⟩, ⟨w 12, w 13⟩, ⟨w 14, w 15⟩, ⟨w 16, w 17⟩]
    settings := settings }

theorem startupImage_eq {ws : List Word} (h : 8 ≤ ws.length) : startupImage ws =
    (imageOf (fun k => ws.getD k 0) ((ws.drop 18).take 13), (ws.getD 3 0).toNat, (ws.getD 7 0).toNat) := by
  obtain ⟨a0, a1, a2, a3, a4, a5, a6, a7, rest, rfl⟩ :
      ∃ a0 a1 a2 a3 a4 a5 a6 a7 rest, ws = a0 :: a1 :: a2 :: a3 :: a4 :: a5 :: a6 :: a7 :: rest := by
    match ws, h with
    | a0 :: a1 :: a2 :: a3 :: a4 :: a5 :: a6 :: a7 :: rest, _ => exact ⟨a0, a1, a2, a3, a4, a5, a6, a7, rest, rfl⟩
  have hget (j k : Nat) : (rest.drop j).getD k 0 = rest.getD (j + k) 0 := by simp [List.getD_eq_getElem?_getD]
  have himage : Image.ofWords (a0 :: a1 :: a2 :: a4 :: a5 :: a6 :: rest) =
      imageOf (fun k => (a0 :: a1 :: a2 :: a3 :: a4 :: a5 :: a6 :: a7 :: rest).getD k 0) ((rest.drop 10).take 13) := by
    simp only [Image.ofWords, imageOf, baseOf, bits_low, matchListOf]
    simp only [List.getD_cons_succ, List.getD_cons_zero, List.drop_succ_cons, hget, Nat.reduceAdd]
  exact congrArg (fun x => (x, a3.toNat, a7.toNat)) himage

/-! ### R82's tests -/

/-- The tests of R82 in their order. -/
def Image.tests (x : Image) (l : Nat) : List Bool :=
  [ decide (l % 2 = 0 ∧ l + 128 ≤ 2 ^ 24), decide (x.qBase % 2 = 0), decide (x.rBase % 2 = 0)
  , decide (2 ≤ x.qLen ∧ x.qLen ≤ 1024), decide (2 ≤ x.rLen ∧ x.rLen ≤ 1024)
  , decide (x.qBase + 16 * x.qLen ≤ 2 ^ 24), decide (x.rBase + 16 * x.rLen ≤ 2 ^ 24) ]

/-- The first of seven tests that fails. -/
theorem findIdx_seven (b0 b1 b2 b3 b4 b5 b6 : Bool) : [b0, b1, b2, b3, b4, b5, b6].findIdx? (fun b => !b) =
    if !b0 then some 0 else if !b1 then some 1 else if !b2 then some 2 else if !b3 then some 3
    else if !b4 then some 4 else if !b5 then some 5 else if !b6 then some 6 else none := by
  revert b0 b1 b2 b3 b4 b5 b6
  decide

theorem Image.firstFailure_eq (x : Image) (l : Nat) : x.firstFailure (some l) = (x.tests l).findIdx? (fun b => !b) := by
  unfold Image.tests
  rw [findIdx_seven]
  unfold Image.firstFailure lenOk
  simp only [Option.any_some, decide_eq_true_eq, Bool.not_eq_true', decide_eq_false_iff_not, not_and_or, Nat.not_le,
    Nat.mod_two_not_eq_zero]

theorem tests_pass {bs : List Bool} (h : bs.all id = true) : bs.findIdx? (fun b => !b) = none := by
  rw [List.findIdx?_eq_none_iff]
  intro b hb
  have := List.all_eq_true.1 h b hb
  simpa using this

/-! ### The settings (R90) -/

section
variable (ws : List Word) (working : Standard)

/-- Word k of the settings area as a number. -/
def areaOf (ws : List Word) (k : Nat) : Nat := (settingWord ws k).toNat

/-- The standard mode in the settings area. -/
def areaMode (ws : List Word) : StdMode :=
  match areaOf ws 10 / 2 ^ 0 % 4 with | 0 => .auto | 1 => .force .s625 | _ => .force .s525

/-- The limit of the H target: half a line of the standard that the load leaves (R90). -/
def areaHalf (ws : List Word) (working : Standard) : Int :=
  match areaMode ws with | .auto => working.half | .force d => d.half

theorem bits_field (w : Word) (b : Nat) : bits w b 2 = w.toNat / 2 ^ b % 4 := rfl

theorem stdModeOf_eq (n : Nat) : stdModeOf n = match n with | 0 => .auto | 1 => .force .s625 | _ => .force .s525 := by
  unfold stdModeOf
  rcases n with _ | _ | n <;> rfl

theorem policyOf_eq (n : Nat) : policyOf n = match n with | 0 => .auto | 1 => .named .a | _ => .named .b := by
  unfold policyOf
  rcases n with _ | _ | n <;> rfl

theorem testModeOf_eq (n : Nat) : testModeOf n =
    match n with | 0 => .normal | 1 => .internalLoop | 2 => .bypass | _ => .bars := by
  unfold testModeOf
  rcases n with _ | _ | _ | n <;> rfl

theorem outModeOf_eq (n : Nat) : outModeOf n = match n with | 0 => .cue | 1 => .lock | 2 => .keying | _ => .field := by
  unfold outModeOf
  rcases n with _ | _ | _ | n <;> rfl

theorem areaMode_eq : stdModeOf (bits (settingWord ws 10) 0 2) = areaMode ws := stdModeOf_eq _

theorem areaHalf_eq : (((areaMode ws).leaves working).half : Int) = areaHalf ws working := by
  unfold areaHalf StdMode.leaves
  cases areaMode ws <;> rfl

theorem clampI_eq {x lo hi : Int} (h : lo ≤ hi) : clampI x lo hi = max lo (min x hi) := by
  unfold clampI
  split
  · omega
  · split <;> omega

theorem getLsbD_eq (w : Word) (i : Nat) : w.getLsbD i = decide (w.toNat / 2 ^ i % 2 = 1) := by
  rw [BitVec.getLsbD, Nat.testBit_eq_decide_div_mod_eq]

/-- Clamping as R90 writes it. -/
def clamped (v lo hi : Nat) : Nat := max lo (min v hi)

theorem settingsOf_eq : settingsOf ws working =
    (let area : Nat → Nat := areaOf ws
     let low : Nat → Nat := fun k => area k % 256
     let high : Nat → Nat := fun k => area k / 256
     let field : Nat → Nat → Nat := fun k b => area k / 2 ^ b % 4
     let half : Int := areaHalf ws working
     { stdMode := areaMode ws
       policy := match field 10 2 with | 0 => .auto | 1 => .named .a | _ => .named .b
       dots := clamped (area 0) 256 2047
       hTarget := max (-half) (min (settingWord ws 1).toInt half)
       vOffset := clamped (low 9) 0 15, kp := clamped (low 2) 0 8, ki := clamped (high 2) 4 14
       slew := clamped (low 3) 1 64, captureTol := clamped (high 3) 1 255
       flyLimit := clamped (low 4) 12 63, holdLimit := clamped (high 4) 1 255
       coastFirst := clamped (area 5) 0 329, coastLast := clamped (area 6) 0 329
       stepMode := if area 10 / 16 % 2 = 1 then .slew else .snap
       vertMode := if area 10 / 32 % 2 = 1 then .slip else .jump
       lockMode := if area 10 / 64 % 2 = 1 then .line else .strict
       floor := clamped (low 7) 8 128, restart := decide (area 11 % 2 = 1)
       switchWin := clamped (high 7) 1 15, scanLines := clamped (low 8) 4 32
       pipeDelay := clamped (high 8) 0 63, faultMask := BitVec.ofNat 7 (area 12)
       protect := clamped (high 9) 0 4, guard := decide (area 11 / 2 % 2 = 1)
       lockdown := decide (area 11 / 4 % 2 = 1)
       out1Mode := match field 10 10 with | 0 => .cue | 1 => .lock | 2 => .keying | _ => .field
       out2Mode := match field 10 12 with | 0 => .cue | 1 => .lock | 2 => .keying | _ => .field
       fieldstat := decide (area 11 / 8 % 2 = 1)
       testMode := match field 10 8 with
         | 0 => .normal | 1 => .internalLoop | 2 => .bypass | _ => .bars }) := by
  have hhalf : -areaHalf ws working ≤ areaHalf ws working := by
    rw [← areaHalf_eq]
    cases (areaMode ws).leaves working <;> decide
  have hclamp (x lo hi : Nat) (h : lo ≤ hi) : clampN x lo hi = clamped x lo hi := clampN_eq x lo hi h
  have hmask : (settingWord ws 12).extractLsb' 0 7 = BitVec.ofNat 7 (areaOf ws 12) := by
    apply BitVec.eq_of_toNat_eq
    simp [areaOf]
  unfold settingsOf
  dsimp only
  rw [areaMode_eq, areaHalf_eq, clampI_eq hhalf, hmask]
  simp only [getLsbD_eq, bits_low, bits_high, bits_field, policyOf_eq, testModeOf_eq, outModeOf_eq, decide_eq_true_eq,
    hclamp _ 256 2047 (by decide), hclamp _ 0 15 (by decide), hclamp _ 0 8 (by decide), hclamp _ 4 14 (by decide),
    hclamp _ 1 64 (by decide), hclamp _ 1 255 (by decide), hclamp _ 12 63 (by decide), hclamp _ 0 329 (by decide),
    hclamp _ 8 128 (by decide), hclamp _ 1 15 (by decide), hclamp _ 4 32 (by decide), hclamp _ 0 63 (by decide),
    hclamp _ 0 4 (by decide), Nat.pow_zero, Nat.div_one]
  rfl

/-! ### The warnings of the settings (R90) -/

/-- The value of each setting as read, with its range, by its code (12.4). -/
def areaRanges (ws : List Word) : List (Nat × Nat × Nat) :=
  let area : Nat → Nat := areaOf ws
  let low : Nat → Nat := fun k => area k % 256
  let high : Nat → Nat := fun k => area k / 256
  let field : Nat → Nat → Nat := fun k b => area k / 2 ^ b % 4
  [ (area 0, 256, 2047), (0, 0, 0), (low 2, 0, 8), (high 2, 4, 14), (low 3, 1, 64), (high 3, 1, 255), (low 4, 12, 63)
  , (high 4, 1, 255), (area 5, 0, 329), (area 6, 0, 329), (low 7, 8, 128), (high 7, 1, 15), (low 8, 4, 32)
  , (high 8, 0, 63), (low 9, 0, 15), (high 9, 0, 4), (field 10 0, 0, 2), (field 10 2, 0, 2) ]

/-- WARN/SETTING of a setting clamped. -/
def clampWarning (tag : Word) (code : Nat) (r a : Word) : List Report := if r = a then [] else [repWarnSetting tag code r a]

/-- The warning of the setting of a code, if its value is out of range. -/
def areaWarning (tag : Word) (ws : List Word) (working : Standard) (code : Nat) : List Report :=
  let x := (areaRanges ws).getD code (0, 0, 0)
  let half := areaHalf ws working
  if code = 1 then
    clampWarning tag code (settingWord ws 1) (BitVec.ofInt 16 (max (-half) (min (settingWord ws 1).toInt half)))
  else clampWarning tag code (BitVec.ofNat 16 x.1) (BitVec.ofNat 16 (clamped x.1 x.2.1 x.2.2))

theorem filter_map_warning (tag : Word) (cs : List ClampedSetting) :
    (cs.filter (fun c => decide (c.read ≠ c.adopted))).map (fun c => repWarnSetting tag c.code c.read c.adopted) =
      cs.flatMap (fun c => clampWarning tag c.code c.read c.adopted) := by
  induction cs with
  | nil => rfl
  | cons c cs ih =>
    rw [List.flatMap_cons, ← ih, clampWarning]
    by_cases h : c.read = c.adopted <;> simp [h]

theorem settingWarnings_eq (tag : Word) :
    settingWarnings tag ws working = (List.range 18).flatMap (areaWarning tag ws working) := by
  have hclamp (code value lo hi : Nat) (h : lo ≤ hi) :
      numSetting code value lo hi = ⟨code, BitVec.ofNat 16 value, BitVec.ofNat 16 (clamped value lo hi)⟩ := by
    unfold numSetting
    rw [clampN_eq value lo hi h]
    rfl
  have hhalf : -areaHalf ws working ≤ areaHalf ws working := by
    rw [← areaHalf_eq]
    cases (areaMode ws).leaves working <;> decide
  have hlist : clampsOf ws working = (List.range 18).map (fun code =>
      let x := (areaRanges ws).getD code (0, 0, 0)
      let half := areaHalf ws working
      if code = 1 then
        (⟨code, settingWord ws 1, BitVec.ofInt 16 (max (-half) (min (settingWord ws 1).toInt half))⟩ : ClampedSetting)
      else ⟨code, BitVec.ofNat 16 x.1, BitVec.ofNat 16 (clamped x.1 x.2.1 x.2.2)⟩) := by
    unfold clampsOf
    dsimp only
    rw [areaMode_eq, areaHalf_eq, clampI_eq hhalf]
    simp only [bits_low, bits_high, bits_field, hclamp _ _ 256 2047 (by decide), hclamp _ _ 0 15 (by decide),
      hclamp _ _ 0 8 (by decide), hclamp _ _ 4 14 (by decide), hclamp _ _ 1 64 (by decide), hclamp _ _ 1 255 (by decide),
      hclamp _ _ 12 63 (by decide), hclamp _ _ 0 329 (by decide), hclamp _ _ 8 128 (by decide), hclamp _ _ 1 15 (by decide),
      hclamp _ _ 4 32 (by decide), hclamp _ _ 0 63 (by decide), hclamp _ _ 0 4 (by decide), hclamp _ _ 0 2 (by decide)]
    rfl
  unfold settingWarnings
  rw [filter_map_warning, hlist, List.flatMap_map]
  refine List.flatMap_congr fun code _ => ?_
  unfold areaWarning
  dsimp only
  by_cases h : code = 1
  · rw [if_pos h, if_pos h]
  · rw [if_neg h, if_neg h]

end

end Sys2Proof.Machine
end

section
/-!
PROOFS. The start-up load and the effects of a load, with O39.
-/

namespace Sys2Proof.Machine

/-! ### The start-up load (R81, R82) -/

theorem exec_startupLoadComplete {bus : BusTraffic} {l : Nat} {discard : Bool} {asked : Tick} {cut : Option Nat} {s : State}
    (h : s.mpt.service = some ⟨.startupLoad l, discard, asked, cut⟩) :
    let read := s.mem.readRun (linkAddrs l startupWords) bus
    exec (.startupLoadComplete bus) s = .next (
      if discard then { freePort s with mem := read.1 } else startupLoaded l read.2 { freePort s with mem := read.1 }) := by
  simp only [exec, execStartupLoadComplete, h]
  rfl

theorem startupWords_length (l : Nat) : (linkAddrs l startupWords).length = 38 := by simp [linkAddrs, startupWords]

/-- Word k of the settings area in the words read. -/
theorem settingWord_image (ws : List Word) {k : Nat} (h : k < 13) :
    settingWord ((ws.drop 18).take 13) k = ws.getD (18 + k) 0 := by
  simp [settingWord, List.getD_eq_getElem?_getD, List.getElem?_take, h]

section
variable {l : Nat} {ws : List Word} {s : State} {x : Image} {take put : Nat}

theorem startupLoaded_fails {test : Nat} (hx : startupImage ws = (x, take, put)) (h : x.firstFailure (some l) = some test) :
    startupLoaded l ws s = linkFault 0 false test s := by
  simp only [startupLoaded, hx, h]

theorem startupLoaded_passes (hx : startupImage ws = (x, take, put)) (h : x.firstFailure (some l) = none) :
    startupLoaded l ws s = adoptLoad 0 x take put s := by
  simp only [startupLoaded, hx, h]

end

/-! ### The adopted load by its blocks -/

section
variable (tag : Word) (x : Image) (take put : Nat) (s : State)

theorem adoptLoad_rpw :
    let t := adoptLoad tag x take put s
    t.rpw.base = x.rBase ∧ t.rpw.len = x.rLen ∧ t.rpw.put = indexWithin put x.rLen ∧ t.rpw.lastGet = x.get ∧
    t.rpw.trigger = triggerOf x.rLen x.repTrigger ∧ t.rpw.matchList = x.matchList ∧
    t.rpw.latched = (s.rpw.latchedIf (s.loadNames x)).latched := by
  intro t
  obtain ⟨-, -, -, ⟨p, g, hrpw⟩, -, -⟩ := adoptLoad_spec tag x take put s
  have hr : t.rpw = _ := hrpw
  rw [hr]
  unfold Rpw.latchedIf Rpw.described
  cases s.loadNames x <;> exact ⟨rfl, rfl, rfl, rfl, rfl, rfl, rfl⟩

/-- The effects of a load, on the machine with its settings adopted. -/
theorem loadEffects_handed :
    let v : State := { s with cue := { s.cue with settings := s.loadSettings x } }
    loadEffects s.cue.settings v = v.handed (s.loadNames x) (s.loadFront x).1 (s.loadFront x).2 :=
  loadEffects_front _ _

theorem handed_latched (on : Bool) (f : Front) (rs : List Report) :
    (s.handed on f rs).rpw.latched = (s.rpw.latchedIf on).latched := by
  have h := handed_sameButFifo s on f rs
  unfold Rpw.SameButFifo at h
  rw [h]

theorem loadFront_working : (s.loadFront x).1.rfe.working =
    s.front.workingOf s.cue.settings.stdMode (s.loadSettings x).stdMode := by
  unfold State.loadFront
  rw [Front.load_rfe]

theorem loadFront_target : (s.loadFront x).1.lll.hTarget = (s.loadSettings x).hTarget := by
  unfold State.loadFront
  rw [Front.load_lll]

theorem blocks_of_front {t : State} {f : Front} (h : t.front = f) :
    t.rfe = f.rfe ∧ t.lll = f.lll ∧ t.fal = f.fal ∧ t.tst = f.tst := by
  subst h
  exact ⟨rfl, rfl, rfl, rfl⟩

theorem workingOf_force {f : Front} {old new : StdMode} {d : Standard} (h : new = .force d) (hne : old ≠ .force d) :
    f.workingOf old new = d := by
  subst h
  exact if_neg (Ne.symm hne)

theorem takeCorrected_service (link take len : Nat) (m : Mpt) : (takeCorrected link take len m).service = m.service := by
  unfold takeCorrected
  split <;> rfl

theorem adoptLoad_service : (adoptLoad tag x take put s).mpt.service = s.mpt.service := by
  obtain ⟨-, -, ⟨q, hmpt⟩, -, -, -⟩ := adoptLoad_spec tag x take put s
  rw [hmpt, takeCorrected_service]

/-- A take at or above the length of a load's queue is corrected in memory (R84). -/
theorem adoptLoad_writes_take (h : x.qLen ≤ take) :
    .takeWrite (s.cue.link.toNat + 8) 0 ∈ (adoptLoad tag x take put s).mpt.cueQ := by
  obtain ⟨-, -, ⟨q, hmpt⟩, -, -, -⟩ := adoptLoad_spec tag x take put s
  rw [hmpt, takeCorrected, if_pos h]
  exact mem_takeQueue _ _

end

/-- Settles O39. -/
theorem startUpLoadValidates : Obligations.StartUpLoadValidates := by
  refine ⟨?_, ?_⟩
  · intro bus l discard asked cut s hs read word qBase qLen take rBase rLen put tests area low high field mode half target
      clamp
    let u : State := { freePort s with mem := read.1 }
    have hexec := exec_startupLoadComplete (bus := bus) hs
    have hlen : read.2.length = 38 := by
      rw [Memory.readRun_length, startupWords_length]
    have himage : startupImage read.2 = (imageOf (fun k => read.2.getD k 0) ((read.2.drop 18).take 13), take, put) :=
      startupImage_eq (by omega)
    obtain ⟨x, hx⟩ : ∃ x, x = imageOf (fun k => read.2.getD k 0) ((read.2.drop 18).take 13) := ⟨_, rfl⟩
    rw [← hx] at himage
    have htests : x.tests l = tests := by
      rw [hx]
      rfl
    have hfirst : x.firstFailure (some l) = tests.findIdx? (fun b => !b) := by rw [Image.firstFailure_eq, htests]
    cases discard with
    | true =>
      refine ⟨u, hexec, rfl, rfl, fun _ => rfl, fun _ hd => absurd hd (by decide), fun hd => absurd hd (by decide)⟩
    | false =>
      refine ⟨startupLoaded l read.2 u, hexec, (startupLoaded_frame _ _ _).2.2.1, ?_, fun hd => absurd hd (by decide),
        fun test _ htest => ?_, fun _ hpass => ?_⟩
      · cases hf : x.firstFailure (some l) with
        | some test =>
          rw [startupLoaded_fails himage hf]
          exact linkFault_idle_port 0 false test rfl
        | none =>
          rw [startupLoaded_passes himage hf]
          exact adoptLoad_service 0 x take put u
      · rw [startupLoaded_fails himage (hfirst.trans htest)]
        have hrpw := linkFault_rpw 0 false test u
        unfold Rpw.SameButFifo at hrpw
        rw [linkFault_cue, hrpw]
        refine ⟨rfl, rfl, rfl, rfl, rfl, rfl, rfl, rfl, rfl, rfl, rfl, rfl, rfl, fun h8 => ?_, fun hl => ?_, fun hl r hr => ?_⟩
        · exact report_then_abort (s := linkHalted u) h8
        · exact (no_abort_after_report (s := linkHalted u) hl).2
        · obtain ⟨hidle, hnone, hdrop⟩ := abort_after_report (s := linkHalted u)
            (rep := repHaltLink 0 false test u.cue.take) (why := .link) hl hr
          exact ⟨hidle, hnone, hdrop⟩
      · have hnone : x.firstFailure (some l) = none := hfirst.trans (tests_pass hpass)
        rw [startupLoaded_passes himage hnone]
        have hspec := adoptLoad_spec 0 x take put u
        have hwriter := adoptLoad_rpw 0 x take put u
        have htakes := adoptLoad_writes_take 0 x take put u
        have hrest := adoptLoad_frame 0 x take put u
        dsimp only at hspec hwriter
        generalize adoptLoad 0 x take put u = t at *
        obtain ⟨hfront, hcue, -, -, howes, hhands⟩ := hspec
        obtain ⟨hbase, hrlen, hrput, hget, htrig, hmatch, hlatched⟩ := hwriter
        obtain ⟨hrfe, hlll, hfal, htst⟩ : t.rfe = (u.loadFront x).1.rfe ∧ t.lll = (u.loadFront x).1.lll ∧
            t.fal = (u.loadFront x).1.fal ∧ t.tst = (u.loadFront x).1.tst := blocks_of_front hfront
        have hsettings : t.cue.settings = u.loadSettings x := by rw [hcue]
        let xs := (read.2.drop 18).take 13
        have hxs : x.settings = xs := by rw [hx]; rfl
        have harea (k : Nat) (hk : k < 13) : areaOf xs k = area k := congrArg BitVec.toNat (settingWord_image read.2 hk)
        have hone : settingWord xs 1 = read.2.getD 19 0 := settingWord_image read.2 (by decide)
        have hmode : areaMode xs = mode := by
          unfold areaMode
          rw [harea 10 (by decide)] <;> rfl
        have hhalf : areaHalf xs s.rfe.working = half := by
          unfold areaHalf
          rw [hmode] <;> rfl
        have hmatchList : x.matchList = #v[⟨read.2.getD 10 0, read.2.getD 11 0⟩, ⟨read.2.getD 12 0, read.2.getD 13 0⟩,
            ⟨read.2.getD 14 0, read.2.getD 15 0⟩, ⟨read.2.getD 16 0, read.2.getD 17 0⟩] := by
          rw [hx]
          rfl
        have hxq : x.qBase = qBase ∧ x.qLen = qLen ∧ x.rBase = rBase ∧ x.rLen = rLen ∧ x.get = word 8 ∧
            x.repTrigger = word 9 := by
          rw [hx]
          exact ⟨rfl, rfl, rfl, rfl, rfl, rfl⟩
        obtain ⟨hqBase, hqLen, hrBase, hrLen, hxget, hxtrig⟩ := hxq
        refine ⟨?_, ?_, ?_, ?_, ?_, ?_, fun hq => ?_, ?_, ?_, ?_, fun hp => ?_, ?_, ?_, fun k => ?_, ?_, ?_, fun d hd hne => ?_, ?_,
          ?_, ?_⟩
        · rw [hcue]
        · rw [hcue]
        · rw [hcue]
          rfl
        · rw [hcue]
          exact hqBase
        · rw [hcue]
          exact hqLen
        · rw [hcue, hqLen]
          rfl
        · exact htakes (hqLen.trans_le hq)
        · exact hbase.trans hrBase
        · exact hrlen.trans hrLen
        · rw [hrput, hrLen]
          rfl
        · exact howes (hrLen.trans_le hp)
        · exact hget.trans hxget
        · rw [htrig, hrLen, hxtrig]
          rfl
        · rw [hmatch, hmatchList]
          fin_cases k <;> rfl
        · rw [hsettings]
          show settingsOf x.settings s.rfe.working = _
          rw [hxs, settingsOf_eq]
          dsimp only
          rw [hmode, hhalf, hone, harea 0 (by decide), harea 2 (by decide), harea 3 (by decide), harea 4 (by decide),
            harea 5 (by decide), harea 6 (by decide), harea 7 (by decide), harea 8 (by decide), harea 9 (by decide),
            harea 10 (by decide), harea 11 (by decide), harea 12 (by decide)]
          rfl
        · rw [hcue]
        · rw [hsettings] at hd
          rw [hrfe, loadFront_working]
          exact workingOf_force hd hne
        · rw [hlll, hsettings]
          exact loadFront_target x u
        · intro index ranges setting warnings hgap hroom
          have hranges : areaRanges xs = ranges := by
            unfold areaRanges
            dsimp only
            rw [harea 0 (by decide), harea 2 (by decide), harea 3 (by decide), harea 4 (by decide),
              harea 5 (by decide), harea 6 (by decide), harea 7 (by decide), harea 8 (by decide), harea 9 (by decide),
              harea 10 (by decide)]
          have hall : warnings = loadWarnings 0 x take put s.rfe.working := by
            have hset : (List.range 18).flatMap setting = settingWarnings 0 x.settings s.rfe.working := by
              rw [hxs, settingWarnings_eq]
              refine List.flatMap_congr fun code _ => ?_
              unfold areaWarning
              rw [hranges, hhalf, hone]
              rfl
            unfold loadWarnings
            rw [← hset, hqLen, hrLen]
            rfl
          rw [hall] at hroom ⊢
          have hstart := hhands.starts hgap ((loadWarnings 0 x take put s.rfe.working).map (·.stamped s.tgn.stamp)) (by
            rw [List.map_append]
            exact List.prefix_append _ _) (by rw [List.length_map]; exact hroom)
          rw [List.map_map] at hstart
          exact hstart
        · intro handed
          have heff : handed = ({ s with cue := { s.cue with settings := s.loadSettings x } } : State).handed
              (s.loadNames x) (s.loadFront x).1 (s.loadFront x).2 := by
            rw [← loadEffects_handed x s]
            show loadEffects _ { s with cue := { s.cue with settings := t.cue.settings } } = _
            rw [hsettings]
            rfl
          obtain ⟨hr, hl, hf, ht⟩ := blocks_of_front (handed_front
            ({ s with cue := { s.cue with settings := s.loadSettings x } }) (s.loadNames x) (s.loadFront x).1 (s.loadFront x).2)
          have hcause := handed_latched ({ s with cue := { s.cue with settings := s.loadSettings x } }) (s.loadNames x)
            (s.loadFront x).1 (s.loadFront x).2
          have hrecords := handed_hands ({ s with cue := { s.cue with settings := s.loadSettings x } }) (s.loadNames x)
            (s.loadFront x).1 (s.loadFront x).2
          rw [← heff] at hr hl hf ht hcause hrecords
          refine ⟨hrfe.trans hr.symm, hlll.trans hl.symm, hfal.trans hf.symm, htst.trans ht.symm, hrest.1, hrest.2.1, hrest.2.2.1,
            hlatched.trans hcause.symm, fun hgap hroom => ?_⟩
          have hlen := hhands.fills hroom
          rw [List.map_append, List.length_append] at hlen
          have hsmall : u.rpw.fifo.length + (loadWarnings 0 x take put u.rfe.working).length + (u.loadFront x).2.length < 8 := by
            simp only [List.length_map] at hlen
            omega
          obtain ⟨-, hfifo⟩ := hhands.adds hgap (by simp only [List.length_map, List.length_append]; omega)
          obtain ⟨-, hhanded⟩ := hrecords.adds hgap (by
            rw [List.length_map]
            have : s.rpw.fifo.length + (loadWarnings 0 x take put u.rfe.working).length + (s.loadFront x).2.length < 8 := hsmall
            show s.rpw.fifo.length + _ ≤ 8
            omega)
          have hhanded' : handed.rpw.fifo = s.rpw.fifo ++
              ((s.loadFront x).2.map (·.stamped s.tgn.stamp)).map (fun y => ⟨y, none⟩) := hhanded
          refine ⟨hrecords.keeps, ?_⟩
          rw [hhanded', List.drop_left, hfifo, List.map_append, List.map_append, ← List.append_assoc]
          exact List.suffix_append _ _
  intro old s t new forced named entry exit_ notice restarted cleared working
  have hforced : s.front.forces old.stdMode new.stdMode = forced := rfl
  have hnamed : s.front.names old.policy new.policy = named := rfl
  have hturns : s.front.turns new.testMode = true ↔ entry ∨ exit_ := Front.turns_iff
  have hnotice : s.front.notice old new = true ↔ notice := by
    rw [Front.notice, Bool.or_eq_true, hturns, hnamed]
  let r := s.front.load old new s.tgn.stamp
  have ht : t = s.handed named r.1 r.2 := by
    rw [← hnamed]
    exact loadEffects_front old s
  have hstate : t = { s with rfe := r.1.rfe, lll := r.1.lll, fal := r.1.fal, tst := r.1.tst, rpw := t.rpw } := by
    rw [ht]
    exact handed_eq _ _ _ _
  have hrfe : t.rfe = r.1.rfe := by rw [hstate]
  have hlll : t.lll = { (if notice then (s.front.lllForced old new).switched else s.front.lllForced old new) with
      hTarget := new.hTarget } := by
    rw [hstate]
    exact (Front.load_lll old new _ _).trans (by simp only [hnotice])
  have hfal : t.fal = if forced = true ∨ notice then s.fal.lost else s.fal.offset old.vOffset new.vOffset := by
    rw [hstate]
    exact (Front.load_fal old new _ _).trans (by simp only [hnotice]; rfl)
  have htst : t.tst = s.front.tstOf new.testMode s.tgn.stamp := by
    rw [hstate]
    exact congrArg (fun x => x.1.tst) (s.front.load_eq old new s.tgn.stamp)
  have hrpw : t.rpw = _ := (congrArg State.rpw ht).trans (handed_rpw _ _ _ _)
  have hnoturn : new.testMode = s.tst.mode → s.front.tstOf new.testMode s.tgn.stamp = s.tst := fun h => if_pos h
  refine ⟨?_, ?_, fun hf hn => ?_, fun hf hn => ?_, fun hf => ?_, fun h => ?_, fun hf hn => ⟨fun hv hl => ?_, fun h => ?_⟩,
    fun h => htst.trans (hnoturn h), fun h => ?_, fun h => ?_, fun hne h1 h2 => ?_, fun h => ?_, fun h => ?_,
    fun hgap hroom => ?_⟩
  · rw [hstate]
    dsimp only
    rw [hrpw]
  · rw [hrfe, Front.load_rfe]
    show _ = ({ s.rfe with
      inA := if new.restart = true then s.rfe.inA.restart else s.rfe.inA
      inB := if new.restart = true then s.rfe.inB.restart else s.rfe.inB
      working := s.front.workingOf old.stdMode new.stdMode
      active := s.front.activeOf old.policy new.policy
      absence := if new.policy = .auto ∧ old.policy ≠ .auto then 0 else s.rfe.absence
      differ := if cleared then 0 else s.rfe.differ
      warned := if cleared then false else s.rfe.warned } : Rfe)
    simp only [hnamed]
    rfl
  · have hkept : s.front.lllForced old new = s.lll := if_neg hf
    rw [hlll, if_neg hn, hkept]
  · have hkept : s.front.lllForced old new = s.lll := if_neg hf
    rw [hlll, if_pos hn, hkept]
    exact Lll.switched_aims _ _
  · have hset : s.front.lllForced old new = (s.lll.standard working).1 := if_pos hf
    have hfree : (s.lll.standard working).1.switched = (s.lll.standard working).1 := Lll.switched_free rfl
    rw [hlll, hset, hfree, ite_self]
    exact ⟨rfl, rfl, rfl⟩
  · rw [hfal, if_pos h]
    rfl
  · rw [hfal, if_neg fun e => e.elim hf hn]
    exact if_pos ⟨hv, hl⟩
  · rw [hfal, if_neg fun e => e.elim hf hn]
    exact if_neg fun e => h.elim e.1 (fun hno => hno e.2)
  · rw [htst]
    exact tstOf_entry new.testMode s.tgn.stamp s.front h
  · have hmode : ¬new.testMode = s.tst.mode := fun e => h.1 (e.trans h.2)
    exact htst.trans ((if_neg hmode).trans ((if_neg h.1).trans (if_pos h.2)))
  · have hin : ¬new.testMode = .internalLoop := fun e => h1 ⟨e, fun e' => hne (e.trans e'.symm)⟩
    have hout : ¬s.tst.mode = .internalLoop := fun e => h2 ⟨hin, e⟩
    exact htst.trans ((if_neg hne).trans ((if_neg hin).trans (if_neg hout)))
  · rw [hrpw]
    exact ⟨if_pos h, if_pos h⟩
  · rw [hrpw]
    exact ⟨if_neg h, if_neg h⟩
  · have hlen : r.2.length ≤ 4 := Front.load_length _ _ _ _
    obtain ⟨-, hfifo⟩ := handed_adds s named r.1 r.2 hgap (by rw [List.length_map]; omega)
    rw [ht]
    refine ⟨_, hfifo, fun q hq => ?_, ?_⟩
    · rw [List.map_map] at hq
      obtain ⟨x, hx, rfl⟩ := List.mem_map.1 hq
      exact ⟨rfl, Front.load_tags _ _ _ _ x hx, rfl⟩
    · have hkeys : r.2.map (·.key) = s.front.loadKeys old new := Front.load_keys _ _ _ _
      rw [List.map_map, List.map_map]
      refine (hkeys : _ = _).trans ?_
      unfold Front.loadKeys
      simp only [hturns]
      rfl

end Sys2Proof.Machine
end

section
/-!
PROOFS. SELECT, SETTINGS, WAITLOCK and SNAPSHOT cues and late copies (R83, R113, R116, R122, R123, R188, R189).
-/

namespace Sys2Proof.Machine

section
variable {isIdle : Bool} {c : Copy} {s : State}

/-! ### A late copy (R113) -/

/-- A kind's effect does not look at the standing of its copy, but for the copy that a wait keeps. -/
theorem kindEffect_standing {k : CueKind} (h : k ≠ .waitlock) (st : Standing) :
    kindEffect isIdle k { c with standing := st } s = kindEffect isIdle k c s := by
  cases k <;> first | exact absurd rfl h | rfl

theorem cueKind_waitlock (n : Nat) : cueKind n = some .waitlock ↔ n = 15 := by
  constructor
  · intro h
    have hsmall : ∀ k < 18, cueKind k = some .waitlock → k = 15 := by decide
    rcases Nat.lt_or_ge n 18 with hn | hn
    · exact hsmall n hn h
    · simp [cueKind, hn] at h
  · rintro rfl
    rfl

theorem judgeCopy_late_run {k : CueKind} (h : c.words.badField = none) (hk : cueKind c.words.kind = some k)
    (hs : c.standing = .past) (hm : s.cue.masks.getLsbD 1 = true) (hr : c.words.lateRun = true) :
    judgeCopy isIdle c s = kindEffect isIdle k c (produce (repLate c.words) s) := by
  rw [judgeCopy_past h hk hs, onFault_masked (k := .late) (s := s) hm, hr]
  rfl

/-! ### SELECT (R122) -/

/-- The policy of a SELECT cue. -/
def selectPolicy (w : Word) : Policy := if w = 0 then .auto else if w = 1 then .named .a else .named .b

theorem policyOf_word (w : Word) : policyOf w.toNat = selectPolicy w := by
  unfold policyOf selectPolicy
  simp only [← BitVec.toNat_inj]
  rfl

/-- The machine once a SELECT cue is retired, before its policy reaches the front end. -/
def selected (isIdle : Bool) (c : Copy) (s : State) : State :=
  let s1 := { s with cue := { s.cue with settings := { s.cue.settings with policy := selectPolicy c.words.w4 } } }
  reportDone c.words (retire isIdle s1)

theorem cueSelect_eq (hlock : s.lockdownActive = false) : cueSelect isIdle c s =
    (policyArrival s.cue.settings.policy (selectPolicy c.words.w4) (selected isIdle c s), .retired) := by
  unfold cueSelect lockdownCheck selected
  rw [hlock, if_neg Bool.false_ne_true, policyOf_word]

theorem selected_spec :
    let t := selected isIdle c s
    t.cue.settings = { s.cue.settings with policy := selectPolicy c.words.w4 } ∧ t.cue.take = s.takePast isIdle ∧
    t.front = s.front ∧ t.tgn = s.tgn ∧ s.rpw.Adds t.rpw (c.words.doneReports.map (·.stamped s.tgn.stamp)) := by
  intro t
  have h := performed_eq isIdle c.words
    { s with cue := { s.cue with settings := { s.cue.settings with policy := selectPolicy c.words.w4 } } }
  have ht : t = _ := h
  have hadds : s.rpw.Adds t.rpw _ := performed_adds isIdle c.words
    { s with cue := { s.cue with settings := { s.cue.settings with policy := selectPolicy c.words.w4 } } }
  refine ⟨?_, ?_, ?_, ?_, hadds⟩
  · rw [ht]
    rfl
  · rw [ht]
    cases isIdle <;> rfl
  · rw [ht]
    rfl
  · rw [ht]

theorem doneReports_stamped (c : CueWords) (g : Stamp) : c.doneReports.map (·.stamped g) =
    if c.w0.getLsbD 10 then
      [{ w0 := 0x0404#16, stamp := g, tag := c.w3, w4 := BitVec.ofNat 16 c.kind, w5 := c.w1
         w6 := BitVec.ofNat 16 (c.w2.toNat % 256) }]
    else [] := by
  unfold CueWords.doneReports CueWords.reportDone
  split
  · rw [repDone_eq]
    rfl
  · rfl

theorem doneReports_length (c : CueWords) : c.doneReports.length ≤ 1 := by
  unfold CueWords.doneReports
  split <;> simp

/-! ### WAITLOCK (R116) -/

/-- The condition of a WAITLOCK cue. -/
def waitCond (w : Word) : WaitCond := if w = 0 then .line else .field

theorem condMet_iff (w : WaitCond) : s.condMet w = true ↔
    (s.lll.loop = .track ∨ s.lll.loop = .coast) ∧ (w = .field → s.fal.field = .lock) := by
  cases w
  · simp [State.condMet, Lll.locked_iff]
  · simp [State.condMet, State.strictLock_iff]

theorem cueWaitlock_eq : cueWaitlock isIdle c s =
    if s.condMet (waitCond c.words.w4) then (s, .performed)
    else ({ s with cue := { s.cue with
      engine := .waiting, wait := some ⟨c, waitCond c.words.w4, c.words.w5.toNat, 0, isIdle⟩ } }, .waiting) := by
  have hcond : (if c.words.w4.toNat = 0 then WaitCond.line else .field) = waitCond c.words.w4 := by
    unfold waitCond
    simp only [← BitVec.toNat_inj]
    rfl
  unfold cueWaitlock
  rw [hcond]

theorem cueWaitlock_outcome (st : Standing) :
    (cueWaitlock isIdle { c with standing := st } s).2 = (cueWaitlock isIdle c s).2 := by
  simp only [cueWaitlock_eq]
  split <;> rfl

/-! ### SNAPSHOT (R188, R189) -/

/-- A figure of a slot's window, 0 of an EMPTY slot. -/
def Stack.figure (st : Stack) (f : Window → Nat) (i : Fin 8) : Nat :=
  match st.slots[i] with | .empty => 0 | .parked w => f w | .live w => f w

theorem Stack.figures_get (st : Stack) (f : Window → Nat) (i : Fin 8) : (st.figures f)[i] = st.figure f i := by
  unfold Stack.figures Stack.figure
  simp only [Fin.getElem_fin, Vector.getElem_ofFn, Fin.eta]
  cases st.slots[i.val] <;> rfl

theorem Stack.figures_getElem (st : Stack) (f : Window → Nat) (i : Nat) (h : i < 8) :
    (st.figures f)[i] = st.figure f ⟨i, h⟩ := st.figures_get f ⟨i, h⟩

/-- Two figures of the stack in one word, with a further bit (R188). -/
def Stack.pair (st : Stack) (f : Window → Nat) (low high : Fin 8) (bit : Nat) : Word :=
  BitVec.ofNat 16 (st.figure f low + 256 * st.figure f high + 32768 * (bit % 2))

/-- The three records of a SNAPSHOT cue (R188). -/
def snapshotReports (c : CueWords) (s : State) : List Report :=
  let st := s.wsk.stack.stepAll s.tgn.stamp
  let loader := s.kbl.loader.code
  let bank := loaderBank s.kbl
  [ { w0 := 0x0A01#16, tag := c.w3, w4 := BitVec.ofNat 16 s.cue.take, w5 := BitVec.ofNat 16 s.cue.lastFill
      w6 := tagsWord st.slots
      w7 := BitVec.ofNat 16 (s.cue.masks.toNat + 256 * s.lll.loop.code + 2048 * s.fal.field.code
        + 8192 * inputCode s.rfe.active + 16384 * s.rfe.working.code + 32768 * bitOf s.lockdownActive) }
  , { w0 := 0x0A02#16, tag := c.w3, w4 := st.pair Window.fade 0 1 st.top.val, w5 := st.pair Window.fade 2 3 (st.top.val / 2)
      w6 := st.pair Window.fade 4 5 (st.top.val / 4), w7 := st.pair Window.fade 6 7 0 }
  , { w0 := 0x0A03#16, tag := c.w3, w4 := st.pair Window.target 0 1 loader, w5 := st.pair Window.target 2 3 (loader / 2)
      w6 := st.pair Window.target 4 5 bank, w7 := st.pair Window.target 6 7 (bank / 2) } ]

theorem cueSnapshot_eq : cueSnapshot c s =
    (let t := produceAll (snapshotReports c.words s) s
     if c.words.w4 = 1 then { t with cue := { t.cue with masks := 0x7f#7 } } else t, .performed) := by
  have hone : c.words.w4.toNat = 1 ↔ c.words.w4 = 1 := by
    rw [← BitVec.toNat_inj]
    rfl
  unfold cueSnapshot
  simp only [hone, repSnapA, repSnapB, repSnapC, Stack.figures_getElem]
  rfl

/-- The tag of a slot of the stack: EMPTY, PARKED or LIVE. -/
def slotTag (o : Option Slot) : Nat :=
  match o with
  | some (.parked _) => 1
  | some (.live _) => 2
  | _ => 0

theorem slotTag_some (x : Slot) : slotTag (some x) = x.code := by cases x <;> rfl

theorem slots_eq (v : Vector Slot 8) : v = #v[v[0], v[1], v[2], v[3], v[4], v[5], v[6], v[7]] := by
  refine Vector.ext fun i hi => ?_
  interval_cases i <;> rfl

/-- The tags of the stack, two bits a slot. -/
theorem tagsWord_eq (slots : Vector Slot 8) :
    tagsWord slots = BitVec.ofNat 16 (((List.range 8).map (fun i => 4 ^ i * slotTag slots[i]?)).sum) := by
  rw [slots_eq slots]
  generalize slots[0] = a0, slots[1] = a1, slots[2] = a2, slots[3] = a3, slots[4] = a4, slots[5] = a5, slots[6] = a6,
    slots[7] = a7
  have hsum : (List.range 8).map (fun i => 4 ^ i * slotTag (#v[a0, a1, a2, a3, a4, a5, a6, a7])[i]?) =
      [4 ^ 0 * slotTag (some a0), 4 ^ 1 * slotTag (some a1), 4 ^ 2 * slotTag (some a2), 4 ^ 3 * slotTag (some a3),
        4 ^ 4 * slotTag (some a4), 4 ^ 5 * slotTag (some a5), 4 ^ 6 * slotTag (some a6), 4 ^ 7 * slotTag (some a7)] := rfl
  have hlist : (#v[a0, a1, a2, a3, a4, a5, a6, a7]).toList = [a0, a1, a2, a3, a4, a5, a6, a7] := rfl
  rw [hsum]
  unfold tagsWord wordOfNat
  rw [hlist]
  simp only [slotTag_some, List.foldr_cons, List.foldr_nil, List.sum_cons, List.sum_nil]
  exact congrArg (BitVec.ofNat 16) (by omega)

end

end Sys2Proof.Machine
end

section
/-!
PROOFS. The SETTINGS cue, and O51.
-/

namespace Sys2Proof.Machine

section
variable {isIdle : Bool} {c : Copy} {s : State} {im : Image}

/-! ### SETTINGS (R83, R123) -/

theorem cueSettings_fails {test : Nat} (hlock : s.lockdownActive = false) (him : c.image = some im)
    (h : im.firstFailure none = some test) : cueSettings isIdle c s = (linkFault c.words.tag true test s, .halted) := by
  unfold cueSettings lockdownCheck
  rw [hlock, if_neg Bool.false_ne_true]
  simp only [him, h]

/-- Take past a SETTINGS cue, its take write still to come. -/
def State.advanced (isIdle : Bool) (s : State) : State := if isIdle then s else advanceTake s

theorem advanced_eq (isIdle : Bool) (s : State) : s.advanced isIdle = { s with
    cue := s.cuePast isIdle
    rpw := { s.rpw with latched := s.latchedPast isIdle, seen := (s.advanced isIdle).rpw.seen } } := by
  cases isIdle with
  | true => rfl
  | false => exact advanceTake_spec s

/-- A SETTINGS cue whose image passes its tests. -/
def settingsAdopted (isIdle : Bool) (c : Copy) (im : Image) (s : State) : State :=
  let s1 := s.advanced isIdle
  let s2 := adoptLoad c.words.tag im s1.cue.take s1.rpw.put s1
  reportDone c.words (if isIdle then s2 else writeTake s2)

theorem cueSettings_adopts (hlock : s.lockdownActive = false) (him : c.image = some im)
    (h : im.firstFailure none = none) : cueSettings isIdle c s = (settingsAdopted isIdle c im s, .retired) := by
  unfold cueSettings lockdownCheck
  rw [hlock, if_neg Bool.false_ne_true]
  simp only [him, h]
  rfl

theorem writeTake_eq (s : State) : writeTake s = { s with mpt := (writeTake s).mpt } := by
  by_cases h : s.mpt.service = none
  · obtain ⟨q, rest, hq⟩ := List.exists_cons_of_ne_nil (takeQueue_ne_nil
      (.takeWrite (s.cue.link.toNat + 8) s.cue.take) s.mpt.cueQ)
    rw [writeTake_idle h hq]
  · rw [writeTake_busy h]

/-- What the adoption of a SETTINGS cue's image leaves (R83, R84, R90, R91, R123). -/
theorem settingsAdopted_spec (isIdle : Bool) (c : Copy) (im : Image) (s : State) :
    let t := settingsAdopted isIdle c im s
    t.front = (s.loadFront im).1 ∧
    t.cue = { s.cuePast isIdle with
      qBase := im.qBase, qLen := im.qLen, take := indexWithin (s.takePast isIdle) im.qLen, settings := s.loadSettings im
      linkValid := true, startup := false, masks := (s.loadSettings im).faultMask } ∧
    (t.tgn = s.tgn ∧ t.wsk = s.wsk ∧ t.kbl = s.kbl) ∧
    (t.rpw.base = im.rBase ∧ t.rpw.len = im.rLen ∧ t.rpw.put = indexWithin s.rpw.put im.rLen ∧ t.rpw.lastGet = im.get ∧
      t.rpw.matchList = im.matchList) ∧
    s.rpw.Hands t.rpw ((loadWarnings c.words.tag im (s.takePast isIdle) s.rpw.put s.rfe.working ++
      (s.loadFront im).2 ++ c.words.doneReports).map (·.stamped s.tgn.stamp)) := by
  intro t
  let a := s.advanced isIdle
  have ha : a = { s with
      cue := s.cuePast isIdle, rpw := { s.rpw with latched := s.latchedPast isIdle, seen := a.rpw.seen } } :=
    advanced_eq isIdle s
  have htake : a.cue.take = s.takePast isIdle := by rw [ha]; rfl
  have hput : a.rpw.put = s.rpw.put := by rw [ha]
  have hafront : a.front = s.front := by rw [ha]; rfl
  have hatgn : a.tgn = s.tgn := by rw [ha]
  have hasettings : a.cue.settings = s.cue.settings := by rw [ha]; rfl
  have hwork : a.rfe.working = s.rfe.working := congrArg (fun f => f.rfe.working) hafront
  have hload : a.loadSettings im = s.loadSettings im := by
    unfold State.loadSettings
    rw [hwork]
  have hloadFront : a.loadFront im = s.loadFront im := by
    unfold State.loadFront
    rw [hafront, hasettings, hload, hatgn]
  have hspec := adoptLoad_spec c.words.tag im a.cue.take a.rpw.put a
  have hwriter := adoptLoad_rpw c.words.tag im a.cue.take a.rpw.put a
  have hframe := adoptLoad_frame c.words.tag im a.cue.take a.rpw.put a
  have ht : t = reportDone c.words (if isIdle then adoptLoad c.words.tag im a.cue.take a.rpw.put a
      else writeTake (adoptLoad c.words.tag im a.cue.take a.rpw.put a)) := rfl
  dsimp only at hspec hwriter
  generalize adoptLoad c.words.tag im a.cue.take a.rpw.put a = b at *
  obtain ⟨hfront, hcue, -, -, -, hhands⟩ := hspec
  obtain ⟨hbase, hlen, hrput, hget, -, hmatch, -⟩ := hwriter
  obtain ⟨m, hm⟩ : ∃ m, (if isIdle then b else writeTake b) = { b with mpt := m } := by
    cases isIdle with
    | true => exact ⟨b.mpt, rfl⟩
    | false => exact ⟨(writeTake b).mpt, writeTake_eq b⟩
  let u : State := { b with mpt := m }
  rw [hm, reportDone_eq] at ht
  have hsame : b.rpw.SameButFifo t.rpw := by
    rw [ht]
    exact produceAll_sameButFifo c.words.doneReports u
  unfold Rpw.SameButFifo at hsame
  have htgn : t.tgn = s.tgn ∧ t.wsk = s.wsk ∧ t.kbl = s.kbl := by
    rw [ht, produceAll_eq]
    exact ⟨hframe.1.trans hatgn, hframe.2.1.trans (by rw [ha]), hframe.2.2.1.trans (by rw [ha])⟩
  refine ⟨?_, ?_, htgn, ?_, ?_⟩
  · rw [ht, produceAll_front]
    exact hfront.trans (congrArg Prod.fst hloadFront)
  · have hc : t.cue = b.cue := by rw [ht, produceAll_eq]
    rw [hc, hcue, htake, hload]
    rw [ha]
  · rw [hsame]
    exact ⟨hbase, hlen, hrput.trans (by rw [hput]), hget, hmatch⟩
  · have hstart : s.rpw.Hands a.rpw [] := by
      rw [ha]
      exact .of_eq rfl rfl
    have hbtgn : b.tgn = s.tgn := hframe.1.trans hatgn
    have hdone : b.rpw.Hands t.rpw (c.words.doneReports.map (·.stamped s.tgn.stamp)) := by
      rw [ht, ← hbtgn]
      exact produceAll_hands c.words.doneReports u
    have hall := (hstart.trans hhands).trans hdone
    rw [List.nil_append, htake, hput, hwork, hloadFront, hatgn, ← List.map_append] at hall
    exact hall

end

theorem Rpw.Latched.inputChange_bit {r : Rpw} (h : r.Latched .inputChange) : r.latched.getLsbD 7 = true := by
  have hbit := congrArg (fun b : BitVec 8 => b.getLsbD 7) h
  simpa [Cause.bit] using hbit

/-- With no gap open the report bears none, whatever is aborted behind it. -/
theorem report_then_abort_none {s : State} {rep : Report} {why : AbortReason} (h : s.rpw.fifo.length + 1 ≤ 8)
    (hgap : s.rpw.openGap = 0) :
    (abortLoading why (produce rep s)).rpw.fifo[s.rpw.fifo.length]? = some ⟨rep.stamped s.tgn.stamp, none⟩ := by
  obtain ⟨-, hfifo⟩ := produce_adds rep s hgap h
  obtain ⟨tail, htail⟩ := abortLoading_prefix why (produce rep s)
  rw [← htail, hfifo]
  simp

theorem Lll.switched_holdover {l : Lll} (h : l.loop ≠ .free) : l.switched.loop = .holdover := by
  unfold Lll.switched
  rw [if_neg h]
  split
  · next h' => exact h'
  · rfl

theorem indexWarning_stamped (tag : Word) (which v len : Nat) (g : Stamp) :
    (indexWarning tag which v len).map (·.stamped g) =
      if len ≤ v then
        [{ w0 := 0x0902#16, stamp := g, tag := tag, w4 := BitVec.ofNat 16 which, w5 := BitVec.ofNat 16 v
           w6 := BitVec.ofNat 16 len }]
      else [] := by
  unfold indexWarning
  split <;> rfl

theorem inputCode_bit (i : Input) : 8192 * inputCode i = if decide (i = .b) then 2 ^ 13 else 0 := by cases i <;> rfl

theorem standardCode_bit (d : Standard) : 16384 * d.code = if decide (d = .s525) then 2 ^ 14 else 0 := by cases d <;> rfl

theorem bitOf_bit (b : Bool) : 32768 * bitOf b = if b then 2 ^ 15 else 0 := by cases b <;> rfl

/-- Settles O51. -/
theorem scheduleCuesAct : Obligations.ScheduleCuesAct := by
  intro isIdle c s hbad k r moved room done
  obtain ⟨kind, hkind⟩ := kind_of_badField_none hbad
  have hdone : c.words.doneReports.map (·.stamped s.tgn.stamp) = done := doneReports_stamped _ _
  have hjudge {kd : CueKind} {n : Nat} (hs : c.standing ≠ .past) (hn : k = n) (hc : cueKind n = some kd) :
      r = kindEffect isIdle kd c s :=
    judgeCopy_onTime hbad ((congrArg cueKind hn).trans hc) hs
  refine ⟨?_, fun hs => ⟨fun hk hlock => ?_, fun im hk him hlock => ⟨fun test htest => ?_, fun hpass => ?_⟩, fun hk => ?_,
    fun hk => ?_⟩⟩
  · intro hs hm hr late onTime
    have hlate : r = kindEffect isIdle kind c late := by
      show judgeCopy isIdle c s = _
      rw [judgeCopy_late_run hbad hkind hs hm hr, repLate, repCue_eq]
    have hon : onTime = kindEffect isIdle kind { c with standing := .due } late :=
      judgeCopy_onTime (c := { c with standing := .due }) hbad hkind (by simp)
    by_cases hw : kind = .waitlock
    · subst hw
      refine ⟨?_, fun hk => absurd ((cueKind_waitlock _).1 hkind) hk⟩
      rw [hlate, hon]
      exact (cueWaitlock_outcome .due).symm
    · have heq : r = onTime := hlate.trans ((kindEffect_standing hw .due).symm.trans hon.symm)
      rw [heq]
      exact ⟨rfl, fun _ => rfl⟩
  · intro new
    have hr : r = (policyArrival s.cue.settings.policy new (selected isIdle c s), .retired) :=
      (hjudge hs hk rfl).trans (cueSelect_eq (lockdown_inactive hlock))
    obtain ⟨hset, htake, hfront, htgn, hadds⟩ := selected_spec (isIdle := isIdle) (c := c) (s := s)
    obtain ⟨hsame, hauto, hnamed⟩ := policyArrival_spec s.cue.settings.policy new (selected isIdle c s)
    rw [hr]
    dsimp only
    generalize selected isIdle c s = p at *
    obtain ⟨hrfe, hlll, hfal, -⟩ := blocks_of_front hfront
    have hcue : (policyArrival s.cue.settings.policy new p).cue = p.cue := (policyArrival_frame _ _ _).2.2.1
    have hroom1 : room 1 → p.rpw.openGap = 0 ∧ p.rpw.fifo = s.rpw.fifo ++ done.map (fun q => ⟨q, none⟩) := by
      intro hroom
      have hlen := doneReports_length c.words
      rw [← hdone]
      exact hadds hroom.2 (by rw [List.length_map]; have := hroom.1; omega)
    refine ⟨rfl, by rw [hcue]; exact hset, by rw [hcue]; exact htake, fun hn => ?_, fun ha hn => ?_, fun i hi hn => ?_⟩
    · rw [hsame hn]
      exact ⟨hrfe, fun hroom => (hroom1 hroom).2⟩
    · rw [hauto ha hn]
      refine ⟨?_, hlll, hfal⟩
      show ({ p.rfe with absence := 0 } : Rfe) = _
      rw [hrfe]
      rfl
    · rw [hnamed i hi hn, hrfe]
      by_cases hact : s.rfe.active = i
      · have hact' : s.front.rfe.active = i := hact
        rw [if_pos hact']
        exact ⟨(congrArg Rfe.active hrfe).trans hact, fun _ => hrfe, fun hne => absurd hact hne⟩
      · have hact' : ¬s.front.rfe.active = i := hact
        rw [if_neg hact']
        have hlatched := changeActive_latched i .select p
        have hcr : (changeActive i .select p).rfe = _ := changeActive_rfe i .select p
        have hcl : (changeActive i .select p).lll = _ := changeActive_lll i .select p
        have hcf : (changeActive i .select p).fal = _ := changeActive_fal i .select p
        refine ⟨by rw [hcr], fun h => absurd h hact, fun _ => ⟨?_, by rw [hcr], by rw [hcf]; rfl, fun hloop => ?_, fun hroom => ?_⟩⟩
        · exact hlatched.inputChange_bit
        · rw [hcl, hlll, Lll.switch_fst]
          exact Lll.switched_holdover hloop
        · obtain ⟨hgap, hfifo⟩ := hroom1 ⟨by have := hroom.1; omega, hroom.2⟩
          have hsw := length_le_of_words (switch_words p.lll)
          have hlost := length_le_of_words (enterSeek_words p.fal .switch)
          have hdonelen : done.length ≤ 1 := by
            rw [← hdone, List.length_map]
            exact doneReports_length _
          have hlen : p.rpw.fifo.length = s.rpw.fifo.length + done.length := by
            rw [hfifo, List.length_append, List.length_map]
          obtain ⟨-, hall⟩ := changeActive_adds i .select p hgap (by
            simp only [List.length_cons, List.length_map, List.length_append]
            have := hroom.1
            omega)
          refine ⟨_, hall.trans (by rw [hfifo]), ?_⟩
          rfl
  · have hr : r = (linkFault c.words.tag true test s, .halted) :=
      (hjudge hs hk rfl).trans (cueSettings_fails (lockdown_inactive hlock) him htest)
    have hrpw := linkFault_rpw c.words.tag true test s
    unfold Rpw.SameButFifo at hrpw
    have hcue := linkFault_cue c.words.tag true test s
    rw [hr]
    dsimp only
    rw [hcue]
    refine ⟨rfl, rfl, rfl, rfl, rfl, rfl, ?_, fun hroom => ?_, fun hl => ?_, fun hl l hload => ?_⟩
    · rw [hrpw]
      simp [Cause.bit]
    · exact report_then_abort_none (s := linkHalted s) hroom.1 hroom.2
    · exact (no_abort_after_report (s := linkHalted s) hl).2
    · obtain ⟨hidle, hnone, hdrop⟩ := abort_after_report (s := linkHalted s)
        (rep := repHaltLink c.words.tag true test s.cue.take) (why := .link) hl hload
      exact ⟨hidle, hnone, fun hroom => hdrop (by have := hroom.1; show s.rpw.fifo.length < 7; omega)⟩
  · have hr : r = (settingsAdopted isIdle c im s, .retired) :=
      (hjudge hs hk rfl).trans (cueSettings_adopts (lockdown_inactive hlock) him hpass)
    have hspec := settingsAdopted_spec isIdle c im s
    dsimp only at hspec
    generalize settingsAdopted isIdle c im s = t at *
    have hstate : r.1 = t := by rw [hr]
    have hout : r.2 = .retired := by rw [hr]
    rw [hstate, hout]
    obtain ⟨hfront, hcue, ⟨htgn, hwsk, hkbl⟩, ⟨hbase, hlen, hput, hget, hmatch⟩, hhands⟩ := hspec
    obtain ⟨hrfe, hlll, hfal, htst⟩ := blocks_of_front hfront
    have hsettings : t.cue.settings = s.loadSettings im := by rw [hcue]
    refine ⟨rfl, by rw [hcue]; rfl, by rw [hcue], hsettings, by rw [hcue], by rw [hcue], by rw [hcue], by rw [hcue]; rfl, hbase,
      hlen, hget, hput, hmatch, ?_⟩
    intro handed index warnings
    have heff : handed = ({ s with cue := { s.cue with settings := s.loadSettings im } } : State).handed
        (s.loadNames im) (s.loadFront im).1 (s.loadFront im).2 := by
      rw [← loadEffects_handed im s]
      show loadEffects _ { s with cue := { s.cue with settings := t.cue.settings } } = _
      rw [hsettings]
    obtain ⟨hr, hl, hf, ht⟩ := blocks_of_front (handed_front
      ({ s with cue := { s.cue with settings := s.loadSettings im } }) (s.loadNames im) (s.loadFront im).1 (s.loadFront im).2)
    have hrecords := handed_hands ({ s with cue := { s.cue with settings := s.loadSettings im } }) (s.loadNames im)
      (s.loadFront im).1 (s.loadFront im).2
    rw [← heff] at hr hl hf ht hrecords
    refine ⟨hrfe.trans hr.symm, hlll.trans hl.symm, hfal.trans hf.symm, htst.trans ht.symm, htgn, hwsk, hkbl, fun hroom => ?_⟩
    have hwarn : (loadWarnings c.words.tag im (s.takePast isIdle) s.rpw.put s.rfe.working).map (·.stamped s.tgn.stamp) =
        warnings := by
      unfold loadWarnings
      rw [List.map_append, List.map_append, indexWarning_stamped, indexWarning_stamped]
      rfl
    have hfour : (s.loadFront im).2.length ≤ 4 := Front.load_length _ _ _ _
    have hone := doneReports_length c.words
    have hwlen := congrArg List.length hwarn
    rw [List.length_map] at hwlen
    obtain ⟨-, hfifo⟩ := hhands.adds hroom.2 (by
      simp only [List.length_map, List.length_append]
      have := hroom.1
      omega)
    obtain ⟨-, hhanded⟩ := hrecords.adds hroom.2 (by
      rw [List.length_map]
      have : s.rpw.fifo.length + (warnings.length + 5) ≤ 8 := hroom.1
      show s.rpw.fifo.length + _ ≤ 8
      omega)
    have hhanded' : handed.rpw.fifo = s.rpw.fifo ++
        ((s.loadFront im).2.map (·.stamped s.tgn.stamp)).map (fun y => ⟨y, none⟩) := hhanded
    rw [hhanded', List.drop_left, hfifo]
    simp only [List.map_append, hwarn, hdone, List.append_assoc]
  · intro cond met
    have hr : r = cueWaitlock isIdle c s := hjudge hs hk rfl
    rw [cueWaitlock_eq] at hr
    have hmet : s.condMet (waitCond c.words.w4) = true ↔ met := condMet_iff _
    refine ⟨fun h => hr.trans (if_pos (hmet.2 h)), fun h => ?_⟩
    have hwait : r = ({ s with cue := { s.cue with
        engine := .waiting, wait := some ⟨c, cond, c.words.w5.toNat, 0, isIdle⟩ } }, .waiting) :=
      hr.trans (if_neg fun h' => h (hmet.1 h'))
    exact ⟨hwait, by rw [hwait]; exact execCopy_stops hwait (.inr (.inl rfl))⟩
  · intro st value pair tag loop field loader bank bit
    have hr : r = cueSnapshot c s := hjudge hs hk rfl
    rw [cueSnapshot_eq] at hr
    have hmasks : r.1 = { s with rpw := (produceAll (snapshotReports c.words s) s).rpw, cue := { s.cue with
        masks := if c.words.w4 = 1 then 0x7f#7 else s.cue.masks } } := by
      rw [hr, produceAll_eq]
      dsimp only
      split <;> rfl
    have hout : r.2 = .performed := by rw [hr]
    refine ⟨hout, ?_, fun hroom => ?_⟩
    · rw [hmasks]
    · rw [hmasks]
      obtain ⟨-, hfifo⟩ := produceAll_adds (snapshotReports c.words s) s hroom.2 hroom.1
      refine hfifo.trans (congrArg (s.rpw.fifo ++ ·) ?_)
      have htags : tagsWord st.slots = BitVec.ofNat 16 (((List.range 8).map (fun i => 4 ^ i * tag i)).sum) := tagsWord_eq _
      have hw7 : BitVec.ofNat 16 (s.cue.masks.toNat + 256 * s.lll.loop.code + 2048 * s.fal.field.code
          + 8192 * inputCode s.rfe.active + 16384 * s.rfe.working.code + 32768 * bitOf s.lockdownActive) =
          BitVec.ofNat 16 (s.cue.masks.toNat + 256 * loop + 2048 * field
            + bit (s.rfe.active = .b) 13 + bit (s.rfe.working = .s525) 14
            + bit (s.cue.settings.lockdown && s.pins.tally) 15) := by
        have hloop : s.lll.loop.code = loop := rfl
        have hfield : s.fal.field.code = field := rfl
        have hactive : 8192 * inputCode s.rfe.active = bit (s.rfe.active = .b) 13 := inputCode_bit _
        have hworking : 16384 * s.rfe.working.code = bit (s.rfe.working = .s525) 14 := standardCode_bit _
        have hlockdown : 32768 * bitOf s.lockdownActive = bit (s.cue.settings.lockdown && s.pins.tally) 15 := bitOf_bit _
        rw [hloop, hfield, hactive, hworking, hlockdown]
      unfold snapshotReports
      dsimp only [List.map_cons, List.map_nil]
      rw [hw7]
      have htags' : tagsWord (s.wsk.stack.stepAll s.tgn.stamp).slots = _ := htags
      rw [htags']
      rfl

end Sys2Proof.Machine
end

section
/-!
PROOFS. The memory port, the causes and the status copy through the works of a boundary; a boundary that runs its
schedule (R92, R110 to R112, R115), with O45.
-/

namespace Sys2Proof.Machine

/-! ### What the boundary's other works leave of the port and the causes -/

/-- The cue engine's requests, the request in service and the causes are as they were. -/
structure State.PortKept (s t : State) : Prop where
  cueQ : t.mpt.cueQ = s.mpt.cueQ
  service : t.mpt.service = s.mpt.service
  latched : t.rpw.latched = s.rpw.latched

namespace State.PortKept
variable {s t u : State}

theorem refl (s : State) : s.PortKept s := ⟨rfl, rfl, rfl⟩

theorem trans (h : s.PortKept t) (h' : t.PortKept u) : s.PortKept u :=
  ⟨h'.cueQ.trans h.cueQ, h'.service.trans h.service, h'.latched.trans h.latched⟩

theorem produce (r : Report) (s : State) : s.PortKept (produce r s) := ⟨rfl, rfl, Rpw.produce_causes _ _⟩

theorem produceAll (rs : List Report) (s : State) : s.PortKept (produceAll rs s) := by
  refine ⟨?_, ?_, produceAll_causes rs s⟩ <;> rw [produceAll_eq]

theorem nolockTest (s : State) : s.PortKept (nolockTest s) := by
  unfold Machine.nolockTest
  split
  · exact ⟨rfl, rfl, Rpw.produce_causes _ _⟩
  · exact refl s

theorem fieldstat (s : State) : s.PortKept (fieldstat s) := by
  unfold Machine.fieldstat
  split
  · exact produce _ s
  · exact refl s

theorem atPlace {α : Type} [DecidableEq α] (p h : α) {f : State → State} (hf : ∀ s : State, s.PortKept (f s)) (s : State) :
    s.PortKept (atPlace p h f s) := by
  unfold Machine.atPlace
  split
  · exact hf s
  · exact refl s

theorem stepFades (s : State) : s.PortKept (stepFades s) := ⟨rfl, rfl, rfl⟩

theorem swapTest (s : State) : s.PortKept (swapTest s) := by
  by_cases h : s.kbl.loader ≠ .ready ∨ s.kbl.load = none
  · rw [swapTest_of_not_ready h]
    exact refl s
  push Not at h
  obtain ⟨hready, hload⟩ := h
  obtain ⟨r, hload⟩ := Option.ne_none_iff_exists'.1 hload
  cases hheld : s.swapProtected r || (s.swapGuard r).isSome with
  | true =>
    rw [swapTest_held hready hload hheld]
    split
    · exact ⟨rfl, rfl, rfl⟩
    · exact ⟨rfl, rfl, Rpw.produce_causes _ _⟩
  | false =>
    rw [swapTest_swaps hready hload hheld]
    exact ⟨rfl, rfl, Rpw.produce_causes _ _⟩

theorem rpwNext (s : State) : s.PortKept (rpwNext s) := by
  refine ⟨?_, ?_, (rpwNext_rpw_frame s).2.2.1⟩ <;> rw [rpwNext_mpt]

theorem boundaryGet (s : State) : s.PortKept (boundaryGet s) := by
  unfold Machine.boundaryGet
  split
  · exact refl s
  · have h := rpwNext { s with rpw := { s.rpw with getDue := true } }
    exact ⟨h.cueQ, h.service, h.latched⟩

theorem postStatus (s : State) : s.PortKept (postStatus s) := by
  unfold Machine.postStatus
  split
  · split <;> exact ⟨rfl, rfl, rfl⟩
  · exact refl s

theorem statusCopy (n : Nat) (s : State) : s.PortKept (statusCopy n s) := by
  unfold Machine.statusCopy
  split
  · have hcopy (l : List (Nat × Word)) : s.PortKept { s with rpw := { s.rpw with status := l }, mpt := { s.mpt with sta := none } } :=
      ⟨rfl, rfl, rfl⟩
    exact (hcopy _).trans (postStatus _)
  · exact refl s

theorem swapAndStat (o : WorkOrder) (s : State) : s.PortKept (swapAndStat o s) := by
  unfold Machine.swapAndStat
  dsimp only
  split
  · exact (fieldstat s).trans ((atPlace _ _ nolockTest _).trans ((swapTest _).trans (atPlace _ _ stepFades _)))
  · exact (swapTest s).trans ((atPlace _ _ stepFades _).trans ((atPlace _ _ nolockTest _).trans
      (atPlace _ _ fieldstat _)))

theorem boundaryTail (o : WorkOrder) (n : Nat) (s : State) : s.PortKept (boundaryTail o n s) := by
  unfold Machine.boundaryTail
  dsimp only
  have hwork : s.PortKept (Machine.atPlace o.tst .last Machine.nolockTest (Machine.atPlace o.stat .last Machine.fieldstat
      (Machine.atPlace o.tst .afterCopy Machine.nolockTest (Machine.statusCopy n (Machine.boundaryGet
        (Machine.atPlace o.tst .beforeCopy Machine.nolockTest (Machine.swapAndStat o s))))))) :=
    (swapAndStat o s).trans ((atPlace _ _ nolockTest _).trans ((boundaryGet _).trans ((statusCopy n _).trans
      ((atPlace _ _ nolockTest _).trans ((atPlace _ _ fieldstat _).trans (atPlace _ _ nolockTest _))))))
  exact ⟨hwork.cueQ, hwork.service, hwork.latched⟩

theorem falBoundary (s : State) : s.PortKept (falBoundary s) := ⟨rfl, rfl, rfl⟩

theorem falSeek (why : LostReason) (s : State) : s.PortKept (falSeek why s) := by
  have h := produceAll (s.fal.enterSeek why).2 { s with fal := (s.fal.enterSeek why).1 }
  exact ⟨h.cueQ, h.service, h.latched⟩

theorem withLoop (r : Lll × List Report) (s : State) : s.PortKept (s.withLoop r) := by
  have h := produceAll r.2 { s with lll := r.1 }
  exact ⟨h.cueQ, h.service, h.latched⟩

theorem handStatistics (ended : Stamp) (s : State) : s.PortKept (handStatistics ended s) := by
  unfold Machine.handStatistics
  dsimp only
  split
  · split
    · exact ⟨rfl, rfl, Rpw.produce_causes _ _⟩
    · exact ⟨rfl, rfl, rfl⟩
  · exact ⟨rfl, rfl, rfl⟩

theorem countHoldover (e : Bool) (s : State) : s.PortKept (countHoldover e s) := by
  unfold Machine.countHoldover
  split
  · exact refl s
  split
  · exact (withLoop _ s).trans (falSeek _ _)
  · exact ⟨rfl, rfl, rfl⟩

theorem boundaryHead (o : WorkOrder) (e : Bool) (s : State) : s.PortKept (boundaryHead o e s) := by
  unfold Machine.boundaryHead
  dsimp only
  have hstart : s.PortKept (keepEnded (Machine.countHoldover e (Machine.handStatistics s.tgn.stamp (nextField s)))) :=
    (⟨rfl, rfl, rfl⟩ : s.PortKept (nextField s)).trans ((handStatistics s.tgn.stamp (nextField s)).trans
      ((countHoldover e _).trans ⟨rfl, rfl, rfl⟩))
  refine hstart.trans (PortKept.trans ?_ ((atPlace _ _ stepFades _).trans (atPlace _ _ nolockTest _)))
  split
  · exact refl _
  · exact falBoundary _

/-- Behind the engine's work the boundary keeps the port and the causes as it leaves them. -/
theorem fieldBoundary (o : WorkOrder) (e : Bool) (s : State) :
    (engineBoundary (Machine.boundaryHead o e s)).1.PortKept (fieldBoundary o e s) := by
  refine PortKept.trans (t := (boundaryCues o (Machine.boundaryHead o e s)).1) ?_ (boundaryTail o _ _)
  unfold boundaryCues
  refine PortKept.trans ?_ ((atPlace _ _ stepFades _).trans (atPlace _ _ nolockTest _))
  split
  · exact falBoundary _
  · exact refl _

end State.PortKept

end Sys2Proof.Machine
end

section
/-!
PROOFS. A boundary that runs its schedule (R110 to R112, R115), with O45.
-/

namespace Sys2Proof.Machine

/-! ### The due list as a fold (R110, R111) -/

/-- One copy run upon the state that the copies before it left, unless one of them stopped the list; with the count of
the copies executed or skipped. -/
def runCopy (isIdle : Bool) (p : State × Bool × Nat) (c : Copy) : State × Bool × Nat :=
  if p.2.1 then
    let r := execCopy isIdle c p.1
    (r.1, r.2.2, p.2.2 + if r.2.1 then 1 else 0)
  else p

theorem foldl_runCopy_stopped (isIdle : Bool) (cs : List Copy) (s : State) (n : Nat) :
    cs.foldl (runCopy isIdle) (s, false, n) = (s, false, n) := by
  induction cs with
  | nil => rfl
  | cons c cs ih => exact ih

theorem execDue_eq (cs : List Copy) (s : State) (n : Nat) :
    let p := cs.foldl (runCopy false) (s, true, n)
    p.1 = (execDue cs s).1 ∧ p.2.2 = n + (execDue cs s).2 := by
  induction cs generalizing s n with
  | nil => exact ⟨rfl, rfl⟩
  | cons c cs ih =>
    rw [List.foldl_cons]
    have hrun : runCopy false (s, true, n) c =
        ((execCopy false c s).1, (execCopy false c s).2.2, n + bitOf (execCopy false c s).2.1) := rfl
    rw [hrun]
    unfold execDue
    obtain ⟨t, done, more⟩ := execCopy false c s
    cases more with
    | true =>
      obtain ⟨h1, h2⟩ := ih t (n + bitOf done)
      exact ⟨h1, by rw [h2, Nat.add_assoc]⟩
    | false =>
      rw [foldl_runCopy_stopped]
      exact ⟨rfl, rfl⟩

/-- What a RUNNING engine with HOLD released makes of its due list, or its idle copy (R110, R115). -/
def scheduleRun (due : List Copy) (idle : Option Copy) (s : State) : State × Bool × Nat :=
  match due, idle with
  | [], some c => runCopy true (s, true, 0) c
  | due, _ => due.foldl (runCopy false) (s, true, 0)

theorem engineBoundary_schedule {u : State} (hrun : u.cue.engine = .running) (hstart : u.cue.startup = false)
    (hhold : u.pins.hold = false) :
    let p := scheduleRun u.cue.due u.cue.idle (clearDue (endScan u))
    engineBoundary u = (p.1, p.2.2) := by
  rw [engineBoundary_running hrun hstart]
  unfold runningBoundary
  dsimp only
  rw [hhold, if_neg Bool.false_ne_true]
  cases hdue : u.cue.due with
  | nil =>
    cases hidle : u.cue.idle with
    | none => rfl
    | some c =>
      show execIdle (some c) (clearDue (endScan u)) = (_, 0 + _)
      rw [Nat.zero_add]
      rfl
  | cons c cs =>
    obtain ⟨h1, h2⟩ := execDue_eq (c :: cs) (clearDue (endScan u)) 0
    rw [Nat.zero_add] at h2
    exact (Prod.ext h1 h2).symm

/-! ### The status copy's due count (R92, R93) -/

theorem postStatus_mem {s : State} {a : Nat} {w w0 : Word} {a0 : Nat} {rest : List (Nat × Word)}
    (h : s.rpw.status = (a0, w0) :: rest) (hmem : (a, w) ∈ rest) : (a, w) ∈ (postStatus s).rpw.status := by
  unfold postStatus
  rw [h]
  dsimp only
  split
  · rw [h]
    exact List.mem_cons_of_mem _ hmem
  · exact hmem

/-- The due count stands in the seventh word of the status area behind its first (R93). -/
theorem statusCopy_dueCount {s : State} {n : Nat} (he : s.cue.engine ≠ .stopped) (hv : s.cue.linkValid = true)
    (hs : s.rpw.suspended = false) :
    (s.cue.link.toNat + 110, BitVec.ofNat 16 n) ∈ (statusCopy n s).rpw.status := by
  have hcond : (decide (s.cue.engine ≠ .stopped) && s.cue.linkValid && !s.rpw.suspended) = true := by simp [he, hv, hs]
  unfold statusCopy
  rw [if_pos hcond]
  refine postStatus_mem (s := { s with
    rpw := { s.rpw with status :=
      ((List.range 16).map (fun k => linkWord s.cue.link.toNat (48 + k))).zip (statusWords s n) }
    mpt := { s.mpt with sta := none } }) rfl ?_
  exact List.mem_cons_of_mem _ (List.mem_cons_of_mem _ (List.mem_cons_of_mem _ (List.mem_cons_of_mem _
    (List.mem_cons_of_mem _ (List.mem_cons_of_mem _ List.mem_cons_self)))))

/-- The status copy and the suspension of the writers are as they were. -/
def Rpw.CopyKept (r r' : Rpw) : Prop := r'.status = r.status ∧ r'.suspended = r.suspended

theorem nolockTest_copyKept {α : Type} [DecidableEq α] (p h : α) (s : State) :
    s.rpw.CopyKept (atPlace p h nolockTest s).rpw := by
  unfold atPlace nolockTest
  (repeat' split) <;> first | exact ⟨rfl, rfl⟩ | simp [Rpw.CopyKept, produce]

theorem fieldstat_copyKept {α : Type} [DecidableEq α] (p h : α) (s : State) :
    s.rpw.CopyKept (atPlace p h fieldstat s).rpw := by
  unfold atPlace fieldstat
  (repeat' split) <;> first | exact ⟨rfl, rfl⟩ | simp [Rpw.CopyKept, produce]

theorem postStatus_suspended (s : State) : (postStatus s).rpw.suspended = s.rpw.suspended := by
  unfold postStatus
  split
  · split <;> rfl
  · rfl

theorem statusCopy_suspended (n : Nat) (s : State) : (statusCopy n s).rpw.suspended = s.rpw.suspended := by
  unfold statusCopy
  split
  · exact postStatus_suspended _
  · rfl

theorem boundaryTail_dueCount {o : WorkOrder} {n : Nat} {s : State} (he : s.cue.engine ≠ .stopped)
    (hv : s.cue.linkValid = true) (hs : (boundaryTail o n s).rpw.suspended = false) :
    (s.cue.link.toNat + 110, BitVec.ofNat 16 n) ∈ (boundaryTail o n s).rpw.status := by
  let v := boundaryGet (atPlace o.tst .beforeCopy nolockTest (swapAndStat o s))
  let c := statusCopy n v
  have hcue : v.cue = s.cue := by simp only [v, boundaryGet_frame, atPlace_nolockTest_frame, swapAndStat_frame]
  have hkept : c.rpw.CopyKept (boundaryTail o n s).rpw := by
    obtain ⟨h1, h1'⟩ := nolockTest_copyKept o.tst TstPlace.afterCopy c
    obtain ⟨h2, h2'⟩ := fieldstat_copyKept o.stat Place.last (atPlace o.tst .afterCopy nolockTest c)
    obtain ⟨h3, h3'⟩ := nolockTest_copyKept o.tst TstPlace.last
      (atPlace o.stat .last fieldstat (atPlace o.tst .afterCopy nolockTest c))
    exact ⟨h3.trans (h2.trans h1), h3'.trans (h2'.trans h1')⟩
  have hsusp : v.rpw.suspended = false := by
    rw [← statusCopy_suspended n v, ← hkept.2]
    exact hs
  rw [hkept.1, ← hcue]
  exact statusCopy_dueCount (by rw [hcue]; exact he) (by rw [hcue]; exact hv) hsusp

/-! ### A boundary that runs its schedule -/

/-- The stack that the cues leave is stepped, wherever WSK's own work stands (R139). -/
theorem fieldBoundary_stack_atCues (o : WorkOrder) (e : Bool) (s : State) :
    (fieldBoundary o e s).wsk.stack = (engineBoundary (boundaryHead o e s)).1.wsk.stack.stepAll (s.tgn.stamp + 1) := by
  rw [fieldBoundary_stack]
  by_cases h : o.wsk = .first
  · have hstamp : (engineBoundary (boundaryHead (wskLast o) e s)).1.tgn.stamp = s.tgn.stamp + 1 := by
      obtain ⟨a, b, htgn⟩ := engineBoundary_tgn (boundaryHead (wskLast o) e s)
      rw [htgn]
      exact boundaryHead_stamp _ _ _
    rw [boundaryHead_wsk_first h, engineBoundary_stepFades]
    show _ = (((engineBoundary (boundaryHead (wskLast o) e s)).1.wsk.stack.stepAll _).stepAll _)
    rw [hstamp, Stack.stepAll_stepAll]
  · rw [boundaryHead_wsk_later h]

/-- What the boundary behind the engine leaves as the engine leaves it. -/
theorem fieldBoundary_engine (o : WorkOrder) (e : Bool) (s : State) :
    let r := (engineBoundary (boundaryHead o e s)).1
    let t := fieldBoundary o e s
    t.rfe = r.rfe ∧ t.lll = r.lll ∧ t.cue = r.cue ∧ t.tgn.out1 = r.tgn.out1 ∧ t.tgn.out2 = r.tgn.out2 := by
  intro r t
  obtain ⟨hrfe, hlll, -, htgn, hcue⟩ := boundaryCues_front o (boundaryHead o e s)
  have hout : (boundaryCues o (boundaryHead o e s)).1.tgn.out1 = r.tgn.out1 ∧
      (boundaryCues o (boundaryHead o e s)).1.tgn.out2 = r.tgn.out2 := by
    rw [htgn]
    split <;> exact ⟨rfl, rfl⟩
  have ht : t = boundaryTail o (boundaryCues o (boundaryHead o e s)).2 (boundaryCues o (boundaryHead o e s)).1 := rfl
  rw [ht, boundaryTail_tgn]
  simp only [boundaryTail_frame]
  exact ⟨hrfe, hlll, hcue, hout⟩

/-- Settles O45. -/
theorem boundaryRunsTheSchedule : Obligations.BoundaryRunsTheSchedule := by
  intro x s hend hrun hstart hhold begun run last
  let g := gridStep x s
  let u := s.atCues x
  have hucue : u.cue = s.cue := by simp only [u, State.atCues, boundaryHead_frame, gridStep_frame]
  have hupins : u.pins.hold = false := by
    simp only [u, State.atCues, boundaryHead_frame, gridStep_pins]
    exact hhold
  have hustamp : u.tgn.stamp = s.tgn.stamp + 1 := by
    simp only [u, State.atCues, boundaryHead_stamp, gridStep_frame]
  have hlast : scheduleRun u.cue.due u.cue.idle begun = last := by
    rw [hucue]
    rfl
  have hengine : engineBoundary u = (last.1, last.2.2) := by
    rw [← hlast]
    exact engineBoundary_schedule (by rw [hucue]; exact hrun) (by rw [hucue]; exact hstart) hupins
  have hkbl : u.kbl.banks = s.kbl.banks := by
    have hhead (o : WorkOrder) (e : Bool) (v : State) : (boundaryHead o e v).kbl.banks = v.kbl.banks := by
      unfold boundaryHead
      dsimp only
      rw [(atPlace_nolockTest_frame _ _ _).2.2.2.2.2.2.2.1, (atPlace_stepFades_frame _ _ _).2.2.2.2.2.2.1]
      split <;> simp [keepEnded]
    exact (hhead _ _ _).trans (by rw [(gridStep_frame x s).2.2.2.2.1])
  have hwork : u.rfe.working = s.rfe.working := by
    simp only [u, State.atCues, boundaryHead_frame]
    rw [gridStep_eq]
  let b := fieldBoundary x.order g.entered g.s
  have ht : lineEndWork x s = beginLine b := lineEndWork_boundary hend
  obtain ⟨hrfe, hlll, hcue, hout1, hout2⟩ := fieldBoundary_engine x.order g.entered g.s
  have heng : engineBoundary (boundaryHead x.order g.entered g.s) = (last.1, last.2.2) := hengine
  rw [heng] at hrfe hlll hcue hout1 hout2
  have hstack := fieldBoundary_stack_atCues x.order g.entered g.s
  have hport := State.PortKept.fieldBoundary x.order g.entered g.s
  rw [heng] at hstack hport
  have hgstamp : g.s.tgn.stamp = s.tgn.stamp := by rw [(gridStep_frame x s).1]
  have hlink : b.cue.link = s.cue.link := by
    have hleaves := (State.Carried.runningBoundary u).cue.link
    rw [← engineBoundary_running (by rw [hucue]; exact hrun) (by rw [hucue]; exact hstart), hengine] at hleaves
    rw [hcue]
    exact hleaves.trans (congrArg Cue.link hucue : u.cue.link = s.cue.link)
  refine ⟨?_, hustamp, hkbl, hwork, beginLine b, ?_, ?_⟩
  · show ({ u.cue with scan := none, due := [], idle := none } : Cue) = _
    rw [hucue]
  · rw [exec_lineEnd, ht]
  · simp only [beginLine_frame, beginLine_tgn]
    refine ⟨hcue, hlll, hrfe, ?_, hout1, hout2, hport.cueQ, fun he hv hs => ?_⟩
    · rw [hstack, hgstamp]
    · have hcues : (boundaryCues x.order (boundaryHead x.order g.entered g.s)).1.cue = b.cue := by
        rw [hcue]
        exact (boundaryCues_front _ _).2.2.2.2.trans (by rw [heng])
      have hcount : (boundaryCues x.order (boundaryHead x.order g.entered g.s)).2 = last.2.2 :=
        congrArg Prod.snd heng
      have hmem := boundaryTail_dueCount (o := x.order) (n := last.2.2)
        (s := (boundaryCues x.order (boundaryHead x.order g.entered g.s)).1) (by rw [hcues]; exact he)
        (by rw [hcues]; exact hv) (by rw [← hcount]; exact hs)
      rw [hcues, hlink] at hmem
      rw [← hcount] at hmem ⊢
      exact hmem

end Sys2Proof.Machine
end

section
/-!
PROOFS. The engine at a boundary with nothing to execute: HOLD, and the test of a wait (R97, R110, R116 to R118), with
O44.
-/

namespace Sys2Proof.Machine

/-! ### The state in which the engine works at a boundary -/

section
variable {x : LineInputs} {s : State}

theorem atCues_cue : (s.atCues x).cue = s.cue := by
  simp only [State.atCues, boundaryHead_frame, gridStep_frame]

theorem atCues_hold : (s.atCues x).pins.hold = x.hold := by
  simp only [State.atCues, boundaryHead_frame, gridStep_pins]

/-- The port, the causes and the tick of the line end. -/
theorem atCues_port : s.PortKept (s.atCues x) ∧ (s.atCues x).rfe.tick = s.lineEndTick := by
  have hgrid : s.PortKept (gridStep x s).s := by
    rw [gridStep_eq]
    exact ⟨rfl, rfl, produceAll_causes _ s⟩
  refine ⟨hgrid.trans (State.PortKept.boundaryHead _ _ _), ?_⟩
  simp only [State.atCues, boundaryHead_frame]
  rw [gridStep_eq]

theorem lineEnd_cue (hend : s.tgn.length ≤ s.tgn.line) :
    (lineEndWork x s).cue = (engineBoundary (s.atCues x)).1.cue := by
  rw [lineEndWork_boundary hend]
  simp only [beginLine_frame]
  exact fieldBoundary_cue _ _ _

/-- The condition of a wait holds of the loop and the aligner as this state has them (R117). -/
def State.Meets (t : State) (c : WaitCond) : Prop :=
  (t.lll.loop = .track ∨ t.lll.loop = .coast) ∧ (c = .field → t.fal.field = .lock)

/-- Where no cue runs, the engine tests a wait by what the line end leaves of the loop and the aligner. -/
theorem condMet_atBoundary (hend : s.tgn.length ≤ s.tgn.line) (hno : s.NoCueAt x) (o : WorkOrder) (c : WaitCond) :
    (boundaryHead o (gridStep x s).entered (gridStep x s).s).condMet c = true ↔ (lineEndWork x s).Meets c := by
  let b := boundaryStart (gridStep x s).entered (gridStep x s).s
  obtain ⟨-, hlllU, hfalU, -⟩ := boundaryHead_front o (gridStep x s).entered (gridStep x s).s
  obtain ⟨-, hlll, hfal, -⟩ := fieldBoundary_front_noCue (noCue_boundaryHead x.order (gridStep x s).entered hno)
  have hfield : (boundaryHead o (gridStep x s).entered (gridStep x s).s).fal.field = b.fal.field := by
    rw [hfalU]
    split <;> rfl
  have hline : (lineEndWork x s).lll = b.lll ∧ (lineEndWork x s).fal.field = b.fal.field := by
    rw [lineEndWork_boundary hend]
    simp only [beginLine_frame]
    exact ⟨hlll, by rw [hfal]; rfl⟩
  rw [condMet_iff, State.Meets, hlllU, hfield, hline.1, hline.2]

/-! ### The end of a wait (R112, R114, R117) -/

/-- The engine with the wait over and its cue behind it. -/
def Cue.finished (c : Cue) (w : WaitRecord) : Cue := { c with
  engine := .running, wait := none
  take := if w.isIdle then c.take else (c.take + 1) % c.qLen
  deferral := if w.isIdle then c.deferral else none }

/-- The take write of the cue that waited at the port, and the cue trigger. -/
structure State.Moved (s : State) (w : WaitRecord) (t : State) : Prop where
  idle : w.isIdle = true → t.mpt.cueQ = s.mpt.cueQ ∧ t.mpt.service = s.mpt.service
  queued : w.isIdle = false → (s.mpt.service ≠ none → t.mpt.cueQ = s.queuePast w.isIdle ∧ t.mpt.service = s.mpt.service) ∧
    (s.mpt.service = none → ∀ q rest, s.queuePast w.isIdle = q :: rest →
      t.mpt.service = some ⟨q, false, s.lineEndTick, none⟩ ∧ t.mpt.cueQ = rest)
  trigger : t.rpw.latched = s.latchedPast w.isIdle

/-- The engine ends its wait, having found the port, the causes and the queue's place as they were. -/
theorem endWait_moves (met : Bool) (w : WaitRecord) {hf : Option HeldFrom} {u : State} (hcue : u.cue = { s.cue with heldFrom := hf })
    (hport : s.PortKept u) (htick : u.rfe.tick = s.lineEndTick) :
    (endWait met w u).cue = { s.cue.finished w with heldFrom := hf } ∧ s.Moved w (endWait met w u) := by
  let v : State := produce (repWaitend met w) { u with cue := { u.cue with wait := none, engine := .running } }
  have hv : v.mpt = u.mpt ∧ v.rfe = u.rfe ∧ v.cue = { s.cue with heldFrom := hf, wait := none, engine := .running } :=
    ⟨rfl, rfl, by rw [show v.cue = { u.cue with wait := none, engine := .running } from rfl, hcue]⟩
  have hlatched : v.rpw.latched = s.rpw.latched := (Rpw.produce_causes _ _).trans hport.latched
  have he : endWait met w u = reportDone w.copy.words (retire w.isIdle v) := rfl
  have hqueue : v.queuePast w.isIdle = s.queuePast w.isIdle := by
    simp only [State.queuePast, State.takePast, hv.1, hv.2.2, hport.cueQ]
  obtain ⟨hbusy, hgrant, -, -⟩ := performed_spec w.isIdle w.copy.words v
  refine ⟨?_, fun hi => ?_, fun hi => ⟨fun hs => ?_, fun hs q rest hq => ?_⟩, ?_⟩
  · rw [he, performed_eq]
    show v.cuePast w.isIdle = _
    simp only [State.cuePast, State.takePast, hv.2.2]
    rfl
  · rw [he, performed_eq, hi, retire_idle]
    exact ⟨hport.cueQ, hport.service⟩
  · have hmpt := hbusy (by rw [hv.1, hport.service]; exact hs) hi
    rw [he, hmpt]
    exact ⟨by rw [← hqueue, hi], by rw [hv.1]; exact hport.service⟩
  · have hmpt := hgrant q rest (by rw [hv.1, hport.service]; exact hs) hi (by rw [← hi, hqueue]; exact hq)
    rw [he, hmpt, hv.2.1, htick]
    exact ⟨rfl, rfl⟩
  · rw [he, performed_latched]
    unfold State.latchedPast State.takePast
    rw [hv.2.2, hlatched]

/-- The records of a wait's end stand in the FIFO, with the new stamp. -/
def State.WaitReported (s : State) (met : Bool) (w : WaitRecord) (t : State) : Prop := s.rpw.fifo = [] →
  ∀ r ∈ endReports met w, ∃ y ∈ t.rpw.fifo, y.report = r.stamped (s.tgn.stamp + 1)

theorem lineEnd_reports_wait (hend : s.tgn.length ≤ s.tgn.line) (hno : s.NoCueAt x) {met : Bool} {w : WaitRecord}
    (hrep : (boundaryHead (wskLast x.order) (gridStep x s).entered (gridStep x s).s).engineReports = endReports met w) :
    s.WaitReported met w (lineEndWork x s) := by
  intro hempty r hr
  have hstamp : (s.opened x).tgn.stamp = s.tgn.stamp + 1 := by
    rw [show s.opened x = _ from boundaryStart_eq _ _]
    show (gridStep x s).s.tgn.stamp + 1 = _
    rw [(gridStep_frame x s).1]
  have hmem : r.stamped (s.tgn.stamp + 1) ∈ (s.opened x).stampAll (endReports met w) := by
    rw [← hstamp]
    exact Multiset.mem_coe.2 (List.mem_map_of_mem hr)
  rw [← Rpw.mem_reports, lineEnd_records hend hno hempty, hrep]
  simp only [Multiset.mem_add]
  exact .inr (.inl (.inl (.inl hmem)))

/-- What a boundary's test of a wait comes to: the wait is over with its condition, goes on, or is over at its
timeout, as WAITEND_EXPIRED says. -/
theorem lineEnd_tests_wait {w : WaitRecord} {hf : Option HeldFrom} (hend : s.tgn.length ≤ s.tgn.line) (hno : s.NoCueAt x)
    (heng : engineBoundary (s.atCues x) = waitTest w { s.atCues x with cue := { (s.atCues x).cue with heldFrom := hf } })
    (hrep : ∀ u : State, u.cue = s.cue → u.pins.hold = x.hold → u.engineReports = u.waitReports w)
    (hexp : ∀ u : State, u.cue = s.cue → u.pins.hold = x.hold → u.waitExpires = (!u.condMet w.cond && w.expired)) :
    let t := lineEndWork x s
    (t.Meets w.cond → exec (.waitendExpired x) s = .next s ∧ s.WaitReported true w t ∧ s.Moved w t ∧
      t.cue = { s.cue.finished w with heldFrom := hf }) ∧
    (¬t.Meets w.cond → w.timeout = 0 ∨ w.count < w.timeout →
      t.cue = { s.cue with engine := .waiting, wait := some w, heldFrom := hf } ∧ exec (.waitendExpired x) s = .next s) ∧
    (¬t.Meets w.cond → w.timeout ≠ 0 → w.timeout ≤ w.count →
      exec (.waitendExpired x) s = .next t ∧ s.WaitReported false w t ∧ s.Moved w t ∧
      t.cue = { s.cue.finished w with heldFrom := hf }) := by
  intro t
  let u : State := { s.atCues x with cue := { (s.atCues x).cue with heldFrom := hf } }
  let l := boundaryHead (wskLast x.order) (gridStep x s).entered (gridStep x s).s
  have hmeets : u.condMet w.cond = true ↔ t.Meets w.cond := condMet_atBoundary hend hno x.order w.cond
  have hmeetsL : l.condMet w.cond = true ↔ t.Meets w.cond := condMet_atBoundary hend hno _ w.cond
  have hcue : t.cue = (waitTest w u).1.cue := by
    rw [show t.cue = _ from lineEnd_cue hend, heng]
  have hwaitrep : l.engineReports = l.waitReports w :=
    hrep l (by simp only [l, boundaryHead_frame, gridStep_frame]) (by simp only [l, boundaryHead_frame, gridStep_pins])
  have hends : (gridStep x s).s.endsField = true := by
    rw [gridStep_endsField]
    exact (State.endsField_iff s).2 hend
  have hexec : exec (.waitendExpired x) s = .next (if (!u.condMet w.cond && w.expired) = true then t else s) := by
    rw [exec_waitendExpired, State.waitendHere, hends, hexp _ atCues_cue atCues_hold]
    rfl
  have hucue : u.cue = { s.cue with heldFrom := hf } := by
    show ({ (s.atCues x).cue with heldFrom := hf } : Cue) = _
    rw [atCues_cue]
  have hover (met : Bool) (htest : (waitTest w u).1 = endWait met w u) :
      s.Moved w t ∧ t.cue = { s.cue.finished w with heldFrom := hf } := by
    obtain ⟨hport, htick⟩ := atCues_port (x := x) (s := s)
    obtain ⟨hdone, hmoved⟩ := endWait_moves met w hucue
      (⟨hport.cueQ, hport.service, hport.latched⟩ : s.PortKept u) htick
    have hkept : (endWait met w u).PortKept t := by
      have h := State.PortKept.fieldBoundary x.order (gridStep x s).entered (gridStep x s).s
      rw [show engineBoundary (boundaryHead x.order _ _) = _ from heng, htest] at h
      rw [show t = _ from lineEndWork_boundary hend]
      refine ⟨?_, ?_, ?_⟩ <;> simp only [beginLine_frame]
      · exact h.cueQ
      · exact h.service
      · exact h.latched
    refine ⟨⟨fun hi => ?_, fun hi => ⟨fun hs => ?_, fun hs q rest hq => ?_⟩, ?_⟩, ?_⟩
    · rw [hkept.cueQ, hkept.service]
      exact hmoved.idle hi
    · rw [hkept.cueQ, hkept.service]
      exact (hmoved.queued hi).1 hs
    · rw [hkept.cueQ, hkept.service]
      exact (hmoved.queued hi).2 hs q rest hq
    · rw [hkept.latched]
      exact hmoved.trigger
    · rw [hcue, htest, hdone]
  have hlate : w.expired = true ↔ w.timeout ≠ 0 ∧ w.timeout ≤ w.count := by simp [WaitRecord.expired]
  refine ⟨fun hm => ?_, fun hm hwait => ?_, fun hm h0 hle => ?_⟩
  · have hu := hmeets.2 hm
    have hl : l.engineReports = endReports true w := hwaitrep.trans (if_pos (hmeetsL.2 hm))
    obtain ⟨hmoved, hc⟩ := hover true (by rw [waitTest, if_pos hu])
    exact ⟨by rw [hexec, hu]; rfl, lineEnd_reports_wait hend hno hl, hmoved, hc⟩
  · have hu : ¬u.condMet w.cond = true := fun h => hm (hmeets.1 h)
    have hnot : ¬w.expired = true := fun h => by
      obtain ⟨h0, hle⟩ := hlate.1 h
      omega
    refine ⟨?_, by rw [hexec, if_neg]; simp [hnot]⟩
    rw [hcue, waitTest, if_neg hu, if_neg hnot]
    show ({ u.cue with engine := .waiting, wait := some w } : Cue) = _
    rw [hucue]
  · have hu : ¬u.condMet w.cond = true := fun h => hm (hmeets.1 h)
    have hl : ¬l.condMet w.cond = true := fun h => hm (hmeetsL.1 h)
    have hexpired := hlate.2 ⟨h0, hle⟩
    have hl : l.engineReports = endReports false w := hwaitrep.trans ((if_neg hl).trans (if_pos hexpired))
    obtain ⟨hmoved, hc⟩ := hover false (by rw [waitTest, if_neg hu, if_pos hexpired])
    exact ⟨by rw [hexec, if_pos]; simp [hu, hexpired], lineEnd_reports_wait hend hno hl, hmoved, hc⟩

end

/-! ### O44 -/

/-- The records of a wait's end, word by word (R114, R117). -/
theorem waitReported_words {s t : State} {w : WaitRecord} {met : Bool} (h : s.WaitReported met w t) (hempty : s.rpw.fifo = []) :
    (∃ r ∈ t.rpw.fifo, r.report =
      { w0 := if met then 0x0501#16 else 0x0502#16, stamp := s.tgn.stamp + 1, tag := w.copy.words.w3
        w4 := match w.cond with | .line => 0 | .field => 1
        w5 := BitVec.ofNat 16 w.timeout, w6 := r.report.w6 } ∧
      (w.count < 65536 → r.report.w6.toNat = w.count)) ∧
    (w.copy.words.w0.getLsbD 10 = true → ∃ r ∈ t.rpw.fifo, r.report =
      { w0 := 0x0404#16, stamp := s.tgn.stamp + 1, tag := w.copy.words.w3
        w4 := BitVec.ofNat 16 (w.copy.words.w0.toNat % 256), w5 := w.copy.words.w1
        w6 := BitVec.ofNat 16 (w.copy.words.w2.toNat % 256) }) := by
  refine ⟨?_, fun hdone => ?_⟩
  · obtain ⟨y, hy, hr⟩ := h hempty _ List.mem_cons_self
    refine ⟨y, hy, ?_, fun hlt => ?_⟩
    · rw [hr]
      unfold repWaitend Report.stamped
      cases w.cond
      · rw [if_pos rfl]
        rfl
      · rw [if_neg (show ¬WaitCond.field = WaitCond.line from nofun)]
        rfl
    · rw [hr]
      show (waitCountWord w.count).toNat = w.count
      rw [waitCountWord, if_pos hlt, wordOfNat, BitVec.toNat_ofNat]
      exact Nat.mod_eq_of_lt hlt
  · have hmem : repDone w.copy.words ∈ endReports met w := by
      rw [endReports, if_pos (show w.copy.words.reportDone = true from hdone)]
      exact List.mem_cons_of_mem _ List.mem_cons_self
    obtain ⟨y, hy, hr⟩ := h hempty _ hmem
    refine ⟨y, hy, ?_⟩
    rw [hr, repDone_eq, CueWords.kind, bits_low]
    rfl

/-- Settles O44. -/
theorem engineAtTheBoundary : Obligations.EngineAtTheBoundary := by
  intro x s hend reported met finished moved
  have hcue : (lineEndWork x s).cue = (engineBoundary (s.atCues x)).1.cue := lineEnd_cue hend
  have hucue : (s.atCues x).cue = s.cue := atCues_cue
  have huhold : (s.atCues x).pins.hold = x.hold := atCues_hold
  refine ⟨lineEndWork x s, exec_lineEnd x s, fun hoff => ?_, fun hstart => ⟨fun hrun => ⟨fun hh => ?_, fun hh hd hi => ?_⟩,
    fun hheld => ⟨fun hh => ?_, fun hh hf => ?_, fun w hh hf hw => ?_⟩, fun w hwait hw => ⟨fun hh => ?_, fun hh => ?_⟩⟩⟩
  · rw [hcue, engineBoundary_off (by rw [hucue]; tauto), hucue]
  · rw [hcue, engineBoundary_running (by rw [hucue]; exact hrun) (by rw [hucue]; exact hstart),
      runningBoundary_holds (huhold.trans hh)]
    show ({ (s.atCues x).cue with scan := none, due := [], idle := none, engine := .held, heldFrom := some .running } : Cue) = _
    rw [hucue]
  · rw [hcue, engineBoundary_running (by rw [hucue]; exact hrun) (by rw [hucue]; exact hstart),
      runningBoundary_empty (huhold.trans hh) (by rw [hucue]; exact hd) (by rw [hucue]; exact hi)]
    show ({ (s.atCues x).cue with scan := none, due := [], idle := none } : Cue) = _
    rw [hucue, ← hd, ← hi]
  · rw [hcue, engineBoundary_held (by rw [hucue]; exact hstart) (by rw [hucue]; exact hheld) (huhold.trans hh), hucue]
  · rw [hcue, engineBoundary_resumes (by rw [hucue]; exact hstart) (by rw [hucue]; exact hheld) (huhold.trans hh)
      (.inl (by rw [hucue, hf]; exact nofun))]
    show ({ (s.atCues x).cue with heldFrom := none, engine := .running } : Cue) = _
    rw [hucue]
  · obtain ⟨hmet, hgoes, hover⟩ := lineEnd_tests_wait (w := w) (hf := none) hend
      (.inl (by rw [hheld]; exact nofun) : s.NoCueAt x)
      (engineBoundary_retakes (by rw [hucue]; exact hstart) (by rw [hucue]; exact hheld) (huhold.trans hh)
        (by rw [hucue]; exact hf) (by rw [hucue]; exact hw))
      (fun u hc hp => by simp [State.engineReports, hc, hp, hstart, hh, hheld, hw, hf])
      (fun u hc hp => by simp [State.waitExpires, hc, hp, hstart, hh, hheld, hw, hf])
    refine ⟨fun hm => ?_, fun hm ht => ?_, fun hm h0 hle => ?_⟩
    · obtain ⟨hexec, hrep, hmoved, hc⟩ := hmet hm
      exact ⟨hexec, waitReported_words hrep, ⟨hmoved.idle, hmoved.queued, hmoved.trigger⟩, hc⟩
    · obtain ⟨hc, hexec⟩ := hgoes hm ht
      rw [← hw] at hc
      exact ⟨hc, hexec⟩
    · obtain ⟨hexec, hrep, hmoved, hc⟩ := hover hm h0 hle
      exact ⟨hexec, waitReported_words hrep, ⟨hmoved.idle, hmoved.queued, hmoved.trigger⟩, hc⟩
  · have heng := engineBoundary_waiting (u := s.atCues x) (by rw [hucue]; exact hstart) (by rw [hucue]; exact hwait)
    rw [hucue, hw, huhold, hh] at heng
    rw [hcue, heng]
    rfl
  · have heng := engineBoundary_waiting (u := s.atCues x) (by rw [hucue]; exact hstart) (by rw [hucue]; exact hwait)
    rw [hucue, hw, huhold, hh] at heng
    obtain ⟨hmet, hgoes, hover⟩ := lineEnd_tests_wait (w := { w with count := w.count + 1 }) (hf := (s.atCues x).cue.heldFrom) hend
      (.inl (by rw [hwait]; exact nofun) : s.NoCueAt x) heng
      (fun u hc hp => by simp [State.engineReports, hc, hp, hstart, hh, hwait, hw])
      (fun u hc hp => by simp [State.waitExpires, hc, hp, hstart, hh, hwait, hw])
    rw [hucue] at hmet hgoes hover
    refine ⟨fun hm => ?_, fun hm ht => ?_, fun hm h0 hle => ?_⟩
    · obtain ⟨hexec, hrep, hmoved, hc⟩ := hmet hm
      exact ⟨hexec, waitReported_words hrep, ⟨hmoved.idle, hmoved.queued, hmoved.trigger⟩, hc⟩
    · obtain ⟨hc, hexec⟩ := hgoes hm ht
      rw [← hwait] at hc
      exact ⟨hc, hexec⟩
    · obtain ⟨hexec, hrep, hmoved, hc⟩ := hover hm h0 hle
      exact ⟨hexec, waitReported_words hrep, ⟨hmoved.idle, hmoved.queued, hmoved.trigger⟩, hc⟩

end Sys2Proof.Machine
end
